-- ==== Sys2Proof/Word.lean ====
section
/-! DEFINITION. The words of the AZ412: a byte of a panel frame, of a bus payload or of the image. Every other
quantity of the manual is a whole number with a stated range (00_scope, "Quantities") and is a `Nat`. -/

namespace Sys2Proof

/-- One byte of the panel link, of a frame payload or of the configuration image. -/
abbrev Byte := BitVec 8

/-- The byte that carries the low eight bits of a whole number. -/
def byteOf (n : Nat) : Byte := BitVec.ofNat 8 n

/-- `ceil(a / b)` for whole numbers (00_scope, "Quantities"). -/
def ceilDiv (a b : Nat) : Nat := (a + b - 1) / b

end Sys2Proof
end

