-- ==== Sys2Proof/Syntax.lean ====
section
/-! DEFINITION. The commands of the AZ412: one constructor per row of spec/opcode_table.json.

The table gives no operands; these are read from the rules (DEDUCED, log entry 4).
* `dt` (every command that reaches the station from outside): microseconds of the station's time base that have passed
  since the command before it was taken. The expiry of one of the station's own timers carries none: the timer says when.
* `rest` (panel commands): every byte clocked after the command's code in the frame, the length byte first (R184), and
  how much of the frame came before the reply that now waits.
* `bits` (bus frames): the levels read on ZRX from the start bit to the seventh end bit, recessive `true` (R169, R170).
* `back` (a frame of the station's own): the levels read back, up to the wrong bit (R176).
* `levels` (a transmission): every level read on ZRX since the bus event before, recessive `true` (R169).
* `made`, `isOpen`, `high` (inputs): the input's new level.
* `event` (filtered inputs, R53, R80, R156): the pin moves to that level, or it has held it for 20 ms and the change is
  taken. The second is the event of the row; the first is what its filter waits on. -/

namespace Sys2Proof

/-- Door A is the outer door, door B the inner one (00_scope, "Strongrooms and entrances"). -/
inductive DoorId where
  | a
  | b
deriving DecidableEq, Repr

/-- The two duress inputs. -/
inductive DuressInput where
  | dur1
  | dur2
deriving DecidableEq, Repr

/-- What happens at a filtered input (R80). -/
inductive InputEvent where
  /-- The pin moves to the new level, so many microseconds after the command before; the filtering starts. -/
  | moves (dt : Nat)
  /-- The pin has held the new level for 20 ms: the filter's time ends. -/
  | held
deriving DecidableEq, Repr

/-- A command frame of the panel after its code (R184). -/
structure PanelRest where
  /-- The bytes after the code, the length byte first. -/
  bytes : List Byte
  /-- How many bytes of the frame, its code among them, were begun before the reply that now waits was formed (0: the
  frame began with READY asserted); without a waiting reply it says nothing. -/
  before : Nat
deriving DecidableEq, Repr

/-- What is read back of a frame of the station's own, up to an own-bit error (R176). -/
structure ReadBack where
  /-- Microseconds of the time base since the command before. -/
  dt : Nat
  /-- The levels read on ZRX since the start bit, recessive `true`; the last is the wrong one. -/
  bits : List Bool
deriving DecidableEq, Repr

/-- The commands and events of the AZ412, in the order of the table. -/
inductive Instr where
  /-- R192: VDD rises through its reset threshold. -/
  | powerOnReset
  /-- R192: RESETN is held low. -/
  | pinReset
  /-- R192: 1 ms after INIT began. -/
  | initExpiry
  /-- R193: the 96-byte read finishes. -/
  | imageLoadComplete (dt : Nat) (image : Vector Byte 96)
  /-- R196: one reference cycle on XIN. -/
  | referenceCycle (dt : Nat)
  /-- R196: 1 ms without a reference edge. -/
  | referenceGap (dt : Nat)
  /-- R196: the 50 ms limit expires. -/
  | clockLimitExpiry
  /-- R197: 1 ms without a reference edge while running on the reference. -/
  | clockFallback (dt : Nat)
  /-- R198: the join timer expires. -/
  | joinTimerExpiry
  /-- R2: a rising edge on a detector line. -/
  | detectorRisingEdge (dt : Nat) (line : Fin 4)
  /-- R2: a falling edge on a detector line. -/
  | detectorFallingEdge (dt : Nat) (line : Fin 4)
  /-- R2: the line has been high for 4500 µs. -/
  | longPulse (line : Fin 4)
  /-- R6: the stuck timer expires. -/
  | stuckTimerExpiry (line : Fin 4)
  /-- R7: the open timer expires. -/
  | openTimerExpiry (line : Fin 4)
  /-- R18, R19: panel command 12. -/
  | resetDetection (dt : Nat) (rest : PanelRest)
  /-- R21: panel command 13. -/
  | readDetector (dt : Nat) (rest : PanelRest)
  /-- R25: a STATUS is received. -/
  | statusFrame (dt : Nat) (bits : List Bool)
  /-- R26: the silence timer of a peer expires. -/
  | silenceTimerExpiry (address : Nat)
  /-- R34: a QUERY is received. -/
  | queryFrame (dt : Nat) (bits : List Bool)
  /-- R35: panel command 21. -/
  | readPeer (dt : Nat) (rest : PanelRest)
  /-- R38, R43: a DETECT is received. -/
  | detectFrame (dt : Nat) (bits : List Bool)
  /-- R44: the window timer of an unconsumed entry of the coincidence list expires. -/
  | windowTimerExpiry (station : Nat) (line : Fin 4)
  /-- R58, R73: a filtered change of ABORT. -/
  | abortInputChange (event : InputEvent) (made : Bool)
  /-- R58, R63: a RELEASE_CALL is received. -/
  | releaseCallFrame (dt : Nat) (bits : List Bool)
  /-- R64: a filtered change of MANREL; the row's event is the change to made. -/
  | manrelMade (event : InputEvent) (made : Bool)
  /-- R61: the abort stuck timer expires. -/
  | abortStuckExpiry
  /-- R57: remaining reaches 0. -/
  | countdownExpiry
  /-- R65: the valve delay expires. -/
  | valveDelayExpiry
  /-- R65: the valve pulse expires. -/
  | valvePulseExpiry
  /-- R66: a filtered change of FLOW; the row's event is the change to made. -/
  | flowMade (event : InputEvent) (made : Bool)
  /-- R66: the flow wait expires. -/
  | flowWaitExpiry
  /-- R67: the soak timer expires. -/
  | soakTimerExpiry
  /-- R68: a change of VSUP. -/
  | vsupChange (dt : Nat) (isOpen : Bool)
  /-- R69: the notice timer expires. -/
  | noticeTimerExpiry
  /-- R70: panel command 14. -/
  | suppressionReset (dt : Nat) (rest : PanelRest)
  /-- R71: panel command 15. -/
  | suppressionIsolate (dt : Nat) (rest : PanelRest)
  /-- R72: a RELEASE_NOTICE is received. -/
  | releaseNoticeFrame (dt : Nat) (bits : List Bool)
  /-- R74: the cadence slave's phase time ends. -/
  | cadencePhaseExpiry
  /-- R84, R87: a filtered opening of a door contact. -/
  | doorContactOpens (event : InputEvent) (door : DoorId)
  /-- R85, R86, R87: a filtered closing of a door contact. -/
  | doorContactCloses (event : InputEvent) (door : DoorId)
  /-- R89: a filtered change of a request-to-exit input; the row's event is the change to made. -/
  | requestToExitPress (event : InputEvent) (door : DoorId) (made : Bool)
  /-- R84: the release window expires. -/
  | releaseWindowExpiry (door : DoorId)
  /-- R85: the held timer expires. -/
  | heldTimerExpiry (door : DoorId)
  /-- R91: the wait timer of a pending request expires. -/
  | pendingWaitExpiry (door : DoorId)
  /-- R101: panel command 7. -/
  | presentCredential (dt : Nat) (rest : PanelRest)
  /-- R111: a pair window expires. -/
  | pairWindowExpiry (door : DoorId)
  /-- R115: panel command 8. -/
  | confirmRemote (dt : Nat) (rest : PanelRest)
  /-- R116: a CONFIRM is received. -/
  | confirmFrame (dt : Nat) (bits : List Bool)
  /-- R128: panel command 10. -/
  | zoneSweep (dt : Nat) (rest : PanelRest)
  /-- R133: panel command 11. -/
  | readRoster (dt : Nat) (rest : PanelRest)
  /-- R137: panel command 9. -/
  | setPosture (dt : Nat) (rest : PanelRest)
  /-- R138: a POSTURE is received. -/
  | postureFrame (dt : Nat) (bits : List Bool)
  /-- R146: panel command 18. -/
  | forceOutput (dt : Nat) (rest : PanelRest)
  /-- R146: panel command 19. -/
  | releaseOutput (dt : Nat) (rest : PanelRest)
  /-- R148: panel command 20. -/
  | readOutputs (dt : Nat) (rest : PanelRest)
  /-- R147: a change of a GS sense input. -/
  | senseInputChange (dt : Nat) (line : Fin 12) (high : Bool)
  /-- R147: the mismatch timer of a line expires. -/
  | mismatchTimerExpiry (line : Fin 12)
  /-- R156: a filtered change of DUR1 or DUR2. -/
  | duressInputChange (event : InputEvent) (input : DuressInput) (made : Bool)
  /-- R156: a filtered change of the tamper loop. -/
  | tamperInputChange (event : InputEvent) (isOpen : Bool)
  /-- R157: panel command 2. -/
  | nextAlarm (dt : Nat) (rest : PanelRest)
  /-- R159: panel command 3. -/
  | restoreAlarm (dt : Nat) (rest : PanelRest)
  /-- R160: panel command 4. -/
  | maskAlarm (dt : Nat) (rest : PanelRest)
  /-- R165: panel command 5. -/
  | readSources (dt : Nat) (rest : PanelRest)
  /-- R166: a DURESS is received. -/
  | duressFrame (dt : Nat) (bits : List Bool)
  /-- R167: panel command 6. -/
  | readRemoteList (dt : Nat) (rest : PanelRest)
  /-- R174: the transmitter may begin. -/
  | beginTransmission (dt : Nat) (levels : List Bool)
  /-- R175: a dominant bit is read in the arbitration field where recessive was sent. -/
  | arbitrationLoss (dt : Nat)
  /-- R176: a bit after the arbitration field is read back wrongly. -/
  | ownBitError (back : ReadBack)
  /-- R176: the quiet spell ends. -/
  | quietSpellExpiry
  /-- R177: the seventh end bit is read back recessive. -/
  | transmissionComplete (dt : Nat)
  /-- R178: 64 consecutive dominant bit times. -/
  | busStuck (dt : Nat)
  /-- R178: 128 consecutive recessive bit times. -/
  | busStuckEnd (dt : Nat)
  /-- R179: a frame that fails a receive check. -/
  | receiveDiscard (dt : Nat) (bits : List Bool)
  /-- R181: the first-status delay expires. -/
  | firstStatusDelayExpiry
  /-- R181: the status timer expires. -/
  | statusTimerExpiry
  /-- R186: a panel frame whose first byte is 0: `clocked` whole bytes in all, the first `before` of them begun before
  the reply that now waits was formed (0: the frame began with READY asserted). -/
  | replyRead (dt : Nat) (clocked before : Nat)
  /-- R187: a command frame with a code of 22 to 255. -/
  | unknownCommand (dt : Nat) (code : Nat) (rest : PanelRest)
  /-- R189: panel command 1. -/
  | getStatus (dt : Nat) (rest : PanelRest)
  /-- R190: panel command 16. -/
  | latchTimes (dt : Nat) (rest : PanelRest)
  /-- R191: panel command 17. -/
  | readTimes (dt : Nat) (rest : PanelRest)
deriving DecidableEq, Repr

end Sys2Proof
end

