-- ==== Sys2Proof/Machine/Kinds.lean ====
section
/-! DEFINITION. The named values of the manual (postures, stages, roles, alarm sources, result codes …) and the
numbers the links give them. -/

namespace Sys2Proof.Machine

/-- Building postures, in rising order (00_scope, "Postures"). -/
inductive Posture where
  | opened
  | staffed
  | closed
  | night
  | lockdown
deriving DecidableEq, Repr

/-- The posture's number, 0 to 4. -/
def Posture.num : Posture → Nat
  | .opened => 0
  | .staffed => 1
  | .closed => 2
  | .night => 3
  | .lockdown => 4

/-- The posture of a number; none above 4. -/
def Posture.ofNat? : Nat → Option Posture
  | 0 => some .opened
  | 1 => some .staffed
  | 2 => some .closed
  | 3 => some .night
  | 4 => some .lockdown
  | _ => none

/-- The posture as an index of the door mode table (R100). -/
def Posture.index : Posture → Fin 5
  | .opened => 0
  | .staffed => 1
  | .closed => 2
  | .night => 3
  | .lockdown => 4

/-- CLOSED, NIGHT and LOCKDOWN, the postures under which Ko applies (R13) and an occupied room is reported (R131). -/
def Posture.isClosed : Posture → Bool
  | .opened => false
  | .staffed => false
  | .closed => true
  | .night => true
  | .lockdown => true

/-- The nine area stages of section 4.1. -/
inductive Stage where
  | normal
  | isolated
  | firstAlarm
  | inhibited
  | held
  | countdown
  | releasing
  | discharged
  | vented
deriving DecidableEq, Repr

/-- The ordinal of a stage (section 4.1). -/
def Stage.ordinal : Stage → Nat
  | .normal => 0
  | .isolated => 1
  | .firstAlarm => 2
  | .inhibited => 3
  | .held => 4
  | .countdown => 5
  | .releasing => 6
  | .discharged => 7
  | .vented => 8

/-- The stage of an ordinal; none above 8. -/
def Stage.ofNat? : Nat → Option Stage
  | 0 => some .normal
  | 1 => some .isolated
  | 2 => some .firstAlarm
  | 3 => some .inhibited
  | 4 => some .held
  | 5 => some .countdown
  | 6 => some .releasing
  | 7 => some .discharged
  | 8 => some .vented
  | _ => none

/-- The station's role in its suppression area (R37). -/
inductive Role where
  | noArea
  | member
  | release
deriving DecidableEq, Repr

/-- The role codes of R171 and R194. -/
def Role.code : Role → Nat
  | .noArea => 0
  | .member => 1
  | .release => 2

/-- The role of a code; none for 3. -/
def Role.ofNat? : Nat → Option Role
  | 0 => some .noArea
  | 1 => some .member
  | 2 => some .release
  | _ => none

/-- A detector group. -/
inductive Group where
  | g1
  | g2
deriving DecidableEq, Repr

/-- The group's number, 1 or 2. -/
def Group.num : Group → Nat
  | .g1 => 1
  | .g2 => 2

/-- The group of a number; none for others (R38). -/
def Group.ofNat? : Nat → Option Group
  | 1 => some .g1
  | 2 => some .g2
  | _ => none

/-- A line's stage (section 1.4). -/
inductive LineStage where
  | quiet
  | watch
  | alarm
  | fault
deriving DecidableEq, Repr

/-- Coded by place in the list of R21. -/
def LineStage.code : LineStage → Nat
  | .quiet => 0
  | .watch => 1
  | .alarm => 2
  | .fault => 3

/-- A line's fault kind (section 1.2). -/
inductive FaultKind where
  | noFault
  | short
  | stuck
  | opened
  | noisy
deriving DecidableEq, Repr

/-- Coded by place in the list of R21. -/
def FaultKind.code : FaultKind → Nat
  | .noFault => 0
  | .short => 1
  | .stuck => 2
  | .opened => 3
  | .noisy => 4

/-- Presence of a peer (R23). -/
inductive Presence where
  | neverHeard
  | live
  | silent
deriving DecidableEq, Repr

/-- Coded by place in the list of R35. -/
def Presence.code : Presence → Nat
  | .neverHeard => 0
  | .live => 1
  | .silent => 2

/-- Start phases (R192). -/
inductive Phase where
  | init
  | load
  | configFault
  | clock
  | join
  | run
deriving DecidableEq, Repr

/-- The start phase codes of R188. -/
def Phase.code : Phase → Nat
  | .init => 0
  | .load => 1
  | .configFault => 2
  | .clock => 3
  | .join => 4
  | .run => 5

/-- The clock source in use (section 12.3). -/
inductive ClockSource where
  | internal
  | external
deriving DecidableEq, Repr

/-- The clock source codes of R188. -/
def ClockSource.code : ClockSource → Nat
  | .internal => 0
  | .external => 1

/-- The result of the image load (R194). -/
inductive LoadResult where
  | ok
  | crc
  | range (offset : Nat)
deriving DecidableEq, Repr

/-- The load result codes of R188. -/
def LoadResult.code : LoadResult → Nat
  | .ok => 0
  | .crc => 1
  | .range _ => 2

/-- The offset byte that follows the load result, 0 unless RANGE (R188). -/
def LoadResult.offset : LoadResult → Nat
  | .ok => 0
  | .crc => 0
  | .range n => n

/-- Abort modes (R60). -/
inductive AbortMode where
  | resume
  | restart
  | extend
deriving DecidableEq, Repr

/-- Duress scopes (R140). -/
inductive Scope where
  | off
  | sameArea
  | all
deriving DecidableEq, Repr

/-- Door modes (R100). -/
inductive Mode where
  | free
  | single
  | paired
  | pairedRemote
  | escorted
  | barred
deriving DecidableEq, Repr

/-- The mode codes of R194. -/
def Mode.code : Mode → Nat
  | .free => 0
  | .single => 1
  | .paired => 2
  | .pairedRemote => 3
  | .escorted => 4
  | .barred => 5

/-- The mode of a code; none above 5. -/
def Mode.ofNat? : Nat → Option Mode
  | 0 => some .free
  | 1 => some .single
  | 2 => some .paired
  | 3 => some .pairedRemote
  | 4 => some .escorted
  | 5 => some .barred
  | _ => none

/-- PAIRED and PAIRED_REMOTE, the modes under which reservations are made (section 6.3). -/
def Mode.isPaired : Mode → Bool
  | .paired => true
  | .pairedRemote => true
  | .free => false
  | .single => false
  | .escorted => false
  | .barred => false

/-- Sources of the general output lines (R143). -/
inductive OutSource where
  | noSource
  | effectivePosture
  | stage
  | alarmLevel
  | areaOccupancy
deriving DecidableEq, Repr

/-- The output source codes of R194. -/
def OutSource.code : OutSource → Nat
  | .noSource => 0
  | .effectivePosture => 1
  | .stage => 2
  | .alarmLevel => 3
  | .areaOccupancy => 4

/-- The output source of a code; none above 4. -/
def OutSource.ofNat? : Nat → Option OutSource
  | 0 => some .noSource
  | 1 => some .effectivePosture
  | 2 => some .stage
  | 3 => some .alarmLevel
  | 4 => some .areaOccupancy
  | _ => none

/-- The top of an output source's range (R144); NONE takes threshold 0 only (R194). -/
def OutSource.top : OutSource → Nat
  | .noSource => 0
  | .effectivePosture => 4
  | .stage => 8
  | .alarmLevel => 6
  | .areaOccupancy => 64

/-- Door states (section 5.1). -/
inductive DoorState where
  | secure
  | released
  | opened
  | heldOpen
  | forced
deriving DecidableEq, Repr

/-- Coded by place in the list of R97. -/
def DoorState.code : DoorState → Nat
  | .secure => 0
  | .released => 1
  | .opened => 2
  | .heldOpen => 3
  | .forced => 4

/-- Kinds of passage credit (R82). -/
inductive CreditKind where
  | entry
  | egress
  | exitRequest
deriving DecidableEq, Repr

/-- Coded by place in the list of R82. -/
def CreditKind.code : CreditKind → Nat
  | .entry => 0
  | .egress => 1
  | .exitRequest => 2

/-- Directions of a passage (R82). -/
inductive Direction where
  | inward
  | outward
deriving DecidableEq, Repr

/-- IN for ENTRY, OUT for EGRESS and EXIT_REQUEST (R82). -/
def CreditKind.direction : CreditKind → Direction
  | .entry => .inward
  | .egress => .outward
  | .exitRequest => .outward

/-- Coded by place in the list of R82. -/
def Direction.code : Direction → Nat
  | .inward => 0
  | .outward => 1

/-- How the last pending request left its slot (R91). -/
inductive PendingOutcome where
  | noOutcome
  | granted
  | expired
  | lockout
deriving DecidableEq, Repr

/-- Coded by place in the list of R97. -/
def PendingOutcome.code : PendingOutcome → Nat
  | .noOutcome => 0
  | .granted => 1
  | .expired => 2
  | .lockout => 3

/-- Outcomes of a judged confirmation (R118). -/
inductive ConfirmOutcome where
  | granted
  | tagStale
  | sameHolder
  | classLow
  | notAllowed
deriving DecidableEq, Repr

/-- The outcome codes of R171. -/
def ConfirmOutcome.code : ConfirmOutcome → Nat
  | .granted => 0
  | .tagStale => 1
  | .sameHolder => 2
  | .classLow => 3
  | .notAllowed => 4

/-- The outcome of a code; none above 4. -/
def ConfirmOutcome.ofNat? : Nat → Option ConfirmOutcome
  | 0 => some .granted
  | 1 => some .tagStale
  | 2 => some .sameHolder
  | 3 => some .classLow
  | 4 => some .notAllowed
  | _ => none

/-- What made the roster doubtful (R122). -/
inductive DoubtCause where
  | noCause
  | restart
  | doorAHeld
  | doorBHeld
  | doorAForced
  | doorBForced
  | anonymousExit
  | overCapacity
deriving DecidableEq, Repr

/-- Coded by place in the list of R122. -/
def DoubtCause.code : DoubtCause → Nat
  | .noCause => 0
  | .restart => 1
  | .doorAHeld => 2
  | .doorBHeld => 3
  | .doorAForced => 4
  | .doorBForced => 5
  | .anonymousExit => 6
  | .overCapacity => 7

/-- The doubt cause of a door held open (R127). -/
def heldCause : DoorId → DoubtCause
  | .a => .doorAHeld
  | .b => .doorBHeld

/-- The doubt cause of a forced door (R127). -/
def forcedCause : DoorId → DoubtCause
  | .a => .doorAForced
  | .b => .doorBForced

/-- Door codes of R171 and R188: 0 A, 1 B. -/
def doorCode : DoorId → Nat
  | .a => 0
  | .b => 1

/-- The door of a code; none for others. -/
def doorOfNat? : Nat → Option DoorId
  | 0 => some .a
  | 1 => some .b
  | _ => none

/-- The other door of the vestibule. -/
def partner : DoorId → DoorId
  | .a => .b
  | .b => .a

/-- The side of a presentation (section 6.2). -/
inductive Side where
  | outside
  | inside
deriving DecidableEq, Repr

/-- The side codes of R188. -/
def sideOfNat? : Nat → Option Side
  | 0 => some .outside
  | 1 => some .inside
  | _ => none

/-- The panel's verdict on a card (section 6.2). -/
inductive Verdict where
  | valid
  | expired
  | unknown
deriving DecidableEq, Repr

/-- The verdict codes of R188. -/
def verdictOfNat? : Nat → Option Verdict
  | 0 => some .valid
  | 1 => some .expired
  | 2 => some .unknown
  | _ => none

/-- Kinds of remote alarm list entry (R166). -/
inductive RemoteKind where
  | duress
  | firstAlarm
deriving DecidableEq, Repr

/-- Coded by place in the list of R166. -/
def RemoteKind.code : RemoteKind → Nat
  | .duress => 0
  | .firstAlarm => 1

/-- Patterns of the sounder (R74). -/
inductive Pattern where
  | off
  | slow
  | fast
  | continuous
deriving DecidableEq, Repr

/-- The pattern a stage calls for (R74). -/
def Stage.pattern : Stage → Pattern
  | .firstAlarm => .slow
  | .inhibited => .slow
  | .countdown => .fast
  | .held => .fast
  | .releasing => .continuous
  | .discharged => .continuous
  | .normal => .off
  | .isolated => .off
  | .vented => .off

/-- Microseconds of one ON or GAP phase; none for a pattern that does not repeat (R74). -/
def Pattern.phaseTime : Pattern → Option Nat
  | .slow => some 1000000
  | .fast => some 250000
  | .continuous => none
  | .off => none

/-- Cadence phases (R52). -/
inductive Cadence where
  | off
  | on
  | gap
deriving DecidableEq, Repr

/-- The 32 alarm sources, in numeric order (R152). -/
inductive Source where
  | discharge
  | countdown
  | abortHeld
  | firstAlarm
  | duress1
  | duress2
  | peerDuress
  | releaseFailure
  | doorAForced
  | doorBForced
  | doorAHeld
  | doorBHeld
  | escortLeft
  | occupiedAtClose
  | inhibited
  | detectorWatch
  | detectorFault
  | releaseCircuit
  | peerSilent
  | releaseStationLost
  | tamper
  | outputFault
  | rosterMismatch
  | passback
  | busFault
  | transmitOverrun
  | clockFallback
  | addressClash
  | abortStuck
  | pairBroken
  | isolated
  | manualRelease
deriving DecidableEq, Repr

/-- The source's number (R152). -/
def Source.num : Source → Fin 32
  | .discharge => 0
  | .countdown => 1
  | .abortHeld => 2
  | .firstAlarm => 3
  | .duress1 => 4
  | .duress2 => 5
  | .peerDuress => 6
  | .releaseFailure => 7
  | .doorAForced => 8
  | .doorBForced => 9
  | .doorAHeld => 10
  | .doorBHeld => 11
  | .escortLeft => 12
  | .occupiedAtClose => 13
  | .inhibited => 14
  | .detectorWatch => 15
  | .detectorFault => 16
  | .releaseCircuit => 17
  | .peerSilent => 18
  | .releaseStationLost => 19
  | .tamper => 20
  | .outputFault => 21
  | .rosterMismatch => 22
  | .passback => 23
  | .busFault => 24
  | .transmitOverrun => 25
  | .clockFallback => 26
  | .addressClash => 27
  | .abortStuck => 28
  | .pairBroken => 29
  | .isolated => 30
  | .manualRelease => 31

/-- Every source, in numeric order. -/
def Source.all : List Source :=
  [.discharge, .countdown, .abortHeld, .firstAlarm, .duress1, .duress2, .peerDuress, .releaseFailure,
   .doorAForced, .doorBForced, .doorAHeld, .doorBHeld, .escortLeft, .occupiedAtClose, .inhibited, .detectorWatch,
   .detectorFault, .releaseCircuit, .peerSilent, .releaseStationLost, .tamper, .outputFault, .rosterMismatch, .passback,
   .busFault, .transmitOverrun, .clockFallback, .addressClash, .abortStuck, .pairBroken, .isolated, .manualRelease]

/-- The source of a number; none above 31. -/
def Source.ofNat? (n : Nat) : Option Source := Source.all[n]?

/-- The alarm class, 0 the most urgent (R152). -/
def Source.cls : Source → Fin 6
  | .discharge => 0
  | .countdown => 0
  | .abortHeld => 1
  | .firstAlarm => 1
  | .duress1 => 0
  | .duress2 => 0
  | .peerDuress => 0
  | .releaseFailure => 0
  | .doorAForced => 2
  | .doorBForced => 2
  | .doorAHeld => 3
  | .doorBHeld => 3
  | .escortLeft => 2
  | .occupiedAtClose => 2
  | .inhibited => 1
  | .detectorWatch => 4
  | .detectorFault => 3
  | .releaseCircuit => 3
  | .peerSilent => 3
  | .releaseStationLost => 1
  | .tamper => 2
  | .outputFault => 4
  | .rosterMismatch => 5
  | .passback => 4
  | .busFault => 3
  | .transmitOverrun => 4
  | .clockFallback => 4
  | .addressClash => 3
  | .abortStuck => 2
  | .pairBroken => 5
  | .isolated => 4
  | .manualRelease => 0

/-- Trigger kinds (R152). -/
inductive SourceKind where
  | edge
  | level
  | perEntry
deriving DecidableEq, Repr

/-- The trigger kind codes of R188. -/
def SourceKind.code : SourceKind → Nat
  | .edge => 0
  | .level => 1
  | .perEntry => 2

/-- The trigger kind of each source (R152). -/
def Source.kind : Source → SourceKind
  | .discharge => .edge
  | .countdown => .level
  | .abortHeld => .level
  | .firstAlarm => .level
  | .duress1 => .edge
  | .duress2 => .edge
  | .peerDuress => .perEntry
  | .releaseFailure => .edge
  | .doorAForced => .edge
  | .doorBForced => .edge
  | .doorAHeld => .level
  | .doorBHeld => .level
  | .escortLeft => .edge
  | .occupiedAtClose => .edge
  | .inhibited => .level
  | .detectorWatch => .level
  | .detectorFault => .level
  | .releaseCircuit => .level
  | .peerSilent => .level
  | .releaseStationLost => .level
  | .tamper => .edge
  | .outputFault => .level
  | .rosterMismatch => .edge
  | .passback => .edge
  | .busFault => .level
  | .transmitOverrun => .edge
  | .clockFallback => .level
  | .addressClash => .level
  | .abortStuck => .edge
  | .pairBroken => .edge
  | .isolated => .level
  | .manualRelease => .edge

/-- The level sources, in numeric order. -/
def Source.levels : List Source := Source.all.filter (fun x => x.kind == .level)

/-- The forced source of a door (R87). -/
def forcedSource : DoorId → Source
  | .a => .doorAForced
  | .b => .doorBForced

/-- The source of a duress input (R156). -/
def duressSource : DuressInput → Source
  | .dur1 => .duress1
  | .dur2 => .duress2

/-- The sources of one class in numeric order (R158). -/
def classOrder (c : Fin 6) : List Source := Source.all.filter (fun x => x.cls == c)

/-- The result byte of a reply (R188). -/
inductive Result where
  | done
  | granted
  | grantedPair
  | grantedEgress
  | pendingInterlock
  | pairWaiting
  | sameHolder
  | confirmSent
  | doorBusy
  | deniedInvalid
  | deniedLockout
  | deniedBarred
  | deniedClass
  | deniedPassback
  | deniedFull
  | deniedNoEscort
  | notConfigured
  | notAuthority
  | isProtected
  | stillActive
  | doorNotSecure
  | detectionActive
  | wrongState
  | notReleaseStation
  | badArgument
deriving DecidableEq, Repr

/-- The result values of R188. -/
def Result.code : Result → Nat
  | .done => 0
  | .granted => 1
  | .grantedPair => 2
  | .grantedEgress => 3
  | .pendingInterlock => 4
  | .pairWaiting => 5
  | .sameHolder => 6
  | .confirmSent => 7
  | .doorBusy => 8
  | .deniedInvalid => 9
  | .deniedLockout => 10
  | .deniedBarred => 11
  | .deniedClass => 12
  | .deniedPassback => 13
  | .deniedFull => 14
  | .deniedNoEscort => 15
  | .notConfigured => 16
  | .notAuthority => 17
  | .isProtected => 18
  | .stillActive => 19
  | .doorNotSecure => 20
  | .detectionActive => 21
  | .wrongState => 22
  | .notReleaseStation => 23
  | .badArgument => 24

/-- The panel port's states (R183). -/
inductive PortState where
  | idle
  | busy
  | reply
deriving DecidableEq, Repr

end Sys2Proof.Machine
end

