-- ==== Sys2Proof/Machine/Frames.lean ====
section
/-! DEFINITION. Zone bus frames: payloads (R171), fields and CRC (R170), stuffing (R169), and the receive checks
(R179). `Frame.lineBits` is the sender's side and `acceptBits` the receiver's. -/

namespace Sys2Proof.Machine

/-- A judged confirmation: door, tag and outcome (R118). -/
structure PairOutcome where
  /-- The door of the CONFIRM frame. -/
  door : DoorId
  /-- The tag of the CONFIRM frame. -/
  tag : Byte
  /-- How it was judged. -/
  outcome : ConfirmOutcome
deriving DecidableEq, Repr

/-- What a station announces about itself in STATUS (R171), and what a peer entry keeps of it (R23). -/
structure Announcement where
  /-- Role. -/
  role : Role
  /-- Area, 0 to 15. -/
  area : Nat
  /-- Posture of the view. -/
  posture : Posture
  /-- Epoch of the view. -/
  epoch : Byte
  /-- Area stage. -/
  stage : Stage
  /-- Doubtful flag of the roster. -/
  doubtful : Bool
  /-- Roster count, 0 to 16. -/
  count : Nat
  /-- Detector alarm mask, bit n for line n. -/
  alarmMask : BitVec 4
  /-- Detector group mask, bit n set when line n is in group 2. -/
  groupMask : BitVec 4
  /-- Abort-held flag. -/
  abortHeld : Bool
  /-- Duress-active flag. -/
  duressActive : Bool
  /-- Highest alarm level, 0 to 6. -/
  alarmLevel : Nat
  /-- Status period, 1 to 16 units of 250 ms. -/
  period : Nat
  /-- Last pair outcome. -/
  outcome : Option PairOutcome
deriving DecidableEq, Repr

/-- Two pair outcomes agree in every field. -/
def PairOutcome.same (x y : PairOutcome) : Bool :=
  decide (x.door = y.door) && x.tag.toNat == y.tag.toNat && x.outcome.code == y.outcome.code

/-- Two announcements agree in every field. -/
def Announcement.same (x y : Announcement) : Bool :=
  x.role.code == y.role.code && x.area == y.area && x.posture.num == y.posture.num &&
    x.epoch.toNat == y.epoch.toNat && x.stage.ordinal == y.stage.ordinal && x.doubtful == y.doubtful &&
    x.count == y.count && x.alarmMask.toNat == y.alarmMask.toNat && x.groupMask.toNat == y.groupMask.toNat &&
    x.abortHeld == y.abortHeld && x.duressActive == y.duressActive && x.alarmLevel == y.alarmLevel &&
    x.period == y.period &&
    match x.outcome, y.outcome with
    | none, none => true
    | some u, some v => u.same v
    | none, some _ => false
    | some _, none => false

theorem Role.code_inj {x y : Role} (h : x.code = y.code) : x = y := by
  cases x <;> cases y <;> first | rfl | cases h

theorem Posture.num_inj {x y : Posture} (h : x.num = y.num) : x = y := by
  cases x <;> cases y <;> first | rfl | cases h

theorem Stage.ordinal_inj {x y : Stage} (h : x.ordinal = y.ordinal) : x = y := by
  cases x <;> cases y <;> first | rfl | cases h

theorem ConfirmOutcome.code_inj {x y : ConfirmOutcome} (h : x.code = y.code) : x = y := by
  cases x <;> cases y <;> first | rfl | cases h

theorem PairOutcome.same_iff (x y : PairOutcome) : x.same y = true ↔ x = y := by
  obtain ⟨d, t, o⟩ := x
  obtain ⟨d', t', o'⟩ := y
  simp only [PairOutcome.same, Bool.and_eq_true, decide_eq_true_eq, beq_iff_eq, PairOutcome.mk.injEq, and_assoc]
  exact and_congr_right fun _ => and_congr BitVec.toNat_inj ⟨ConfirmOutcome.code_inj, fun h => by rw [h]⟩

/-- The comparison is equality. -/
theorem Announcement.same_iff (x y : Announcement) : x.same y = true ↔ x = y := by
  refine ⟨fun h => ?_, fun h => ?_⟩
  · obtain ⟨a1, a2, a3, a4, a5, a6, a7, a8, a9, a10, a11, a12, a13, a14⟩ := x
    obtain ⟨b1, b2, b3, b4, b5, b6, b7, b8, b9, b10, b11, b12, b13, b14⟩ := y
    simp only [Announcement.same, Bool.and_eq_true, beq_iff_eq, and_assoc] at h
    obtain ⟨h1, h2, h3, h4, h5, h6, h7, h8, h9, h10, h11, h12, h13, h14⟩ := h
    have h14' : a14 = b14 := by
      cases a14 <;> cases b14 <;> first | rfl | cases h14 | exact congrArg some ((PairOutcome.same_iff _ _).1 h14)
    cases Role.code_inj h1; cases h2; cases Posture.num_inj h3; cases BitVec.toNat_inj.1 h4
    cases Stage.ordinal_inj h5; cases h6; cases h7; cases BitVec.toNat_inj.1 h8; cases BitVec.toNat_inj.1 h9
    cases h10; cases h11; cases h12; cases h13; cases h14'; rfl
  · subst h
    obtain ⟨a1, a2, a3, a4, a5, a6, a7, a8, a9, a10, a11, a12, a13, a14⟩ := x
    cases a14 <;> simp [Announcement.same, PairOutcome.same]

/-- The announced fields after reset: 0 or clear, the period 16, the outcome absent (R23). -/
def Announcement.reset : Announcement where
  role := .noArea
  area := 0
  posture := .opened
  epoch := 0
  stage := .normal
  doubtful := false
  count := 0
  alarmMask := 0
  groupMask := 0
  abortHeld := false
  duressActive := false
  alarmLevel := 0
  period := 16
  outcome := none

/-- The ranges STATUS is checked for on receipt (R179). -/
abbrev Announcement.Wf (a : Announcement) : Prop :=
  a.area ≤ 15 ∧ a.count ≤ 16 ∧ a.alarmLevel ≤ 6 ∧ 1 ≤ a.period ∧ a.period ≤ 16

/-- A frame as its owner makes it: kind and payload fields (R171). -/
inductive Frame where
  /-- The release station's stage, remaining seconds and flow flag (R69). -/
  | releaseNotice (area ordinal : BitVec 4) (remaining : Byte) (flow : Bool)
  /-- 0 MANUAL, 1 ABORT_ON, 2 ABORT_OFF (R58). -/
  | releaseCall (area call : Byte)
  /-- A duress source and its active flag (R164). -/
  | duress (source : Byte) (active : Bool) (area : BitVec 4)
  /-- A detection or its withdrawal (R16, R20). -/
  | detect (area : BitVec 4) (line : Fin 4) (group : Byte) (active : Bool) (level : Byte)
  /-- A remote confirmation (R115). -/
  | confirm (target door tag : Byte) (holder : BitVec 16) (cls : Byte)
  /-- A posture and its epoch (R137). -/
  | posture (posture epoch : Byte)
  /-- A STATUS announcement (R181). -/
  | status (content : Announcement)
  /-- A request for everyone's STATUS (R34). -/
  | query
deriving DecidableEq, Repr

/-- The kind code (R171). -/
def Frame.kind : Frame → Nat
  | .releaseNotice .. => 0
  | .releaseCall .. => 1
  | .duress .. => 2
  | .detect .. => 3
  | .confirm .. => 4
  | .posture .. => 5
  | .status .. => 6
  | .query => 7

/-- The urgency of a kind code (R171). -/
def kindUrgency : Nat → Nat
  | 0 => 0
  | 1 => 0
  | 2 => 1
  | 3 => 2
  | 4 => 3
  | 5 => 4
  | 6 => 5
  | _ => 6

/-- The payload length of a kind code (R171). -/
def kindLength : Nat → Nat
  | 0 => 3
  | 1 => 2
  | 2 => 2
  | 3 => 4
  | 4 => 6
  | 5 => 2
  | 6 => 9
  | _ => 0

/-- The urgency of a frame (R171). -/
def Frame.urgency (f : Frame) : Nat := kindUrgency f.kind

/-- STATUS and RELEASE_NOTICE supersede a queued entry of their kind (R173). -/
def Frame.supersedes (f : Frame) : Bool := f.kind == 0 || f.kind == 6

/-- Frames are well formed when a STATUS is within its ranges; the other fields have their widths by type. -/
abbrev Frame.Wf : Frame → Prop
  | .status a => a.Wf
  | .releaseNotice .. => True
  | .releaseCall .. => True
  | .duress .. => True
  | .detect .. => True
  | .confirm .. => True
  | .posture .. => True
  | .query => True

/-- A payload byte from its two nibbles. -/
def nibbles (hi lo : Nat) : Byte := byteOf (16 * hi + lo)

/-- The payload of a frame, byte 0 first (R171). -/
def Frame.payload : Frame → List Byte
  | .releaseNotice area ordinal remaining flow => [nibbles area.toNat ordinal.toNat, remaining, byteOf flow.toNat]
  | .releaseCall area call => [area, call]
  | .duress source active area => [source, byteOf (128 * active.toNat + area.toNat)]
  | .detect area line group active level => [nibbles area.toNat line.val, group, byteOf active.toNat, level]
  | .confirm target door tag holder cls =>
      [target, door, tag, byteOf (holder.toNat / 256), byteOf (holder.toNat % 256), cls]
  | .posture p e => [p, e]
  | .status a =>
      [byteOf (64 * a.role.code + a.area), nibbles a.posture.num a.stage.ordinal, a.epoch,
       byteOf (128 * a.doubtful.toNat + a.count), nibbles a.alarmMask.toNat a.groupMask.toNat,
       byteOf (128 * a.abortHeld.toNat + 64 * a.duressActive.toNat + a.alarmLevel), byteOf a.period,
       match a.outcome with
       | some o => byteOf (128 + 64 * doorCode o.door + o.outcome.code)
       | none => 0,
       match a.outcome with
       | some o => o.tag
       | none => 0]
  | .query => []

/-- Bit `i` of a byte as a mark. -/
def byteBit (b : Byte) (i : Nat) : Bool := b.toNat / 2 ^ i % 2 == 1

/-- A STATUS payload read by the layout of R171 and checked by R179; bits not listed are ignored. -/
def announcementOf (b0 b1 b2 b3 b4 b5 b6 b7 b8 : Byte) : Option Announcement :=
  match Role.ofNat? (b0.toNat / 64), Posture.ofNat? (b1.toNat / 16), Stage.ofNat? (b1.toNat % 16),
      ConfirmOutcome.ofNat? (b7.toNat % 8) with
  | some role, some posture, some stage, some outcome =>
      if b3.toNat % 32 ≤ 16 ∧ b5.toNat % 8 ≤ 6 ∧ 1 ≤ b6.toNat ∧ b6.toNat ≤ 16 then
        some {
          role := role, area := b0.toNat % 16, posture := posture, epoch := b2, stage := stage
          doubtful := byteBit b3 7, count := b3.toNat % 32
          alarmMask := BitVec.ofNat 4 (b4.toNat / 16), groupMask := BitVec.ofNat 4 (b4.toNat % 16)
          abortHeld := byteBit b5 7, duressActive := byteBit b5 6, alarmLevel := b5.toNat % 8, period := b6.toNat
          outcome := if byteBit b7 7 then
              some { door := if byteBit b7 6 then .b else .a, tag := b8, outcome := outcome }
            else none }
      else none
  | _, _, _, _ => none

/-- A payload of a kind, by the layouts of R171; none when the length is not the kind's, or a STATUS fails R179. -/
def Frame.ofPayload (kind : Nat) (p : List Byte) : Option Frame :=
  match kind, p with
  | 0, [b0, b1, b2] =>
      some (.releaseNotice (BitVec.ofNat 4 (b0.toNat / 16)) (BitVec.ofNat 4 (b0.toNat % 16)) b1 (byteBit b2 0))
  | 1, [b0, b1] => some (.releaseCall b0 b1)
  | 2, [b0, b1] => some (.duress b0 (byteBit b1 7) (BitVec.ofNat 4 (b1.toNat % 16)))
  | 3, [b0, b1, b2, b3] =>
      some (.detect (BitVec.ofNat 4 (b0.toNat / 16)) ⟨b0.toNat % 4, Nat.mod_lt _ (by decide)⟩ b1 (byteBit b2 0) b3)
  | 4, [b0, b1, b2, b3, b4, b5] => some (.confirm b0 b1 b2 (BitVec.ofNat 16 (256 * b3.toNat + b4.toNat)) b5)
  | 5, [b0, b1] => some (.posture b0 b1)
  | 6, [b0, b1, b2, b3, b4, b5, b6, b7, b8] => (announcementOf b0 b1 b2 b3 b4 b5 b6 b7 b8).map .status
  | 7, [] => some .query
  | _, _ => none

/-- The `w` low bits of `n`, most significant first (R170). -/
def bitsOf : Nat → Nat → List Bool
  | 0, _ => []
  | w + 1, n => (n / 2 ^ w % 2 == 1) :: bitsOf w n

/-- The number that a run of bits spells, most significant first. -/
def natOfBits (bs : List Bool) : Nat := bs.foldl (fun n b => 2 * n + b.toNat) 0

/-- The bits of a run of bytes, each most significant bit first (R170). -/
def bitsOfBytes : List Byte → List Bool
  | [] => []
  | b :: bs => bitsOf 8 b.toNat ++ bitsOfBytes bs

/-- `n` bytes read from a run of bits. -/
def bytesOfBits : Nat → List Bool → List Byte
  | 0, _ => []
  | n + 1, bs => byteOf (natOfBits (bs.take 8)) :: bytesOfBits n (bs.drop 8)

/-- One bit into the CRC register, generator 0x1021 (R170, R193). -/
def crcStep (crc : BitVec 16) (b : Bool) : BitVec 16 :=
  if (crc.msb ^^ b) then (crc <<< 1) ^^^ 0x1021#16 else crc <<< 1

/-- CRC-16 with initial value 0xFFFF and no final inversion (R170, R193). -/
def crc16 (bs : List Bool) : BitVec 16 := bs.foldl crcStep 0xFFFF#16

/-- The unstuffed bits from urgency to the last payload bit (R170). -/
def Frame.bodyBits (sender : Nat) (f : Frame) : List Bool :=
  bitsOf 3 f.urgency ++ bitsOf 6 sender ++ bitsOf 3 f.kind ++ bitsOf 4 (kindLength f.kind) ++ bitsOfBytes f.payload

/-- Stuffing (R169): after five equal bits one of the other level, which counts toward the next run. `run` equal bits
of level `last` have been sent. -/
def stuff (run : Nat) (last : Bool) : List Bool → List Bool
  | [] => []
  | b :: bs =>
    if (if b == last then run + 1 else 1) = 5 then b :: (!b) :: stuff 1 (!b) bs
    else b :: stuff (if b == last then run + 1 else 1) b bs

/-- `n` unstuffed bits taken from the line, with the run that stands afterwards and the bits that follow; none at a
stuff violation or when the line runs out (R169, R179). -/
def unstuff : Nat → Nat → Bool → List Bool → Option (List Bool × Nat × Bool × List Bool)
  | 0, run, last, bs => some ([], run, last, bs)
  | _ + 1, _, _, [] => none
  | n + 1, run, last, b :: bs =>
    if (if b == last then run + 1 else 1) = 5 then
      match bs with
      | [] => none
      | x :: bs' => if x == b then none else (unstuff n 1 x bs').map (fun r => (b :: r.1, r.2))
    else (unstuff n (if b == last then run + 1 else 1) b bs).map (fun r => (b :: r.1, r.2))

/-- The seven recessive end bits (R170). -/
def endBits : List Bool := List.replicate 7 true

/-- The levels a sender drives for a frame, start bit to last end bit (R169, R170). -/
def Frame.lineBits (sender : Nat) (f : Frame) : List Bool :=
  stuff 0 false ((false :: f.bodyBits sender) ++ bitsOf 16 (crc16 (f.bodyBits sender)).toNat) ++ endBits

/-- The receiver (R179): the sender's address and the frame when the bits on the line are a good frame, none when any
check fails. -/
def acceptBits (line : List Bool) : Option (Nat × Frame) :=
  match unstuff 17 0 false line with
  | none => none
  | some (head, run, last, more) =>
    if head.head? == some false ∧ natOfBits ((head.drop 13).take 4) ≤ 12 then
      match unstuff (8 * natOfBits ((head.drop 13).take 4) + 16) run last more with
      | none => none
      | some (body, _, _, tail) =>
        if natOfBits ((head.drop 13).take 4) = kindLength (natOfBits ((head.drop 10).take 3)) ∧
            natOfBits ((head.drop 1).take 3) = kindUrgency (natOfBits ((head.drop 10).take 3)) ∧
            1 ≤ natOfBits ((head.drop 4).take 6) ∧ natOfBits ((head.drop 4).take 6) ≤ 48 ∧
            crc16 (head.drop 1 ++ body.take (8 * natOfBits ((head.drop 13).take 4))) =
              BitVec.ofNat 16 (natOfBits (body.drop (8 * natOfBits ((head.drop 13).take 4)))) ∧
            tail = endBits then
          (Frame.ofPayload (natOfBits ((head.drop 10).take 3))
            (bytesOfBits (natOfBits ((head.drop 13).take 4)) body)).map
            (fun f => (natOfBits ((head.drop 4).take 6), f))
        else none
    else none

end Sys2Proof.Machine
end

