-- ==== Sys2Proof/Decode.lean ====
section
/-! DEFINITION. Which command the world's signals spell. Every row of spec/opcode_table.json has null bits: the AZ412's
commands are events, pin changes, bus frames and panel frames, and no row has a fixed word, so no word spells a command
(log entry 8). What a panel frame spells is in its first byte (R184), and what a bus frame spells in its kind (R179). -/

namespace Sys2Proof

open Sys2Proof.Machine

/-- The command of a word of `nbits` bits: none, as no row gives bits (log entry 8). -/
def decodeTableWord (_nbits _w : Nat) : Option Instr := none

/-! ## Panel frames -/

/-- A byte from its bits, the most significant first. -/
def byteOfBits (bits : List Bool) : Byte := bits.foldl (fun b x => b * 2 + if x then 1 else 0) 0

/-- R183, R184: the whole bytes of the bits sampled in a frame, each most significant bit first; the bits of a last byte
that is not whole are discarded. -/
def frameBytes : List Bool → List Byte
  | a :: b :: c :: d :: e :: f :: g :: h :: rest => byteOfBits [a, b, c, d, e, f, g, h] :: frameBytes rest
  | _ => []

/-- R184, R188: the command of a frame's first byte. 0 is a reply read; 1 to 21 are the commands of the table; any other byte is an unknown code. -/
def panelInstr (dt : Nat) (rest : PanelRest) : Nat → Instr
  | 0 => .replyRead dt (1 + rest.bytes.length) rest.before
  | 1 => .getStatus dt rest
  | 2 => .nextAlarm dt rest
  | 3 => .restoreAlarm dt rest
  | 4 => .maskAlarm dt rest
  | 5 => .readSources dt rest
  | 6 => .readRemoteList dt rest
  | 7 => .presentCredential dt rest
  | 8 => .confirmRemote dt rest
  | 9 => .setPosture dt rest
  | 10 => .zoneSweep dt rest
  | 11 => .readRoster dt rest
  | 12 => .resetDetection dt rest
  | 13 => .readDetector dt rest
  | 14 => .suppressionReset dt rest
  | 15 => .suppressionIsolate dt rest
  | 16 => .latchTimes dt rest
  | 17 => .readTimes dt rest
  | 18 => .forceOutput dt rest
  | 19 => .releaseOutput dt rest
  | 20 => .readOutputs dt rest
  | 21 => .readPeer dt rest
  | code + 22 => .unknownCommand dt (code + 22) rest

/-- R184: the command of everything sampled on PSDI between PCSN going low and going high; a frame that ends before one
whole byte is ignored entirely. -/
def decodePanelFrame (dt before : Nat) (bits : List Bool) : Option Instr :=
  match frameBytes bits with
  | [] => none
  | code :: rest => some (panelInstr dt { bytes := rest, before := before } code.toNat)

/-! ## Bus frames -/

/-- The row that is the receipt of a frame. -/
def frameInstr (dt : Nat) (bits : List Bool) : Frame → Instr
  | .releaseNotice .. => .releaseNoticeFrame dt bits
  | .releaseCall .. => .releaseCallFrame dt bits
  | .duress .. => .duressFrame dt bits
  | .detect .. => .detectFrame dt bits
  | .confirm .. => .confirmFrame dt bits
  | .posture .. => .postureFrame dt bits
  | .status .. => .statusFrame dt bits
  | .query => .queryFrame dt bits

/-- R179: the command of the levels of a frame on ZRX: a good frame's is that of its kind; any other is discarded. -/
def decodeBusFrame (dt : Nat) (bits : List Bool) : Instr :=
  match acceptBits bits with
  | some (_, f) => frameInstr dt bits f
  | none => .receiveDiscard dt bits

end Sys2Proof
end

