-- ==== Sys2Proof/Config.lean ====
section
/-! DEFINITION. What is fixed for every AZ412: the durations the manual states as numbers, and the free values the
manual leaves open. The time base counts whole microseconds (R2 captures edges to 1 µs). -/

namespace Sys2Proof.Config

/-- Microseconds of a whole number of milliseconds. -/
def ms (n : Nat) : Nat := n * 1000

/-- Microseconds of a whole number of seconds. -/
def sec (n : Nat) : Nat := n * 1000000

/-- R53, R80, R156: how long a filtered input holds its new level before the change is taken, 20 ms. -/
def filterTime : Nat := ms 20

/-- R192: INIT lasts 1 ms. -/
def initTime : Nat := ms 1

/-- R196: the limit on stabilisation, 50 ms. -/
def clockLimit : Nat := ms 50

/-- R196: reference cycles to stabilise. -/
def stableCount : Nat := 16384

/-- R198: the join timer, 8000 ms. -/
def joinTime : Nat := ms 8000

/-- R2: a pulse ends as long after 4500 µs. -/
def longPulse : Nat := 4500

/-- R6: the stuck timer, 50 ms. -/
def stuckTime : Nat := ms 50

/-- R7: the open timer, 2000 ms. -/
def openTime : Nat := ms 2000

/-- R69: the notice timer, 1 s. -/
def noticeTime : Nat := sec 1

/-- R33, R72: a STATUS moves the mirror once no notice has been taken for 3 s. -/
def mirrorAge : Nat := sec 3

/-- R176: the quiet spell, 2000 ms. -/
def quietTime : Nat := ms 2000

/-- R147: the mismatch timer, 500 ms. -/
def mismatchTime : Nat := ms 500

/-- R197: the gap that is added to the time base at a fallback, 1 ms. -/
def fallbackGap : Nat := ms 1

/-- R181: first-status delay per address, 20 ms. -/
def firstStatusUnit : Nat := ms 20

/-- R26, R181: the unit of a status period, 250 ms. -/
def periodUnit : Nat := ms 250

/-- R169: recessive bits in a row after which the bus is idle. -/
def idleBits : Nat := 11

/-- R172: entries of the transmit queue. -/
def queueSize : Nat := 6

/-- Section 3.2: entries of the coincidence list. -/
def listSize : Nat := 8

/-- R58: addresses of the abort set. -/
def abortSize : Nat := 4

/-- R122: entries of the roster. -/
def rosterSize : Nat := 16

/-- R166: entries of the remote alarm list. -/
def remoteSize : Nat := 8

/-- FREE VALUE (log entry 5). A byte of a reply that the manual gives no value for; the argument is the model's
counter of free values already used. Nothing constrains it. -/
opaque freeByte : Nat → Byte

/-- FREE VALUE (log entry 6). What a time in whole seconds since the end of LOAD reads once it has passed the range
0 to 4294967295 that R122, R133 and R151 state; the argument is the true number of seconds. -/
opaque secondsPastRange : Nat → Nat

end Sys2Proof.Config
end

