-- ==== Sys2Proof/Machine/Image.lean ====
section
/-! DEFINITION. The 96-byte configuration image: its layout, its check in the order of the bytes, and the fields every
block takes from it (R193, R194). -/

namespace Sys2Proof.Machine

/-- One detector line's fields (bytes 31 to 50). -/
structure LineCfg where
  /-- The line is enabled (R1). -/
  enable : Bool
  /-- Its detector group. -/
  group : Group
  /-- V, the verification count. -/
  v : Nat
  /-- Wt, the watch level. -/
  wt : Nat
  /-- At, the alarm level. -/
  at_ : Nat
  /-- Qt, the rate threshold; 0 disables rate detection (R14). -/
  qt : Nat
deriving DecidableEq, Repr

/-- One entry of the door mode table (R100). -/
structure ModeEntry where
  /-- The mode. -/
  mode : Mode
  /-- The minimum class. -/
  minClass : Nat
  /-- The escortee floor. -/
  floor : Nat
deriving DecidableEq, Repr

/-- One entry of the output drive table (R143). -/
structure OutputCfg where
  /-- What drives the line. -/
  source : OutSource
  /-- The threshold. -/
  threshold : Nat
  /-- The active level is HIGH. -/
  activeHigh : Bool
deriving DecidableEq, Repr

/-- The loaded image (R194). Tr, Th, Tp, Tc, Tpd, Tman, Tx, Tab, Tf and Ts are whole seconds, Dv and Pv milliseconds. -/
structure Image where
  /-- Own address. -/
  address : Nat
  /-- Role. -/
  role : Role
  /-- Area. -/
  area : Nat
  /-- Area member list; at a MEMBER the first is the release station (R27). -/
  members : List Nat
  /-- External reference fitted (R196). -/
  externalRef : Bool
  /-- Door count is two (R81). -/
  twoDoors : Bool
  /-- Bit rate code: 0 20, 1 50, 2 125 kbit/s. -/
  rate : Nat
  /-- Ps in units of 250 ms. -/
  period : Nat
  /-- Authority list (R137). -/
  authorities : List Nat
  /-- Duress scope (R140). -/
  scope : Scope
  /-- Class 4 sources are auto-restored (R158). -/
  autoRestore4 : Bool
  /-- Passback is SOFT (R104). -/
  softPassback : Bool
  /-- Abort mode (R60). -/
  abortMode : AbortMode
  /-- Start posture (R136). -/
  startPosture : Posture
  /-- Door A's modes, by posture. -/
  modesA : Vector ModeEntry 5
  /-- Door B's modes, by posture. -/
  modesB : Vector ModeEntry 5
  /-- Tr. -/
  tr : Nat
  /-- Th. -/
  th : Nat
  /-- Tp. -/
  tp : Nat
  /-- The four detector lines. -/
  lines : Vector LineCfg 4
  /-- Ko. -/
  ko : Nat
  /-- Tc. -/
  tc : Nat
  /-- Tpd. -/
  tpd : Nat
  /-- Tman. -/
  tman : Nat
  /-- Tx. -/
  tx : Nat
  /-- Tab. -/
  tab : Nat
  /-- Dv. -/
  dv : Nat
  /-- Pv. -/
  pv : Nat
  /-- Tf. -/
  tf : Nat
  /-- Ts. -/
  ts : Nat
  /-- The twelve output lines. -/
  outputs : Vector OutputCfg 12
  /-- Lockdown flags, by source number (R140). -/
  lockdown : Vector Bool 32
deriving DecidableEq, Repr

/-- A mode entry with nothing in it. -/
def ModeEntry.blank : ModeEntry := { mode := .free, minClass := 0, floor := 0 }

/-- The fields a block reads while no image is loaded; no rule depends on one then (R192). -/
def Image.blank : Image where
  address := 0
  role := .noArea
  area := 0
  members := []
  externalRef := false
  twoDoors := false
  rate := 0
  period := 16
  authorities := []
  scope := .off
  autoRestore4 := false
  softPassback := false
  abortMode := .resume
  startPosture := .opened
  modesA := Vector.replicate 5 ModeEntry.blank
  modesB := Vector.replicate 5 ModeEntry.blank
  tr := 0
  th := 0
  tp := 0
  lines := Vector.replicate 4 { enable := false, group := .g1, v := 0, wt := 0, at_ := 0, qt := 0 }
  ko := 0
  tc := 0
  tpd := 0
  tman := 0
  tx := 0
  tab := 0
  dv := 0
  pv := 0
  tf := 0
  ts := 0
  outputs := Vector.replicate 12 { source := .noSource, threshold := 0, activeHigh := true }
  lockdown := Vector.replicate 32 false

/-- Byte `i` of an image; nothing is read past its end. -/
def imgByte (m : Vector Byte 96) (i : Nat) : Nat := (m.toList.getD i 0).toNat

/-- A two-byte field, high byte first (R194). -/
def imgWord (m : Vector Byte 96) (i : Nat) : Nat := 256 * imgByte m i + imgByte m (i + 1)

/-- Bits `hi` to `lo` of a byte. -/
def bitField (n hi lo : Nat) : Nat := n / 2 ^ lo % 2 ^ (hi - lo + 1)

/-- Byte 1's role code is NONE. -/
def imgNoArea (m : Vector Byte 96) : Bool := bitField (imgByte m 1) 7 6 == 0

/-- The check of place `i` of an address list that begins at byte `base` (R194): empty, or 1 to 48, not after an empty
place and not a repeat. -/
def placeOk (m : Vector Byte 96) (base i : Nat) : Bool :=
  imgByte m i == 0 ||
    (imgByte m i ≤ 48 &&
      ((List.range' base (i - base)).all (fun j => imgByte m j != 0 && imgByte m j != imgByte m i)))

/-- The two nibbles of an output source byte: bit 3 the active level, bits 2 to 0 the source; the line's threshold is
within the source's range (R194). -/
def outputOk (m : Vector Byte 96) (line nibble : Nat) : Bool :=
  match OutSource.ofNat? (nibble % 8) with
  | some src => imgByte m (66 + line) ≤ src.top
  | none => false

/-- The checks reported at byte `i` (R194): its own field's range, and the checks whose last byte it is. -/
def imageByteOk (m : Vector Byte 96) (i : Nat) : Bool :=
  let b := imgByte m i
  if i = 0 then decide (1 ≤ b ∧ b ≤ 48)
  else if i = 1 then
    bitField b 5 4 == 0 && bitField b 7 6 ≤ 2 && ((bitField b 7 6 == 0) == (bitField b 3 0 == 0))
  else if i < 5 then
    placeOk m 2 i && (b == 0 || (b != imgByte m 0 && !imgNoArea m)) &&
      !(i == 2 && bitField (imgByte m 1) 7 6 == 1 && b == 0)
  else if i = 5 then bitField b 6 5 == 0 && bitField b 3 2 == 0 && bitField b 1 0 ≤ 2
  else if i = 6 then decide (1 ≤ b ∧ b ≤ 16)
  else if i < 11 then placeOk m 7 i
  else if i = 11 then bitField b 7 6 ≤ 2 && bitField b 3 2 ≤ 2
  else if i < 22 then bitField b 7 7 == 0 && bitField b 3 3 == 0 && bitField b 2 0 ≤ 5
  else if i < 27 then bitField b 7 7 == 0 && bitField b 3 3 == 0
  else if i = 27 then decide (3 ≤ b ∧ b ≤ 30)
  else if i = 28 then true
  else if i = 29 then decide (10 ≤ imgWord m 28 ∧ imgWord m 28 ≤ 300)
  else if i = 30 then decide (5 ≤ b ∧ b ≤ 120)
  else if i < 51 then
    match (i - 31) % 5 with
    | 0 => bitField b 6 5 == 0 && bitField b 3 3 == 0 && 1 ≤ bitField b 2 0
    | 1 => b ≤ 249
    | 2 => b ≤ 250 && imgByte m (i - 1) + 1 ≤ b
    | 3 => true
    | _ => imgWord m (i - 1) == 0 || (16 ≤ imgWord m (i - 1) && imgWord m (i - 1) ≤ 4000)
  else if i = 51 then decide (b ≤ 50)
  else if i = 52 then true
  else if i = 53 then decide (10 ≤ imgWord m 52 ∧ imgWord m 52 ≤ 300)
  else if i = 54 then decide (10 ≤ b ∧ b ≤ 120)
  else if i = 55 then decide (b ≤ imgByte m 54)
  else if i = 56 then decide (b ≤ 60)
  else if i = 57 then true
  else if i = 58 then decide (30 ≤ imgWord m 57 ∧ imgWord m 57 ≤ 600)
  else if i = 59 then true
  else if i = 60 then decide (imgWord m 59 ≤ 2000)
  else if i = 61 then true
  else if i = 62 then decide (200 ≤ imgWord m 61 ∧ imgWord m 61 ≤ 5000)
  else if i = 63 then decide (2 ≤ b ∧ b ≤ 30)
  else if i = 64 then true
  else if i = 65 then decide (60 ≤ imgWord m 64 ∧ imgWord m 64 ≤ 3600)
  else if i < 78 then true
  else if i < 84 then outputOk m (2 * (i - 78)) (b / 16) && outputOk m (2 * (i - 78) + 1) (b % 16)
  else if i < 88 then true
  else b == 0

/-- The stored CRC (bytes 94 and 95) matches bytes 0 to 93 (R193). -/
def imageCrcOk (m : Vector Byte 96) : Bool :=
  crc16 (bitsOfBytes (m.toList.take 94)) == BitVec.ofNat 16 (imgWord m 94)

/-- The result of the load: the CRC first, then the first byte whose check fails (R193, R194). -/
def imageCheck (m : Vector Byte 96) : LoadResult :=
  if imageCrcOk m then
    match (List.range 94).find? (fun i => !imageByteOk m i) with
    | some i => .range i
    | none => .ok
  else .crc

/-- The filled places of an address list (R194). -/
def imgList (m : Vector Byte 96) (base n : Nat) : List Nat :=
  ((List.range' base n).map (imgByte m)).filter (· != 0)

/-- The mode entry of place `k` (door A 0 to 4, door B 5 to 9), with its floor from bytes 22 to 26 (R194). -/
def imgMode (m : Vector Byte 96) (k : Nat) : ModeEntry where
  mode := (Mode.ofNat? (bitField (imgByte m (12 + k)) 2 0)).getD .barred
  minClass := bitField (imgByte m (12 + k)) 6 4
  floor := if k % 2 = 0 then bitField (imgByte m (22 + k / 2)) 6 4 else bitField (imgByte m (22 + k / 2)) 2 0

/-- A detector line's five bytes (R194). -/
def imgLine (m : Vector Byte 96) (l : Nat) : LineCfg where
  enable := byteBit (byteOf (imgByte m (31 + 5 * l))) 7
  group := if byteBit (byteOf (imgByte m (31 + 5 * l))) 4 then .g2 else .g1
  v := bitField (imgByte m (31 + 5 * l)) 2 0
  wt := imgByte m (32 + 5 * l)
  at_ := imgByte m (33 + 5 * l)
  qt := imgWord m (34 + 5 * l)

/-- An output line's threshold byte and source nibble; the even line has bits 7 to 4 (R194). -/
def imgOutput (m : Vector Byte 96) (l : Nat) : OutputCfg :=
  let nibble := if l % 2 = 0 then imgByte m (78 + l / 2) / 16 else imgByte m (78 + l / 2) % 16
  { source := (OutSource.ofNat? (nibble % 8)).getD .noSource, threshold := imgByte m (66 + l)
    activeHigh := nibble / 8 == 1 }

/-- The fields of an image that passes its check (R194). -/
def imageOf (m : Vector Byte 96) : Image where
  address := imgByte m 0
  role := (Role.ofNat? (bitField (imgByte m 1) 7 6)).getD .noArea
  area := bitField (imgByte m 1) 3 0
  members := imgList m 2 3
  externalRef := bitField (imgByte m 5) 7 7 == 1
  twoDoors := bitField (imgByte m 5) 4 4 == 1
  rate := bitField (imgByte m 5) 1 0
  period := imgByte m 6
  authorities := imgList m 7 4
  scope := match bitField (imgByte m 11) 7 6 with
    | 0 => .off
    | 1 => .sameArea
    | _ => .all
  autoRestore4 := bitField (imgByte m 11) 5 5 == 1
  softPassback := bitField (imgByte m 11) 4 4 == 1
  abortMode := match bitField (imgByte m 11) 3 2 with
    | 0 => .resume
    | 1 => .restart
    | _ => .extend
  startPosture := (Posture.ofNat? (bitField (imgByte m 11) 1 0)).getD .opened
  modesA := Vector.ofFn (fun k : Fin 5 => imgMode m k.val)
  modesB := Vector.ofFn (fun k : Fin 5 => imgMode m (5 + k.val))
  tr := imgByte m 27
  th := imgWord m 28
  tp := imgByte m 30
  lines := Vector.ofFn (fun l : Fin 4 => imgLine m l.val)
  ko := imgByte m 51
  tc := imgWord m 52
  tpd := imgByte m 54
  tman := imgByte m 55
  tx := imgByte m 56
  tab := imgWord m 57
  dv := imgWord m 59
  pv := imgWord m 61
  tf := imgByte m 63
  ts := imgWord m 64
  outputs := Vector.ofFn (fun l : Fin 12 => imgOutput m l.val)
  lockdown := Vector.ofFn (fun k : Fin 32 => bitField (imgByte m (84 + k.val / 8)) (k.val % 8) (k.val % 8) == 1)

end Sys2Proof.Machine
end

