-- ==== Sys2Proof/Machine/Parts.lean ====
section
/-! DEFINITION. The state of each of the eleven blocks (00_scope, "Block diagram") and its value after reset. A timer is
`none` when stopped and `some t` when it runs and expires at time `t` of the time base, in microseconds. -/

namespace Sys2Proof.Machine

/-- The inputs that are filtered (R53, R80, R156). -/
inductive Input where
  | dca
  | dcb
  | rexA
  | rexB
  | abort
  | manrel
  | flow
  | dur1
  | dur2
  | tamper
deriving DecidableEq, Repr

/-- The place of an input's filter. -/
def Input.num : Input → Fin 10
  | .dca => 0
  | .dcb => 1
  | .rexA => 2
  | .rexB => 3
  | .abort => 4
  | .manrel => 5
  | .flow => 6
  | .dur1 => 7
  | .dur2 => 8
  | .tamper => 9

/-- The levels of the station's inputs and the filters of those that are filtered. The level of a filtered input is the
one last taken (R80); while its filter runs the pin has the other. -/
structure Pins where
  /-- DET0 to DET3 are high. -/
  det : Vector Bool 4
  /-- DCA is open. -/
  dcaOpen : Bool
  /-- DCB is open. -/
  dcbOpen : Bool
  /-- REXA is made. -/
  rexA : Bool
  /-- REXB is made. -/
  rexB : Bool
  /-- ABORT is made. -/
  abort : Bool
  /-- MANREL is made. -/
  manrel : Bool
  /-- FLOW is made. -/
  flow : Bool
  /-- VSUP reads the valve circuit open. -/
  vsupOpen : Bool
  /-- DUR1 is made. -/
  dur1 : Bool
  /-- DUR2 is made. -/
  dur2 : Bool
  /-- The tamper loop is open. -/
  tamperOpen : Bool
  /-- GS0 to GS11 are high. -/
  sense : Vector Bool 12
  /-- The 20 ms filter of each filtered input, running while the pin differs from the level taken (R80). -/
  filters : Vector (Option Nat) 10
deriving DecidableEq, Repr

/-- The levels State.reset supposes (DESIGN CHOICE, log entry 3): contacts and loops closed, buttons broken, lines low; no pin differs
from its level as taken, so no filter runs. -/
def Pins.reset : Pins where
  det := Vector.replicate 4 false
  dcaOpen := false
  dcbOpen := false
  rexA := false
  rexB := false
  abort := false
  manrel := false
  flow := false
  vsupOpen := false
  dur1 := false
  dur2 := false
  tamperOpen := false
  sense := Vector.replicate 12 false
  filters := Vector.replicate 10 none

/-- The Start-up and Time Base block (chapter 12). -/
structure Startup where
  /-- The start phase. -/
  phase : Phase
  /-- The clock source in use. -/
  clock : ClockSource
  /-- The stabilisation count (R196). -/
  stable : Nat
  /-- The cold-start flag (R192). -/
  coldStart : Bool
  /-- The load result (R194). -/
  loadResult : LoadResult
  /-- The CLOCK_FALLBACK condition, true until reset once it is (R196, R197). -/
  fallback : Bool
  /-- The 1 ms of INIT. -/
  initTimer : Option Nat
  /-- The 50 ms limit timer. -/
  limit : Option Nat
  /-- The join timer. -/
  join : Option Nat
deriving DecidableEq, Repr

/-- A pulse in progress on a detector line. -/
structure Pulse where
  /-- The time of its rising edge. -/
  rise : Nat
  /-- Its period in ms, absent at the first rising edge after LOAD (R2). -/
  period : Option Nat
deriving DecidableEq, Repr

/-- A line channel of the Detection Unit (R22). The mark in the alarm mask is set while the stage is ALARM (R17). -/
structure Line where
  /-- The stage. -/
  stage : LineStage
  /-- The fault kind. -/
  fault : FaultKind
  /-- Consecutive short discards. -/
  shortRun : Nat
  /-- Consecutive noise discards. -/
  noiseRun : Nat
  /-- Consecutive valid pulses in fault. -/
  clearing : Nat
  /-- Entries into fault since reset. -/
  entries : Nat
  /-- The ring is to be refilled. -/
  refill : Bool
  /-- The line has been seeded. -/
  seeded : Bool
  /-- S, in sixteenths. -/
  smooth : Nat
  /-- L. -/
  level : Nat
  /-- Q. -/
  rise : Int
  /-- c. -/
  count : Nat
  /-- The rate ring, oldest first. -/
  ring : List Nat
  /-- W of the last ended pulse. -/
  lastWidth : Nat
  /-- P of the last ended pulse, holding at 65535. -/
  lastPeriod : Nat
  /-- R of the last valid pulse. -/
  lastReading : Nat
  /-- At'. -/
  effAlarm : Nat
  /-- The stuck timer (R6). -/
  stuck : Option Nat
  /-- The open timer (R7). -/
  openTimer : Option Nat
  /-- The pulse in progress (R2). -/
  pulse : Option Pulse
  /-- The last rising edge since the end of LOAD (R2). -/
  lastRise : Option Nat
deriving DecidableEq, Repr

/-- R22: a line after reset. -/
def Line.reset : Line where
  stage := .quiet
  fault := .noFault
  shortRun := 0
  noiseRun := 0
  clearing := 0
  entries := 0
  refill := false
  seeded := false
  smooth := 0
  level := 0
  rise := 0
  count := 0
  ring := List.replicate 8 0
  lastWidth := 0
  lastPeriod := 0
  lastReading := 0
  effAlarm := 0
  stuck := none
  openTimer := none
  pulse := none
  lastRise := none

/-- An entry of the peer table (R23). -/
structure Peer where
  /-- Presence. -/
  presence : Presence
  /-- Last-heard time. -/
  lastHeard : Nat
  /-- Status heard. -/
  statusHeard : Bool
  /-- The silence timer (R26). -/
  silence : Option Nat
  /-- The announced fields, the advertised period among them. -/
  said : Announcement
deriving DecidableEq, Repr

/-- R23: a peer entry after reset. R23 states no last-heard time there: it is 0 (DESIGN CHOICE, log entry 2). -/
def Peer.reset : Peer where
  presence := .neverHeard
  lastHeard := 0
  statusHeard := false
  silence := none
  said := Announcement.reset

/-- An entry of the coincidence list (section 3.2). -/
structure Detection where
  /-- The station whose line is in alarm. -/
  station : Nat
  /-- The line. -/
  line : Fin 4
  /-- The line's group. -/
  group : Group
  /-- When it arrived, or was last refreshed. -/
  arrival : Nat
  /-- It took part in meeting coincidence (R46). -/
  consumed : Bool
  /-- The window timer; a consumed entry has none. -/
  window : Option Nat
deriving DecidableEq, Repr

/-- A member's mirror of its release station (R72). -/
structure Mirror where
  /-- The mirrored stage. -/
  stage : Stage
  /-- The mirrored remaining, in microseconds, as it stood at `setAt`. -/
  remaining : Nat
  /-- When the mirror was last set. -/
  setAt : Nat
  /-- The mirrored flow confirmed flag. -/
  flow : Bool
  /-- Arrival of the last notice taken. -/
  lastNotice : Option Nat
deriving DecidableEq, Repr

/-- R72: the mirror after reset. -/
def Mirror.reset : Mirror where
  stage := .normal
  remaining := 0
  setAt := 0
  flow := false
  lastNotice := none

/-- The Suppression Sequencer (R39, R52, R72). -/
structure Sequencer where
  /-- The coincidence list, oldest arrival first. -/
  list : List Detection
  /-- The coincidence latch (R46). -/
  latch : Bool
  /-- The own stage. -/
  stage : Stage
  /-- When the countdown expires; running in COUNTDOWN only. -/
  countdown : Option Nat
  /-- Remaining in microseconds while HELD; 0 in every other stage. -/
  frozen : Nat
  /-- The abort set, by arrival. -/
  abortSet : List Nat
  /-- The abort stuck timer. -/
  abortStuck : Option Nat
  /-- Area occupied, as last handed on by the Peer View. -/
  occupied : Bool
  /-- The valve delay timer. -/
  valveDelay : Option Nat
  /-- The valve pulse timer. -/
  valvePulse : Option Nat
  /-- The VALVE output is energised. -/
  valve : Bool
  /-- The flow wait timer. -/
  flowWait : Option Nat
  /-- Flow confirmed. -/
  flowConfirmed : Bool
  /-- The soak timer. -/
  soak : Option Nat
  /-- The notice timer. -/
  notice : Option Nat
  /-- The cadence phase; SOUND is energised in ON (R74). -/
  cadence : Cadence
  /-- The pattern the cadence slave plays. -/
  pattern : Pattern
  /-- The end of the present ON or GAP phase. -/
  phaseEnd : Option Nat
  /-- The mirror, at a member. -/
  mirror : Mirror
deriving DecidableEq, Repr

/-- R39, R52, R72: the Sequencer after reset. -/
def Sequencer.reset : Sequencer where
  list := []
  latch := false
  stage := .normal
  countdown := none
  frozen := 0
  abortSet := []
  abortStuck := none
  occupied := true
  valveDelay := none
  valvePulse := none
  valve := false
  flowWait := none
  flowConfirmed := false
  soak := none
  notice := none
  cadence := .off
  pattern := .off
  phaseEnd := none
  mirror := Mirror.reset

/-- A holder named by a passage credit (R82). -/
structure Holder where
  /-- Holder id, 1 to 65535. -/
  id : Nat
  /-- Holder class, 0 to 7. -/
  cls : Nat
  /-- Admitted as an escortee (R106). -/
  escorted : Bool
  /-- Admitted as an escort (R106). -/
  escortCapable : Bool
deriving DecidableEq, Repr

/-- A passage credit (R82); its direction is that of its kind. -/
structure Credit where
  /-- ENTRY, EGRESS or EXIT_REQUEST. -/
  kind : CreditKind
  /-- Whom it admits, in order. -/
  holders : List Holder
  /-- When the door was released under it. -/
  granted : Nat
deriving DecidableEq, Repr

/-- An interlock-pending request (R90). -/
structure PendingRequest where
  /-- The waiting credit. -/
  credit : Credit
  /-- The request order (R79). -/
  order : BitVec 16
  /-- The request time. -/
  since : Nat
  /-- When the wait timer expires. -/
  wait : Nat
deriving DecidableEq, Repr

/-- A door machine (R79). -/
structure Door where
  /-- The state. -/
  state : DoorState
  /-- Absent (door B of a one-door station). -/
  absent : Bool
  /-- Contact as taken is open. -/
  contactOpen : Bool
  /-- Request-to-exit as taken is made. -/
  rex : Bool
  /-- The strike output is on. -/
  strike : Bool
  /-- The release window timer. -/
  window : Option Nat
  /-- The held timer. -/
  heldTimer : Option Nat
  /-- The passage credit. -/
  credit : Option Credit
  /-- The interlock-pending request. -/
  request : Option PendingRequest
  /-- The last pending outcome. -/
  lastPending : PendingOutcome
  /-- Lockout as held. -/
  lockout : Bool
deriving DecidableEq, Repr

/-- R79: a door after reset. -/
def Door.reset : Door where
  state := .secure
  absent := false
  contactOpen := false
  rex := false
  strike := false
  window := none
  heldTimer := none
  credit := none
  request := none
  lastPending := .noOutcome
  lockout := false

/-- The Door Controller: two doors and the request order counter (R79). -/
structure DoorCtl where
  /-- Door A. -/
  a : Door
  /-- Door B. -/
  b : Door
  /-- The request order counter, 0 to 65535. -/
  counter : BitVec 16
deriving DecidableEq, Repr

/-- A pair reservation (R107). -/
structure Reservation where
  /-- The reserving holder. -/
  holder : Nat
  /-- That holder's class as presented. -/
  cls : Nat
  /-- The tag, 1 to 255. -/
  tag : Nat
  /-- When it was made. -/
  start : Nat
  /-- When its pair window expires. -/
  window : Nat
deriving DecidableEq, Repr

/-- The Entry Rules Unit (R99); the door mode table is the image's. -/
structure EntryUnit where
  /-- Door A's reservation, with its pair window timer. -/
  resA : Option Reservation
  /-- Door B's reservation, with its pair window timer. -/
  resB : Option Reservation
  /-- The tag counter: the tag the next reservation takes. -/
  tag : Nat
  /-- Door A's previous broken mark. -/
  brokenA : Bool
  /-- Door B's previous broken mark. -/
  brokenB : Bool
  /-- The last pair outcome. -/
  outcome : Option PairOutcome
deriving DecidableEq, Repr

/-- R99: the Entry Rules Unit after reset. -/
def EntryUnit.reset : EntryUnit where
  resA := none
  resB := none
  tag := 1
  brokenA := false
  brokenB := false
  outcome := none

/-- An entry of the roster (R122). -/
structure RosterEntry where
  /-- Who is recorded as inside, with class and flags. -/
  holder : Holder
  /-- Entry time, in whole seconds since the end of LOAD. -/
  time : Nat
deriving DecidableEq, Repr

/-- The Occupancy Roster (R122). -/
structure Roster where
  /-- The entries, oldest first. -/
  entries : List RosterEntry
  /-- The doubtful flag. -/
  doubtful : Bool
  /-- The doubt cause. -/
  cause : DoubtCause
deriving DecidableEq, Repr

/-- R122: the roster after reset, doubtful with cause RESTART. -/
def Roster.reset : Roster := { entries := [], doubtful := true, cause := .restart }

/-- The posture view (R136). -/
structure PostureView where
  /-- The posture. -/
  posture : Posture
  /-- The epoch. -/
  epoch : Byte
  /-- The station it was last taken from, 0 for none. -/
  source : Nat
deriving DecidableEq, Repr

/-- A general output line (R143); source, threshold and active level are the image's. -/
structure OutLine where
  /-- The driven level is HIGH. -/
  driven : Bool
  /-- The forced level, when forced. -/
  forced : Option Bool
  /-- The mismatch timer. -/
  mismatch : Option Nat
  /-- The fault mark. -/
  mark : Bool
deriving DecidableEq, Repr

/-- R143: an output line after reset. -/
def OutLine.reset : OutLine := { driven := false, forced := none, mismatch := none, mark := false }

/-- The Posture and Output Unit (R136, R143); the overlay follows from the sources and the remote list (R140). -/
structure PostureUnit where
  /-- The posture view. -/
  view : PostureView
  /-- The effective posture, as last handed on (R141). -/
  effective : Posture
  /-- The twelve general output lines. -/
  outputs : Vector OutLine 12
deriving DecidableEq, Repr

/-- R136, R143: the unit after reset. -/
def PostureUnit.reset : PostureUnit where
  view := { posture := .opened, epoch := 0, source := 0 }
  effective := .opened
  outputs := Vector.replicate 12 OutLine.reset

/-- A source's state (R151); the lockdown flag is the image's, and the default until LOAD ends. -/
structure SourceState where
  /-- Pending. -/
  pending : Bool
  /-- In-service. -/
  inService : Bool
  /-- Masked. -/
  masked : Bool
  /-- Settled (R154). -/
  settled : Bool
  /-- Raised time, in whole seconds since the end of LOAD. -/
  raised : Nat
  /-- The condition as last handed over; level sources only. -/
  condition : Bool
deriving DecidableEq, Repr

/-- R151: a source after reset. -/
def SourceState.reset : SourceState where
  pending := false
  inService := false
  masked := false
  settled := false
  raised := 0
  condition := false

/-- An entry of the remote alarm list (R166). -/
structure RemoteEntry where
  /-- The station. -/
  station : Nat
  /-- DURESS or FIRST_ALARM. -/
  kind : RemoteKind
  /-- Arrival, in whole seconds since the end of LOAD. -/
  arrival : Nat
  /-- Acknowledged. -/
  acked : Bool
deriving DecidableEq, Repr

/-- The Alarm Annunciator (R151, R158, R166). -/
structure Annunciator where
  /-- The source table, by number; PEER_DURESS has no pending or in-service of its own (R155). -/
  sources : Vector SourceState 32
  /-- The rotation order of each class. -/
  rotation : Vector (List Source) 6
  /-- The remote alarm list, oldest first. -/
  remote : List RemoteEntry
  /-- The overflow mark. -/
  overflow : Bool
deriving DecidableEq, Repr

/-- R151: the Annunciator after reset. -/
def Annunciator.reset : Annunciator where
  sources := Vector.replicate 32 SourceState.reset
  rotation := Vector.ofFn classOrder
  remote := []
  overflow := false

/-- An entry of the transmit queue (R172). -/
structure QueueEntry where
  /-- The frame. -/
  frame : Frame
  /-- Its enqueue order. -/
  order : Nat
deriving DecidableEq, Repr

/-- The Zone Bus Controller (R172, R176, R178, R180, R181). -/
structure Bus where
  /-- The transmit queue, the head first. -/
  queue : List QueueEntry
  /-- The next enqueue order. -/
  nextOrder : Nat
  /-- The frame in flight. -/
  inFlight : Option QueueEntry
  /-- The abandonment count. -/
  abandoned : Nat
  /-- The quiet spell, with its end. -/
  quiet : Option Nat
  /-- The bus is stuck. -/
  stuck : Bool
  /-- Recessive bits read in a row since the last dominant bit, holding at 11: the bus is idle (R169). -/
  recessive : Nat
  /-- Listen-only. -/
  listenOnly : Bool
  /-- The first-status delay. -/
  firstStatus : Option Nat
  /-- The status timer. -/
  statusTimer : Option Nat
  /-- The first STATUS has been made (R181). -/
  announcing : Bool
  /-- MODEL's own: the announced fields when they were last evaluated; a difference asks for a superseding STATUS. -/
  announced : Announcement
deriving DecidableEq, Repr

/-- R172: the Zone Bus Controller after reset; R169: the bus is taken as not idle. -/
def Bus.reset : Bus where
  queue := []
  nextOrder := 0
  inFlight := none
  abandoned := 0
  quiet := none
  stuck := false
  recessive := 0
  listenOnly := false
  firstStatus := none
  statusTimer := none
  announcing := false
  announced := Announcement.reset

/-- The six values of a time snapshot with their running marks (R190). -/
structure Snapshot where
  /-- Bits 0 to 5 of the status byte. -/
  running : Nat
  /-- Countdown remaining, ms. -/
  countdown : Nat
  /-- Soak remaining, s. -/
  soak : Nat
  /-- Door A timer, ms. -/
  doorA : Nat
  /-- Door B timer, ms. -/
  doorB : Nat
  /-- Pair window A, ms. -/
  pairA : Nat
  /-- Pair window B, ms. -/
  pairB : Nat
deriving DecidableEq, Repr

/-- The Panel Port (R183). READY is asserted in REPLY. -/
structure Port where
  /-- The port state. -/
  state : PortState
  /-- The command in progress: code and parameters. -/
  progress : Option (Nat × List Byte)
  /-- The reply buffer. -/
  reply : Option (List Byte)
  /-- The overrun mark. -/
  overrun : Bool
  /-- The time snapshot. -/
  snapshot : Option Snapshot
  /-- The bytes PSDO sent in the last panel frame (R184). -/
  psdo : List Byte
deriving DecidableEq, Repr

/-- R183: the port after reset. -/
def Port.reset : Port where
  state := .idle
  progress := none
  reply := none
  overrun := false
  snapshot := none
  psdo := []

end Sys2Proof.Machine
end

