-- ==== Sys2Proof/Machine/State.lean ====
section
/-! DEFINITION. The state of the station, the reasons a step can stop, and the state after reset. -/

namespace Sys2Proof.Machine

/-- Faults. The manual gives every command an effect in every state, so no command of this block faults and the type
has no constructor. -/
inductive Fault where
deriving DecidableEq, Repr

/-- Refusals. -/
inductive Refusal where
  /-- Raised by exec for a command that has no meaning yet; no arm of exec raises it. Safe: the model stops. -/
  | notModelled (mnemonic : String)
deriving DecidableEq, Repr

/-- The station: the eleven blocks, the input levels, the time base, and the queue of commands that wait. -/
structure State where
  /-- The time base, in microseconds since it started. -/
  now : Nat
  /-- When LOAD ended. -/
  loadEnd : Nat
  /-- The levels of the inputs. -/
  pins : Pins
  /-- Start-up and Time Base. -/
  startup : Startup
  /-- The loaded image. -/
  image : Option Image
  /-- Detection Unit: the four lines. -/
  lines : Vector Line 4
  /-- Peer View: the entry of address `n` stands at index `n - 1`. -/
  peers : Vector Peer 48
  /-- Suppression Sequencer. -/
  seq : Sequencer
  /-- Door Controller. -/
  doors : DoorCtl
  /-- Entry Rules Unit. -/
  entry : EntryUnit
  /-- Occupancy Roster. -/
  roster : Roster
  /-- Posture and Output Unit. -/
  posture : PostureUnit
  /-- Alarm Annunciator. -/
  ann : Annunciator
  /-- Zone Bus Controller. -/
  bus : Bus
  /-- Panel Port. -/
  port : Port
  /-- MODEL's own: how many free values have been used (log entry 5). -/
  free : Nat
  /-- MODEL's own: the commands that wait, first in first out. -/
  pending : List Instr
deriving DecidableEq, Repr

/-- The station right after a power-on reset (R192), in INIT. The values the manual states no reset value for are named
in log entries 2, 3 and 5 (DESIGN CHOICE). -/
def State.reset : State where
  now := 0
  loadEnd := 0
  pins := Pins.reset
  startup := {
    phase := .init, clock := .internal, stable := 0, coldStart := true, loadResult := .ok, fallback := false
    initTimer := some Config.initTime, limit := none, join := none }
  image := none
  lines := Vector.replicate 4 Line.reset
  peers := Vector.replicate 48 Peer.reset
  seq := Sequencer.reset
  doors := { a := Door.reset, b := Door.reset, counter := 0 }
  entry := EntryUnit.reset
  roster := Roster.reset
  posture := PostureUnit.reset
  ann := Annunciator.reset
  bus := Bus.reset
  port := Port.reset
  free := 0
  pending := []

end Sys2Proof.Machine
end

