-- ==== Sys2Proof/Machine/Ops.lean ====
section
/-! DEFINITION. The named operations on the station's state that every block shares: time, the writing of one block's
state, and the reading of the image, a line, a peer, a door or a source. -/

namespace Sys2Proof.Machine

/-! ## Time -/

/-- `dt` microseconds of the time base pass. -/
def State.elapse (s : State) (dt : Nat) : State := { s with now := s.now + dt }

/-- The time base comes to at least `t`: a timer that expires at `t` is taken no earlier. DESIGN CHOICE (log
entry 9). -/
def State.reach (s : State) (t : Nat) : State := { s with now := max s.now t }

/-- Milliseconds left to the end `t` of a timer, rounded up. DESIGN CHOICE (log entry 19). -/
def msLeft (now t : Nat) : Nat := ceilDiv (t - now) 1000

/-- Seconds left to the end `t` of a timer, rounded up (R50, R67). -/
def secLeft (now t : Nat) : Nat := ceilDiv (t - now) 1000000

/-- An age in whole milliseconds, holding at 65535 (R35, R77, R97). That a part of a millisecond is dropped is a DESIGN
CHOICE (log entry 19). -/
def ageMs (now t : Nat) : Nat := min ((now - t) / 1000) 65535

/-- A time in whole seconds since the end of LOAD, rounded down; the range ends at 4294967295 (R122, R133, R151). -/
def State.seconds (s : State) (t : Nat) : Nat :=
  if (t - s.loadEnd) / 1000000 ≤ 4294967295 then (t - s.loadEnd) / 1000000
  else Config.secondsPastRange ((t - s.loadEnd) / 1000000)

/-- The present time in whole seconds since the end of LOAD. -/
def State.presentTime (s : State) : Nat := s.seconds s.now

/-! ## Writing one block -/

/-- The input levels become `x`. -/
def State.setPins (s : State) (x : Pins) : State := { s with pins := x }

/-- The start-up block becomes `x`. -/
def State.setStartup (s : State) (x : Startup) : State := { s with startup := x }

/-- The lines become `x`. -/
def State.setLines (s : State) (x : Vector Line 4) : State := { s with lines := x }

/-- The peer table becomes `x`. -/
def State.setPeers (s : State) (x : Vector Peer 48) : State := { s with peers := x }

/-- The Sequencer becomes `x`. -/
def State.setSeq (s : State) (x : Sequencer) : State := { s with seq := x }

/-- The Door Controller becomes `x`. -/
def State.setDoors (s : State) (x : DoorCtl) : State := { s with doors := x }

/-- The Entry Rules Unit becomes `x`. -/
def State.setEntry (s : State) (x : EntryUnit) : State := { s with entry := x }

/-- The roster becomes `x`. -/
def State.setRoster (s : State) (x : Roster) : State := { s with roster := x }

/-- The Posture and Output Unit becomes `x`. -/
def State.setPosture (s : State) (x : PostureUnit) : State := { s with posture := x }

/-- The Annunciator becomes `x`. -/
def State.setAnn (s : State) (x : Annunciator) : State := { s with ann := x }

/-- The Zone Bus Controller becomes `x`. -/
def State.setBus (s : State) (x : Bus) : State := { s with bus := x }

/-- The Panel Port becomes `x`. -/
def State.setPort (s : State) (x : Port) : State := { s with port := x }

/-! ## Filtered inputs -/

/-- The level of a filtered input as last taken: made, or open. -/
def Pins.level (p : Pins) : Input → Bool
  | .dca => p.dcaOpen
  | .dcb => p.dcbOpen
  | .rexA => p.rexA
  | .rexB => p.rexB
  | .abort => p.abort
  | .manrel => p.manrel
  | .flow => p.flow
  | .dur1 => p.dur1
  | .dur2 => p.dur2
  | .tamper => p.tamperOpen

/-- The level taken of a filtered input becomes `x`. -/
def Pins.setLevel (p : Pins) (i : Input) (x : Bool) : Pins :=
  match i with
  | .dca => { p with dcaOpen := x }
  | .dcb => { p with dcbOpen := x }
  | .rexA => { p with rexA := x }
  | .rexB => { p with rexB := x }
  | .abort => { p with abort := x }
  | .manrel => { p with manrel := x }
  | .flow => { p with flow := x }
  | .dur1 => { p with dur1 := x }
  | .dur2 => { p with dur2 := x }
  | .tamper => { p with tamperOpen := x }

/-- The filter of an input. -/
def Pins.filter (p : Pins) (i : Input) : Option Nat := p.filters[i.num]

/-- The filter of an input becomes `x`. -/
def Pins.setFilter (p : Pins) (i : Input) (x : Option Nat) : Pins := { p with filters := p.filters.set i.num x }

/-- The level at the pin itself. -/
def Pins.raw (p : Pins) (i : Input) : Bool := p.level i != (p.filter i).isSome

/-- A level is taken, and the filter is at rest. -/
def Pins.take (p : Pins) (i : Input) (x : Bool) : Pins := (p.setLevel i x).setFilter i none

/-- Every filtered input is taken as its pin stands (R53, R80, R156). -/
def Pins.standing (p : Pins) : Pins :=
  { p with
    dcaOpen := p.raw .dca, dcbOpen := p.raw .dcb, rexA := p.raw .rexA, rexB := p.raw .rexB, abort := p.raw .abort
    manrel := p.raw .manrel, flow := p.raw .flow, dur1 := p.raw .dur1, dur2 := p.raw .dur2
    tamperOpen := p.raw .tamper, filters := Vector.replicate 10 none }

/-! ## The start phase and the image -/

/-- The blocks run: the phase is CLOCK, JOIN or RUN (R192). -/
def State.running (s : State) : Bool :=
  match s.startup.phase with
  | .clock => true
  | .join => true
  | .run => true
  | .init => false
  | .load => false
  | .configFault => false

/-- The receiver delivers frames: JOIN and RUN (R192, R179). -/
def State.receiving (s : State) : Bool :=
  match s.startup.phase with
  | .join => true
  | .run => true
  | .clock => false
  | .init => false
  | .load => false
  | .configFault => false

/-- R169: `n` recessive bits in a row, and then these levels. -/
def recessiveRun (n : Nat) (levels : List Bool) : Nat :=
  levels.foldl (fun k recessive => if recessive then min (k + 1) Config.idleBits else 0) n

/-- R169, R192: levels are read on ZRX, where the receiver runs: all of them, by the phase at the last, DESIGN CHOICE (log
entry 39). -/
def State.hear (s : State) (levels : List Bool) : State :=
  if s.receiving then s.setBus { s.bus with recessive := recessiveRun s.bus.recessive levels } else s

/-- R169: the bus is idle. -/
def State.busIdle (s : State) : Bool := Config.idleBits ≤ s.bus.recessive

/-- The fields of the loaded image. -/
def State.img (s : State) : Image := s.image.getD Image.blank

/-- The own address. -/
def State.address (s : State) : Nat := s.img.address

/-- The role. -/
def State.role (s : State) : Role := s.img.role

/-- The own area. -/
def State.area (s : State) : Nat := s.img.area

/-- R27: an address is an area member because it is on the list. -/
def State.isMember (s : State) (address : Nat) : Bool := s.img.members.contains address

/-- R27: at a MEMBER, the first address of the area member list is the area's release station. -/
def State.releaseStation (s : State) : Option Nat :=
  match s.role with
  | .member => s.img.members.head?
  | .release => none
  | .noArea => none

/-! ## Lines, peers, doors, reservations, sources -/

/-- A detector line. -/
def State.line (s : State) (l : Fin 4) : Line := s.lines[l]

/-- A detector line becomes `x`. -/
def State.setLine (s : State) (l : Fin 4) (x : Line) : State := s.setLines (s.lines.set l x)

/-- A detector line's image fields. -/
def State.lineCfg (s : State) (l : Fin 4) : LineCfg := s.img.lines[l]

/-- The peer table's entry of an address; an address outside 1 to 48 has none, and reads as one never heard. -/
def State.peer (s : State) (address : Nat) : Peer :=
  if address = 0 then Peer.reset else (s.peers[address - 1]?).getD Peer.reset

/-- The entry of an address becomes `x`; nothing for an address outside 1 to 48. -/
def State.setPeer (s : State) (address : Nat) (x : Peer) : State :=
  if address = 0 then s else s.setPeers (s.peers.setIfInBounds (address - 1) x)

/-- A door. -/
def State.door (s : State) : DoorId → Door
  | .a => s.doors.a
  | .b => s.doors.b

/-- A door becomes `x`. -/
def State.setDoor (s : State) (d : DoorId) (x : Door) : State :=
  match d with
  | .a => s.setDoors { s.doors with a := x }
  | .b => s.setDoors { s.doors with b := x }

/-- The reservation at a door. -/
def State.reservation (s : State) : DoorId → Option Reservation
  | .a => s.entry.resA
  | .b => s.entry.resB

/-- The reservation at a door becomes `x`. -/
def State.setReservation (s : State) (d : DoorId) (x : Option Reservation) : State :=
  match d with
  | .a => s.setEntry { s.entry with resA := x }
  | .b => s.setEntry { s.entry with resB := x }

/-- The previous broken mark of a door (R114). -/
def State.broken (s : State) : DoorId → Bool
  | .a => s.entry.brokenA
  | .b => s.entry.brokenB

/-- The previous broken mark of a door becomes `x`. -/
def State.setBroken (s : State) (d : DoorId) (x : Bool) : State :=
  match d with
  | .a => s.setEntry { s.entry with brokenA := x }
  | .b => s.setEntry { s.entry with brokenB := x }

/-- The door mode table's entry for a door under a posture (R100). -/
def State.modeUnder (s : State) (d : DoorId) (p : Posture) : ModeEntry :=
  match d with
  | .a => s.img.modesA[p.index]
  | .b => s.img.modesB[p.index]

/-- The mode in force at a door: under the effective posture (R100). -/
def State.mode (s : State) (d : DoorId) : ModeEntry := s.modeUnder d s.posture.effective

/-- A source's state. -/
def State.source (s : State) (x : Source) : SourceState := s.ann.sources[x.num]

/-- A source's state becomes `y`. -/
def State.setSource (s : State) (x : Source) (y : SourceState) : State :=
  s.setAnn { s.ann with sources := s.ann.sources.set x.num y }

/-- An output line. -/
def State.output (s : State) (l : Fin 12) : OutLine := s.posture.outputs[l]

/-- An output line becomes `x`. -/
def State.setOutput (s : State) (l : Fin 12) (x : OutLine) : State :=
  s.setPosture { s.posture with outputs := s.posture.outputs.set l x }

end Sys2Proof.Machine
end

