-- ==== Sys2Proof/Machine/Operands.lean ====
section
/-! DEFINITION. The operands of a panel command: the parameter bytes of a command frame (R184) and the range checks of
each command (check 4 of R187, with the layouts of R188). A parser answers `none` where a check fails. -/

namespace Sys2Proof.Machine

/-- The length byte: a frame that ends after its code has length 0 (R184). -/
def declaredLength (rest : List Byte) : Nat := (rest.head?.map BitVec.toNat).getD 0

/-- The parameter bytes received; bytes after the last parameter are ignored (R184). -/
def parameters (rest : List Byte) : List Byte := (rest.drop 1).take (declaredLength rest)

/-- Check 3 of R187: the length is the command's, and a frame that ended early counts as wrong (R184). -/
def lengthOk (len : Nat) (rest : List Byte) : Bool :=
  declaredLength rest == len && (parameters rest).length == len

/-- A two-byte parameter, high byte first (R188). -/
def word2 (hi lo : Byte) : Nat := 256 * hi.toNat + lo.toNat

/-- 0 off or LOW, 1 on or HIGH (R188). -/
def onOff? : Nat → Option Bool
  | 0 => some false
  | 1 => some true
  | _ => none

/-- A door of this station: A, or B at a two-door station (R187). -/
def ownDoor? (s : State) (n : Nat) : Option DoorId :=
  match doorOfNat? n with
  | some .a => some .a
  | some .b => if s.img.twoDoors then some .b else none
  | none => none

/-- A number below a bound as an index. -/
def index? (bound n : Nat) : Option (Fin bound) := if h : n < bound then some ⟨n, h⟩ else none

/-- A command without parameters. -/
def noOperands (_ : State) : List Byte → Option Unit
  | [] => some ()
  | _ :: _ => none

/-- RESTORE_ALARM: a source, 0 to 31. -/
def sourceOperand (_ : State) : List Byte → Option Source
  | [b] => Source.ofNat? b.toNat
  | _ => none

/-- MASK_ALARM: a source and on or off. -/
def maskOperands (_ : State) : List Byte → Option (Source × Bool)
  | [b, m] =>
    match Source.ofNat? b.toNat, onOff? m.toNat with
    | some x, some on => some (x, on)
    | _, _ => none
  | _ => none

/-- What PRESENT_CREDENTIAL carries (section 6.2). -/
structure Presentation where
  /-- The door. -/
  door : DoorId
  /-- The side. -/
  side : Side
  /-- The holder id. -/
  id : Nat
  /-- The holder class. -/
  cls : Nat
  /-- The panel's verdict. -/
  verdict : Verdict
deriving DecidableEq, Repr

/-- PRESENT_CREDENTIAL (R101). -/
def presentOperands (s : State) : List Byte → Option Presentation
  | [d, side, h, l, c, v] =>
    match ownDoor? s d.toNat, sideOfNat? side.toNat, verdictOfNat? v.toNat with
    | some door, some side, some verdict =>
      if 1 ≤ word2 h l ∧ c.toNat ≤ 7 then
        some { door := door, side := side, id := word2 h l, cls := c.toNat, verdict := verdict }
      else none
    | _, _, _ => none
  | _ => none

/-- CONFIRM_REMOTE: the CONFIRM frame it asks for (R115). -/
def confirmOperands (s : State) : List Byte → Option Frame
  | [t, d, tag, h, l, c] =>
    if 1 ≤ t.toNat ∧ t.toNat ≤ 48 ∧ t.toNat ≠ s.address ∧ (doorOfNat? d.toNat).isSome ∧ 1 ≤ tag.toNat ∧
        1 ≤ word2 h l ∧ c.toNat ≤ 7 then
      some (.confirm t d tag (BitVec.ofNat 16 (word2 h l)) c)
    else none
  | _ => none

/-- SET_POSTURE: a posture, 0 to 4. -/
def postureOperand (_ : State) : List Byte → Option Posture
  | [b] => Posture.ofNat? b.toNat
  | _ => none

/-- RESET_DETECTION: one line, or all with 255 (`none`). -/
def linesOperand (_ : State) : List Byte → Option (Option (Fin 4))
  | [b] => if b.toNat = 255 then some none else (index? 4 b.toNat).map some
  | _ => none

/-- READ_DETECTOR: a line. -/
def lineOperand (_ : State) : List Byte → Option (Fin 4)
  | [b] => index? 4 b.toNat
  | _ => none

/-- SUPPRESSION_ISOLATE: on or off. -/
def onOffOperand (_ : State) : List Byte → Option Bool
  | [b] => onOff? b.toNat
  | _ => none

/-- FORCE_OUTPUT: an output line and a level. -/
def forceOperands (_ : State) : List Byte → Option (Fin 12 × Bool)
  | [l, v] =>
    match index? 12 l.toNat, onOff? v.toNat with
    | some line, some level => some (line, level)
    | _, _ => none
  | _ => none

/-- RELEASE_OUTPUT: an output line. -/
def outputOperand (_ : State) : List Byte → Option (Fin 12)
  | [b] => index? 12 b.toNat
  | _ => none

/-- READ_PEER: an address, 1 to 48. -/
def addressOperand (_ : State) : List Byte → Option Nat
  | [b] => if 1 ≤ b.toNat ∧ b.toNat ≤ 48 then some b.toNat else none
  | _ => none

end Sys2Proof.Machine
end

