-- ==== Sys2Proof/Machine/Flags.lean ====
section
/-! DEFINITION. The facts that follow from the state: the area's occupancy and stage, the conditions of the level
sources, alarm level, overlay and effective posture, the levels of the output lines, and the STATUS announcement. -/

namespace Sys2Proof.Machine

/-! ## Suppression -/

/-- The area stage: own at a release station, mirrored at a member, NORMAL with role NONE (R37, R77). -/
def State.stage (s : State) : Stage :=
  match s.role with
  | .release => s.seq.stage
  | .member => s.seq.mirror.stage
  | .noArea => .normal

/-- The stage ordinal (R77). -/
def State.ordinal (s : State) : Nat := s.stage.ordinal

/-- R52, R57: the own remaining in microseconds, which falls in COUNTDOWN and stands in HELD. -/
def State.ownRemaining (s : State) : Nat :=
  match s.seq.stage with
  | .countdown => s.seq.countdown.getD 0 - s.now
  | .held => s.seq.frozen
  | .normal => 0
  | .isolated => 0
  | .firstAlarm => 0
  | .inhibited => 0
  | .releasing => 0
  | .discharged => 0
  | .vented => 0

/-- R72: the mirrored remaining in microseconds, which falls in COUNTDOWN and stops at 0. -/
def State.mirrorRemaining (s : State) : Nat :=
  if s.seq.mirror.stage = .countdown then s.seq.mirror.remaining - (s.now - s.seq.mirror.setAt)
  else s.seq.mirror.remaining

/-- R77: the countdown remaining in ms, own or mirrored. -/
def State.countdownMs (s : State) : Nat :=
  match s.role with
  | .release => ceilDiv s.ownRemaining 1000
  | .member => ceilDiv s.mirrorRemaining 1000
  | .noArea => 0

/-- R67: the soak timer's remaining time in whole seconds rounded up, at a release station. -/
def State.soakSec (s : State) : Nat :=
  match s.role, s.seq.soak with
  | .release, some t => secLeft s.now t
  | _, _ => 0

/-- The list holds an entry of a group (R50). -/
def groupPresent (list : List Detection) (g : Group) : Bool := list.any (fun e => e.group == g)

/-- R45: coincidence is present while both groups are in the list, consumed or not. -/
def coincidencePresent (list : List Detection) : Bool := groupPresent list .g1 && groupPresent list .g2

/-- R75: the lockout stages have ordinal 3 to 8. -/
def State.lockoutStage (s : State) : Bool := 3 ≤ s.ordinal

/-! ## Peers and occupancy -/

/-- R28: the count of the area occupancy. -/
def State.areaCount (s : State) : Nat :=
  s.roster.entries.length +
    (s.img.members.map (fun m => if (s.peer m).presence = .live then (s.peer m).said.count else 0)).sum

/-- R28: area doubt. -/
def State.areaDoubt (s : State) : Bool :=
  s.roster.doubtful || s.img.members.any (fun m =>
    (s.peer m).presence != .live || (s.peer m).said.doubtful || !(s.peer m).statusHeard)

/-- R28: area occupied, in every start phase alike. A member that has not been heard keeps it set (R52, R78); once all
have been heard it is as R28 gives it, in JOIN too. DEDUCED (log entry 30). -/
def State.areaOccupied (s : State) : Bool := 0 < s.areaCount || s.areaDoubt

/-! ## Detector lines -/

/-- A mask with bit n set where `f n` holds. -/
def maskOf (f : Fin 4 → Bool) : BitVec 4 :=
  BitVec.ofNat 4 ((f 0).toNat + 2 * (f 1).toNat + 4 * (f 2).toNat + 8 * (f 3).toNat)

/-- R17: the detector alarm mask. -/
def State.alarmMask (s : State) : BitVec 4 := maskOf (fun l => (s.line l).stage == .alarm)

/-- R17: the detector group mask, set for group 2 (R171). -/
def State.groupMask (s : State) : BitVec 4 := maskOf (fun l => (s.lineCfg l).group == .g2)

/-- All four lines, for a test over them. -/
def allLines : List (Fin 4) := [0, 1, 2, 3]

/-- R13: the effective alarm level of a line under a posture. -/
def effectiveAlarm (c : LineCfg) (ko : Nat) (p : Posture) : Nat :=
  if p.isClosed then max (c.at_ - ko) (c.wt + 1) else c.at_

/-! ## The Annunciator -/

/-- R155: a DURESS entry. -/
def RemoteEntry.isDuress (e : RemoteEntry) : Bool := e.kind == .duress

/-- Pending, PEER_DURESS read from the remote list (R155). -/
def State.isPending (s : State) (x : Source) : Bool :=
  if x = .peerDuress then s.ann.remote.any (fun e => e.isDuress && !e.acked) else (s.source x).pending

/-- In-service, PEER_DURESS read from the remote list (R155). -/
def State.isInService (s : State) (x : Source) : Bool :=
  if x = .peerDuress then s.ann.remote.any (fun e => e.isDuress && e.acked) else (s.source x).inService

/-- Pending or in-service. -/
def State.isActive (s : State) (x : Source) : Bool := s.isPending x || s.isInService x

/-- The oldest unacknowledged DURESS entry of the remote list (R157). -/
def State.oldestDuress (s : State) : Option RemoteEntry := s.ann.remote.find? (fun e => e.isDuress && !e.acked)

/-- The raised time; for PEER_DURESS that of R155. -/
def State.raisedTime (s : State) (x : Source) : Nat :=
  if x = .peerDuress then (s.oldestDuress.map RemoteEntry.arrival).getD 0 else (s.source x).raised

/-- A candidate of NEXT_ALARM: pending and not masked (R157). -/
def State.isCandidate (s : State) (x : Source) : Bool := s.isPending x && !(s.source x).masked

/-- R162: the ALERT line. -/
def State.alert (s : State) : Bool := Source.all.any s.isCandidate

/-- R163: the alarm level. -/
def State.alarmLevel (s : State) : Nat :=
  Source.all.foldl (fun n x => if s.isActive x && !(s.source x).masked then max n (6 - x.cls.val) else n) 0

/-- R163: the duress-active flag. -/
def State.duressActive (s : State) : Bool := s.isActive .duress1 || s.isActive .duress2

/-- R151: the lockdown flag of a source: the default until LOAD ends, then the image's. -/
def State.lockdownFlag (s : State) (x : Source) : Bool :=
  match s.image with
  | some i => i.lockdown[x.num]
  | none => x == .duress1 || x == .duress2

/-- R168: the overlay's local request; PEER_DURESS is not counted. -/
def State.localRequest (s : State) : Bool :=
  Source.all.any (fun x => x != .peerDuress && s.lockdownFlag x && s.isActive x)

/-- R140: a remote alarm list entry counts for the overlay. -/
def State.inScope (s : State) (e : RemoteEntry) : Bool :=
  e.isDuress &&
    match s.img.scope with
    | .all => true
    | .sameArea => s.isMember e.station
    | .off => false

/-- R140: the lockdown overlay. -/
def State.overlay (s : State) : Bool := s.localRequest || s.ann.remote.any s.inScope

/-- R141: the effective posture as the view and the overlay now give it. -/
def State.effectiveNow (s : State) : Posture := if s.overlay then .lockdown else s.posture.view.posture

/-- R29, R49, R58, R68, R73, R76, R86, R17, R147, R176, R178, R180, R196, R197: the condition of a level source. -/
def State.levelCondition (s : State) : Source → Bool
  | .countdown => s.stage == .countdown || s.stage == .held
  | .abortHeld =>
    match s.role with
    | .release => !s.seq.abortSet.isEmpty
    | .member => s.pins.abort
    | .noArea => false
  | .firstAlarm => !s.seq.list.isEmpty
  | .doorAHeld => s.doors.a.state == .heldOpen
  | .doorBHeld => s.doors.b.state == .heldOpen
  | .inhibited => s.stage == .inhibited
  | .isolated => s.stage == .isolated
  | .detectorWatch => allLines.any (fun l => (s.lineCfg l).enable && (s.line l).stage == .watch)
  | .detectorFault => allLines.any (fun l => (s.lineCfg l).enable && (s.line l).fault != .noFault)
  | .releaseCircuit => s.role == .release && s.pins.vsupOpen
  | .peerSilent =>
    s.startup.phase == .run && s.role != .noArea && s.img.members.any (fun m => (s.peer m).presence != .live)
  | .releaseStationLost =>
    s.startup.phase == .run && s.releaseStation.any (fun m => (s.peer m).presence != .live)
  | .outputFault => s.posture.outputs.toList.any OutLine.mark
  | .busFault => s.bus.quiet.isSome || s.bus.stuck
  | .clockFallback => s.startup.fallback
  | .addressClash => s.bus.listenOnly
  | .discharge => false
  | .duress1 => false
  | .duress2 => false
  | .peerDuress => false
  | .releaseFailure => false
  | .doorAForced => false
  | .doorBForced => false
  | .escortLeft => false
  | .occupiedAtClose => false
  | .tamper => false
  | .rosterMismatch => false
  | .passback => false
  | .transmitOverrun => false
  | .abortStuck => false
  | .pairBroken => false
  | .manualRelease => false

/-! ## Output lines -/

/-- R144: the value of an output source. -/
def State.sourceValue (s : State) : OutSource → Nat
  | .noSource => 0
  | .effectivePosture => s.posture.effective.num
  | .stage => s.ordinal
  | .alarmLevel => s.alarmLevel
  | .areaOccupancy => if s.role = .noArea then s.roster.entries.length else s.areaCount

/-- R145: the level (HIGH) an unforced line takes. -/
def State.followLevel (s : State) (l : Fin 12) : Bool :=
  if s.img.outputs[l].source ≠ .noSource ∧ s.img.outputs[l].threshold ≤ s.sourceValue s.img.outputs[l].source then
    s.img.outputs[l].activeHigh
  else !s.img.outputs[l].activeHigh

/-- R145, R146: the level a line is driven to. -/
def State.driveLevel (s : State) (l : Fin 12) : Bool := (s.output l).forced.getD (s.followLevel l)

/-! ## Other outputs of the station -/

/-- R74: the SOUND output. -/
def State.sound (s : State) : Bool := s.seq.cadence == .on

/-- R75: the LAMP output, dark until the Sequencer runs (R52). -/
def State.lamp (s : State) : Bool := s.running && s.lockoutStage

/-- R183: the READY output. -/
def State.ready (s : State) : Bool := s.port.state == .reply

/-! ## STATUS -/

/-- R77: the abort-held flag; at a station with role NONE the ABORT input has no effect (R73). DEDUCED (log
entry 20). -/
def State.abortHeldFlag (s : State) : Bool := s.role != .noArea && s.pins.abort

/-- R171: what STATUS says, from the state as it stands. -/
def State.announcement (s : State) : Announcement where
  role := s.role
  area := s.area
  posture := s.posture.view.posture
  epoch := s.posture.view.epoch
  stage := s.stage
  doubtful := s.roster.doubtful
  count := s.roster.entries.length
  alarmMask := s.alarmMask
  groupMask := s.groupMask
  abortHeld := s.abortHeldFlag
  duressActive := s.duressActive
  alarmLevel := s.alarmLevel
  period := s.img.period
  outcome := s.entry.outcome

end Sys2Proof.Machine
end

