-- ==== Sys2Proof/Machine/Handoff.lean ====
section
/-! DEFINITION. The hand-offs every block uses: a frame to the transmit queue (R172, R173), a trigger or a condition to
the Annunciator (R153, R154), and a superseding STATUS (R181). -/

namespace Sys2Proof.Machine

/-! ## Sources -/

/-- R153: an edge source takes a trigger: pending becomes set, with a new raised time, where it was not pending. -/
def raise (x : Source) (s : State) : State :=
  if (s.source x).pending then s
  else s.setSource x { s.source x with pending := true, raised := s.presentTime }

/-- R154: a level source after a new condition, taken at a time in whole seconds. -/
def SourceState.take (c : Bool) (time : Nat) (y : SourceState) : SourceState :=
  if c then
    if y.pending || y.inService || y.settled then { y with condition := true }
    else { y with condition := true, pending := true, raised := time }
  else if y.pending then { y with condition := false, pending := false }
  else if y.inService then { y with condition := false }
  else { y with condition := false, settled := false }

/-- R154: a level source under a condition that may be the one it has. -/
def SourceState.follow (c : Bool) (time : Nat) (y : SourceState) : SourceState :=
  if c = y.condition then y else y.take c time

/-- R154: a level source takes a new condition. -/
def takeCondition (x : Source) (c : Bool) (s : State) : State :=
  s.setSource x ((s.source x).take c s.presentTime)

/-! ## The transmit queue -/

/-- `e` stands before `f` in the queue: more urgent, or as urgent and made earlier (R172). -/
def QueueEntry.before (e f : QueueEntry) : Bool :=
  e.frame.urgency < f.frame.urgency || (e.frame.urgency == f.frame.urgency && e.order < f.order)

/-- An entry placed by urgency and then by enqueue order (R172). -/
def placeEntry (e : QueueEntry) : List QueueEntry → List QueueEntry
  | [] => [e]
  | f :: q => if e.before f then e :: f :: q else f :: placeEntry e q

/-- A queued entry of a kind takes new content in place (R173). -/
def supersede (f : Frame) : List QueueEntry → List QueueEntry
  | [] => []
  | e :: q => if e.frame.kind == f.kind then { e with frame := f } :: q else e :: supersede f q

/-- A new entry (R173): placed while there is room; in a full queue the last entry, which is the newest of least
urgency, gives way when it is less urgent, and otherwise the entry is dropped. Answers the queue and whether a frame
was lost. -/
def makePlace (e : QueueEntry) (q : List QueueEntry) : List QueueEntry × Bool :=
  if q.length < Config.queueSize then (placeEntry e q, false)
  else
    match q.getLast? with
    | none => (q, true)
    | some last => if e.frame.urgency < last.frame.urgency then (placeEntry e q.dropLast, true) else (q, true)

/-- A frame is lost to a full queue: TRANSMIT_OVERRUN (R173). -/
def overrunIf (lost : Bool) (s : State) : State := if lost then raise .transmitOverrun s else s

/-- R173: a frame handed to the queue. -/
def enqueue (f : Frame) (s : State) : State :=
  if f.supersedes && s.bus.queue.any (fun e => e.frame.kind == f.kind) then
    s.setBus { s.bus with queue := supersede f s.bus.queue }
  else
    let r := makePlace { frame := f, order := s.bus.nextOrder } s.bus.queue
    overrunIf r.2 (s.setBus { s.bus with queue := r.1, nextOrder := s.bus.nextOrder + 1 })

/-- R181: a request for a superseding STATUS; before the first-status delay has expired it enqueues nothing. -/
def requestStatus (s : State) : State :=
  if s.bus.announcing then enqueue (.status s.announcement) s else s

/-! ## Triggers -/

/-- R164: the DURESS frame of a source. -/
def duressFrameOf (s : State) (x : Source) (active : Bool) : Frame :=
  .duress (byteOf x.num.val) active (BitVec.ofNat 4 s.area)

/-- R153, R164: a trigger. DURESS_1 or DURESS_2 becoming pending enqueues a DURESS frame. -/
def trigger (x : Source) (s : State) : State :=
  if (x = .duress1 ∨ x = .duress2) ∧ (s.source x).pending = false then
    enqueue (duressFrameOf s x true) (raise x s)
  else raise x s

/-! ## Reservations -/

/-- A door's reservation leaves its slot and its previous broken mark is set (R111, R112). -/
def breakAt (d : DoorId) (s : State) : State :=
  if (s.reservation d).isSome then (s.setReservation d none).setBroken d true else s

/-- R112: an event that breaks every intact reservation; PAIR_BROKEN is triggered once when it broke any. -/
def breakReservations (s : State) : State :=
  if s.entry.resA.isSome || s.entry.resB.isSome then trigger .pairBroken (breakAt .b (breakAt .a s)) else s

/-! ## Doubt -/

/-- R124, R126, R127: the doubtful flag becomes set; the cause is taken when it was clear. -/
def setDoubt (c : DoubtCause) (s : State) : State :=
  if s.roster.doubtful then s else s.setRoster { s.roster with doubtful := true, cause := c }

end Sys2Proof.Machine
end

