-- ==== Sys2Proof/Machine/Suppression.lean ====
section
/-! DEFINITION. The Suppression Sequencer: the stage machine and its timing group (chapter 4), the coincidence list
(chapter 3), the abort set, manual release, the area occupancy it is handed, and a member's mirror. -/

namespace Sys2Proof.Machine

/-! ## Notices and stages -/

/-- R69: the RELEASE_NOTICE of the state as it stands. -/
def noticeFrame (s : State) : Frame :=
  .releaseNotice (BitVec.ofNat 4 s.area) (BitVec.ofNat 4 s.seq.stage.ordinal)
    (byteOf (ceilDiv s.ownRemaining 1000000)) s.seq.flowConfirmed

/-- R69: the notice timer runs in COUNTDOWN and HELD only. -/
def Stage.noticed : Stage → Bool
  | .countdown => true
  | .held => true
  | .normal => false
  | .isolated => false
  | .firstAlarm => false
  | .inhibited => false
  | .releasing => false
  | .discharged => false
  | .vented => false

/-- R69: a notice is enqueued, and the notice timer restarts in COUNTDOWN and HELD and stops in any other stage. -/
def sendNotice (s : State) : State :=
  enqueue (noticeFrame s)
    (s.setSeq { s.seq with
      notice := if s.seq.stage.noticed then some (s.now + Config.noticeTime) else none })

/-- R52, R69: entry to a stage that has no remaining, told by a notice. -/
def enterStage (st : Stage) (s : State) : State :=
  sendNotice (s.setSeq { s.seq with stage := st, countdown := none, frozen := 0 })

/-- R66: flow is confirmed: the wait stops and a notice carries the flag. -/
def confirmFlow (s : State) : State :=
  sendNotice (s.setSeq { s.seq with flowConfirmed := true, flowWait := none })

/-- R65, R66: the valve is energised; the pulse timer and the flow wait start, and DISCHARGE is raised. -/
def energiseValve (s : State) : State :=
  let s := trigger .discharge (s.setSeq { s.seq with
    valve := true, valveDelay := none, valvePulse := some (s.now + Config.ms s.img.pv)
    flowWait := some (s.now + Config.sec s.img.tf), flowConfirmed := false })
  if s.pins.flow then confirmFlow s else s

/-- R57, R65: the countdown expires: RELEASING, and the valve one-shot starts. A Dv of 0 energises at once. -/
def enterReleasing (s : State) : State :=
  let s := enterStage .releasing s
  if s.img.dv = 0 then energiseValve s
  else s.setSeq { s.seq with valveDelay := some (s.now + Config.ms s.img.dv) }

/-- R57: COUNTDOWN with a remaining, in microseconds; a remaining of 0 expires in the same event, and the stage is
RELEASING at once: DEDUCED (log entry 34). -/
def enterCountdown (r : Nat) (s : State) : State :=
  if r = 0 then enterReleasing s
  else sendNotice (s.setSeq { s.seq with stage := .countdown, countdown := some (s.now + r), frozen := 0 })

/-- R55, R59: HELD with a remaining, in microseconds. -/
def enterHeld (r : Nat) (s : State) : State :=
  sendNotice (s.setSeq { s.seq with stage := .held, countdown := none, frozen := r })

/-- R55, R56, R63: a countdown starts, frozen when the abort set is not empty. -/
def startCountdown (r : Nat) (s : State) : State :=
  if s.seq.abortSet = [] then enterCountdown r s else enterHeld r s

/-! ## The coincidence list -/

/-- R55: the stage machine is handed coincidence met. -/
def coincidenceMet (s : State) : State :=
  if s.seq.stage = .normal ∨ s.seq.stage = .firstAlarm then
    if s.seq.occupied then enterStage .inhibited s else startCountdown (Config.sec s.img.tpd) s
  else s

/-- R54: the stage follows list occupied between NORMAL and FIRST_ALARM. -/
def followList (s : State) : State :=
  if s.seq.stage = .normal ∧ s.seq.list ≠ [] then enterStage .firstAlarm s
  else if s.seq.stage = .firstAlarm ∧ s.seq.list = [] then enterStage .normal s
  else s

/-- R46: an entry takes part in meeting coincidence. -/
def Detection.consume (e : Detection) : Detection := { e with consumed := true, window := none }

/-- R46: the latch sets and every entry is consumed. -/
def latchList (s : State) : State :=
  s.setSeq { s.seq with latch := true, list := s.seq.list.map Detection.consume }

/-- R45, R46, R49, R54: what follows a change of the list, at a release station. A member keeps the list only (R48).
The coincidence test comes before the stage follows the list: DEDUCED (log entry 21). -/
def listChanged (s : State) : State :=
  if s.role = .release then
    if coincidencePresent s.seq.list ∧ s.seq.latch = false ∧ s.seq.stage ≠ .isolated then
      followList (coincidenceMet (latchList s))
    else followList s
  else s

/-- An entry of a station and line. -/
def Detection.names (e : Detection) (station : Nat) (line : Fin 4) : Bool := e.station == station && e.line == line

/-- R42: room for one more entry: a full list loses its oldest unconsumed entry, and none is made where all are
consumed. -/
def makeRoom (list : List Detection) : Option (List Detection) :=
  if list.length < Config.listSize then some list
  else if list.any (fun e => !e.consumed) then some (list.eraseP (fun e => !e.consumed))
  else none

/-- R40: a new entry, arriving now, with its window running. -/
def newDetection (s : State) (station : Nat) (line : Fin 4) (group : Group) : Detection where
  station := station
  line := line
  group := group
  arrival := s.now
  consumed := false
  window := some (s.now + Config.sec s.img.tc)

/-- R38, R40, R41, R42: a detection reaches the list. A recovered one repeats no entry; another refreshes an
unconsumed one. -/
def detect (recovered : Bool) (station : Nat) (line : Fin 4) (group : Group) (s : State) : State :=
  if s.role = .noArea then s
  else
    match s.seq.list.find? (fun e => e.names station line) with
    | some e =>
      if recovered || e.consumed then s
      else
        listChanged (s.setSeq { s.seq with
          list := s.seq.list.filter (fun e => !e.names station line) ++ [newDetection s station line group] })
    | none =>
      match makeRoom s.seq.list with
      | some room => listChanged (s.setSeq { s.seq with list := room ++ [newDetection s station line group] })
      | none => s

/-- R43, R44: an unconsumed entry leaves the list. -/
def dropDetection (station : Nat) (line : Fin 4) (s : State) : State :=
  if s.seq.list.any (fun e => e.names station line && !e.consumed) then
    listChanged (s.setSeq { s.seq with list := s.seq.list.filter (fun e => !(e.names station line && !e.consumed)) })
  else s

/-- R43: a withdrawal; a station with role NONE keeps no list. -/
def withdraw (station : Nat) (line : Fin 4) (s : State) : State :=
  if s.role = .noArea then s else dropDetection station line s

/-! ## The abort set and manual release -/

/-- R58, R59: an address joins the abort set; the first one holds a countdown and starts the stuck timer. -/
def abortJoin (address : Nat) (s : State) : State :=
  if s.seq.abortSet.contains address ∨ Config.abortSize ≤ s.seq.abortSet.length then s
  else if s.seq.abortSet = [] then
    let r := s.ownRemaining
    let s := s.setSeq { s.seq with abortSet := [address], abortStuck := some (s.now + Config.sec s.img.tab) }
    if s.seq.stage = .countdown then enterHeld r s else s
  else s.setSeq { s.seq with abortSet := s.seq.abortSet ++ [address] }

/-- R60: remaining after the abort set empties in HELD, by the abort mode. -/
def resumeRemaining (i : Image) (r : Nat) : Nat :=
  match i.abortMode with
  | .resume => r
  | .restart => Config.sec i.tpd
  | .extend => min (r + Config.sec i.tx) (Config.sec i.tpd)

/-- R58, R60: an address leaves the abort set; the last one stops the stuck timer and resumes a held countdown. -/
def abortLeave (address : Nat) (s : State) : State :=
  if s.seq.abortSet.contains address then
    let rest := s.seq.abortSet.filter (· != address)
    if rest = [] then
      let s := s.setSeq { s.seq with abortSet := [], abortStuck := none }
      if s.seq.stage = .held then enterCountdown (resumeRemaining s.img s.seq.frozen) s else s
    else s.setSeq { s.seq with abortSet := rest }
  else s

/-- R63: a manual release at the release station. A change of remaining is told by a notice (R69). -/
def manualRelease (s : State) : State :=
  match s.seq.stage with
  | .normal => startCountdown (Config.sec s.img.tman) s
  | .firstAlarm => startCountdown (Config.sec s.img.tman) s
  | .inhibited => startCountdown (Config.sec s.img.tman) s
  | .countdown =>
    if Config.sec s.img.tman < s.ownRemaining ∨ s.ownRemaining = 0 then
      enterCountdown (min s.ownRemaining (Config.sec s.img.tman)) s
    else s
  | .held => if Config.sec s.img.tman < s.seq.frozen then enterHeld (Config.sec s.img.tman) s else s
  | .isolated => s
  | .releasing => s
  | .discharged => s
  | .vented => s

/-! ## Occupancy and mirror -/

/-- R28, R56: the area occupancy is evaluated; a new value is handed to the Sequencer, where INHIBITED ends when it
becomes clear. With role NONE none is derived (R27). -/
def evalOccupancy (s : State) : State :=
  if s.role = .noArea ∨ s.areaOccupied = s.seq.occupied then s
  else
    let s := s.setSeq { s.seq with occupied := s.areaOccupied }
    if s.role = .release ∧ s.seq.stage = .inhibited ∧ s.seq.occupied = false then
      startCountdown (Config.sec s.img.tpd) s
    else s

/-- R72, R76: the mirror takes a stage and a remaining; a member raises DISCHARGE as its mirror passes from ordinal 5
or below to 6 or above. -/
def setMirror (m : Mirror) (s : State) : State :=
  let old := s.seq.mirror.stage.ordinal
  let s := s.setSeq { s.seq with mirror := m }
  if old ≤ 5 ∧ 6 ≤ m.stage.ordinal then trigger .discharge s else s

end Sys2Proof.Machine
end

