-- ==== Sys2Proof/Machine/Passage.lean ====
section
/-! DEFINITION. Passages: what the Occupancy Roster does with each hand-off (chapter 7), the door machines, the
interlock and lockout at the doors (chapter 5), and the credit hand-over (R90). -/

namespace Sys2Proof.Machine

/-! ## The roster -/

/-- A holder has an entry (R104). -/
def onRoster (r : Roster) (id : Nat) : Bool := r.entries.any (fun e => e.holder.id == id)

/-- R123, R124: one holder of an entry hand-off: kept if present, appended if there is room, and otherwise doubt. -/
def admitHolder (time : Nat) (s : State) (h : Holder) : State :=
  if onRoster s.roster h.id then s
  else if s.roster.entries.length < Config.rosterSize then
    s.setRoster { s.roster with entries := s.roster.entries ++ [{ holder := h, time := time }] }
  else setDoubt .overCapacity s

/-- R123: the entry hand-off of a credit, holder by holder in the credit's order. -/
def rosterEntry (holders : List Holder) (s : State) : State := holders.foldl (admitHolder s.presentTime) s

/-- R130: no escort remains and an escortee does. -/
def escortGone (entries : List RosterEntry) : Bool :=
  entries.any (fun e => e.holder.escorted) && !entries.any (fun e => e.holder.escortCapable)

/-- R125, R130: an identified exit. -/
def identifiedExit (id : Nat) (s : State) : State :=
  match s.roster.entries.find? (fun e => e.holder.id == id) with
  | none => trigger .rosterMismatch s
  | some e =>
    let rest := s.roster.entries.filter (fun e => e.holder.id != id)
    let s := s.setRoster { s.roster with entries := rest }
    if e.holder.escortCapable && escortGone rest then trigger .escortLeft s else s

/-- R126: an anonymous exit. -/
def anonymousExit (s : State) : State :=
  match s.roster.entries with
  | [] => s
  | [_] => s.setRoster { s.roster with entries := [] }
  | _ :: _ :: _ => setDoubt .anonymousExit s

/-! ## Releasing and relocking -/

/-- R83: a door is released under a credit. -/
def releaseDoor (d : DoorId) (c : Credit) (s : State) : State :=
  s.setDoor d { s.door d with
    state := .released, strike := true, window := some (s.now + Config.sec s.img.tr), heldTimer := none
    credit := some { c with granted := s.now } }

/-- R88: a door in SECURE: strike off, timers stopped, no credit. -/
def Door.secured (x : Door) : Door :=
  { x with state := .secure, strike := false, window := none, heldTimer := none, credit := none }

/-- R92: a pending request is eligible: its own door is SECURE and its partner SECURE or absent. -/
def eligible (s : State) (d : DoorId) : Bool :=
  (s.door d).request.isSome && (s.door d).state == .secure &&
    ((s.door (partner d)).state == .secure || (s.door (partner d)).absent)

/-- R91, R92: a pending request is granted: it leaves its slot and its door is released under its credit. -/
def grantRequest (d : DoorId) (s : State) : State :=
  match (s.door d).request with
  | none => s
  | some r => releaseDoor d r.credit (s.setDoor d { s.door d with request := none, lastPending := .granted })

/-- R79: how many steps a request's order lies behind the counter, mod 65536. -/
def stepsBehind (s : State) (d : DoorId) : Nat :=
  match (s.door d).request with
  | none => 0
  | some r => (s.doors.counter - r.order).toNat

/-- R92: the interlock test. Of the eligible requests the earlier is granted; the door is then RELEASED, so no other is
eligible and the test ends. -/
def interlockTest (s : State) : State :=
  if eligible s .a then
    if eligible s .b ∧ stepsBehind s .a < stepsBehind s .b then grantRequest .b s else grantRequest .a s
  else if eligible s .b then grantRequest .b s
  else s

/-- R88: a door enters SECURE, and the interlock test is made. -/
def secureDoor (d : DoorId) (s : State) : State := interlockTest (s.setDoor d (s.door d).secured)

/-- R95: a credit consummated at door A is handed to the roster; one at door B is handed to no one. -/
def consummate (d : DoorId) (s : State) : State :=
  match d, (s.door d).credit with
  | .a, some c =>
    match c.kind with
    | .entry => rosterEntry c.holders s
    | .egress =>
      match c.holders with
      | h :: _ => identifiedExit h.id s
      | [] => s
    | .exitRequest => anonymousExit s
  | .a, none => s
  | .b, _ => s

/-- R86: the hand-offs of an entry to HELD_OPEN: doubt, and the door alarm that breaks reservations (R112). The held
condition follows from the state, so the roster is in doubt before a lockdown that the condition brings: DESIGN CHOICE
(log entry 21). -/
def enterHeldOpen (d : DoorId) (s : State) : State :=
  breakReservations (setDoubt (heldCause d)
    (s.setDoor d { s.door d with state := .heldOpen, strike := false, window := none, heldTimer := none }))

/-- R87: a SECURE door is opened without a release. The roster is in doubt before a lockdown that the forced source brings
is evaluated: DESIGN CHOICE (log entry 21). -/
def forceDoor (d : DoorId) (s : State) : State :=
  breakReservations (setDoubt (forcedCause d) (trigger (forcedSource d)
    (s.setDoor d { s.door d with state := .forced, contactOpen := true })))

/-! ## Credits -/

/-- The Door Controller's answer to a credit (R90). -/
inductive CreditAnswer where
  | busy
  | locked
  | released
  | pending
deriving DecidableEq, Repr

/-- R90, R103: the door is not SECURE or its pending slot is occupied. -/
def doorBusy (s : State) (d : DoorId) : Bool := (s.door d).state != .secure || (s.door d).request.isSome

/-- R90: a credit enters the door's pending slot with the next request order. -/
def pendCredit (d : DoorId) (c : Credit) (s : State) : State :=
  let s := s.setDoors { s.doors with counter := s.doors.counter + 1 }
  s.setDoor d { s.door d with
    request := some {
      credit := c, order := s.doors.counter, since := s.now, wait := s.now + Config.sec s.img.tr }
    lastPending := .noOutcome }

/-- R90: the tests of a credit handed over, and the Door Controller's answer. -/
def handCredit (d : DoorId) (c : Credit) (s : State) : CreditAnswer × State :=
  if doorBusy s d then (.busy, s)
  else if c.kind = .entry ∧ (s.door d).lockout then (.locked, s)
  else if (s.door (partner d)).state = .secure ∨ (s.door (partner d)).absent then (.released, releaseDoor d c s)
  else (.pending, pendCredit d c s)

/-! ## Lockout -/

/-- R93: a pending ENTRY request is discarded with outcome LOCKOUT. -/
def Door.discardEntryRequest (x : Door) : Door :=
  match x.request with
  | some r => if r.credit.kind = .entry then { x with request := none, lastPending := .lockout } else x
  | none => x

/-- R93: the door is RELEASED under an ENTRY credit. -/
def Door.releasedForEntry (x : Door) : Bool :=
  x.state == .released && x.credit.any (fun c => c.kind == .entry)

/-- R93: what lockout on does to one door before the interlock test. -/
def Door.lockOut (x : Door) : Door :=
  if x.releasedForEntry then { x.discardEntryRequest.secured with lockout := true }
  else { x.discardEntryRequest with lockout := true }

/-- R93: lockout turns on. Pending ENTRY requests go before a withdrawn door makes the interlock test, so the test
grants no ENTRY request while lockout is held on. DEDUCED (log entry 21). -/
def lockoutOn (s : State) : State :=
  let withdrawn := s.doors.a.releasedForEntry || s.doors.b.releasedForEntry
  let s := s.setDoors { s.doors with a := s.doors.a.lockOut, b := s.doors.b.lockOut }
  if withdrawn then interlockTest s else s

/-- R93: lockout turns off: it is recorded, and nothing is restored. -/
def lockoutOff (s : State) : State :=
  s.setDoors { s.doors with a := { s.doors.a with lockout := false }, b := { s.doors.b with lockout := false } }

end Sys2Proof.Machine
end

