-- ==== Sys2Proof/Machine/Settle.lean ====
section
/-! DEFINITION. What follows at once from an event, in every block that reads what the event changed: the area
occupancy (R28), lockout (R75, R93, R112) and the cadence (R74), the level conditions (R154), the effective posture
(R141), the output lines (R145, R147) and the superseding STATUS (R139, R163, R17, R77, R132); and the remote alarm
list and the input filters, whose events another follows. The manual makes each hand-off "when the value changes";
here each is made when the value as it stands differs from the value last handed on, which the receiver holds
(DEDUCED, log entry 11). -/

namespace Sys2Proof.Machine

/-! ## Lockout and cadence -/

/-- R75: lockout is handed on or off to the doors and the entry rules when it differs from the lockout as held. -/
def settleLockout (s : State) : State :=
  if s.lockoutStage = s.doors.a.lockout then s
  else if s.lockoutStage then breakReservations (lockoutOn s) else lockoutOff s

/-- R74: the first phase of a pattern. -/
def Pattern.firstPhase : Pattern → Cadence
  | .off => .off
  | .slow => .on
  | .fast => .on
  | .continuous => .on

/-- R74: a stage with a different pattern starts it at the beginning of its ON phase. -/
def settleCadence (s : State) : State :=
  if s.stage.pattern = s.seq.pattern then s
  else s.setSeq { s.seq with
    pattern := s.stage.pattern, cadence := s.stage.pattern.firstPhase
    phaseEnd := s.stage.pattern.phaseTime.map (s.now + ·) }

/-! ## Level conditions -/

/-- R154: one level source takes its condition when it has changed. A command that changes a condition twice settles
between the two changes, so that the source takes each: DEDUCED (log entry 34). -/
def settleCondition (s : State) (x : Source) : State :=
  if s.levelCondition x = (s.source x).condition then s else takeCondition x (s.levelCondition x) s

/-- R154: every level source takes its condition. -/
def settleConditions (s : State) : State := Source.levels.foldl settleCondition s

/-! ## Effective posture -/

/-- R13: the effective alarm level of one line is recomputed. -/
def recomputeAlarm (s : State) (l : Fin 4) : State :=
  s.setLine l { s.line l with effAlarm := effectiveAlarm (s.lineCfg l) s.img.ko s.posture.effective }

/-- R13: every line's effective alarm level is recomputed. -/
def recomputeAlarms (s : State) : State := allLines.foldl recomputeAlarm s

/-- R131: the change reports an occupied or doubtful roster at a close. -/
def occupiedAtClose (before after : Posture) (r : Roster) : Bool :=
  !before.isClosed && after.isClosed && (!r.entries.isEmpty || r.doubtful)

/-- R141: the effective posture is evaluated; a new value goes to the lines, the reservations and the roster,
which looks at itself as the event has left it (R131): a door event's doubt is there already (DESIGN CHOICE, log entry
21). All that one event does to the view, the sources and the remote list is there already too, and is evaluated at once
(R142; DESIGN CHOICE, log entry 38). -/
def settlePosture (s : State) : State :=
  if s.effectiveNow = s.posture.effective then s
  else
    let t := breakReservations (recomputeAlarms (s.setPosture { s.posture with effective := s.effectiveNow }))
    if occupiedAtClose s.posture.effective s.effectiveNow s.roster then trigger .occupiedAtClose t else t

/-! ## Output lines -/

/-- R147: the comparison of a line's driven and sensed levels after one of them changed. -/
def compareOutput (now : Nat) (x : OutLine) (sense : Bool) : OutLine :=
  if x.driven = sense then { x with mismatch := none, mark := false }
  else { x with mismatch := some (now + Config.mismatchTime) }

/-- R145, R147: one line is driven at the level that now holds; a change of level is compared. -/
def settleOutput (s : State) (l : Fin 12) : State :=
  if s.driveLevel l = (s.output l).driven then s
  else s.setOutput l (compareOutput s.now { s.output l with driven := s.driveLevel l } s.pins.sense[l])

/-- The twelve general lines. -/
def allOutputs : List (Fin 12) := [0, 1, 2, 3, 4, 5, 6, 7, 8, 9, 10, 11]

/-- R145: every line is driven. -/
def settleOutputs (s : State) : State := allOutputs.foldl settleOutput s

/-! ## STATUS -/

/-- R17, R77, R132, R139, R163: a change of an announced field asks for a superseding STATUS. DEDUCED (log entry 27). -/
def settleStatus (s : State) : State :=
  if s.announcement.same s.bus.announced then s
  else requestStatus (s.setBus { s.bus with announced := s.announcement })

/-! ## The whole -/

/-- One round of hand-offs. The lines come last, so that they are driven by the values as the round leaves them. -/
def settleRound (s : State) : State := settleOutputs (settleStatus (settlePosture (settleConditions s)))

/-- Nothing is left to hand on. -/
abbrev State.Settled (s : State) : Prop :=
  (∀ x ∈ Source.levels, s.levelCondition x = (s.source x).condition) ∧
  s.effectiveNow = s.posture.effective ∧
  (∀ l ∈ allOutputs, s.driveLevel l = (s.output l).driven) ∧
  s.announcement.same s.bus.announced = true

/-- Rounds until nothing is left to hand on. A hand-off can cause another (a level alarm the overlay, the overlay a
posture, the posture a door alarm's notice), so one round may not be enough. The order
within a round is a DESIGN CHOICE (log entry 11). -/
def settleLoop : Nat → State → State
  | 0, s => s
  | n + 1, s => if s.Settled then s else settleLoop n (settleRound s)

/-- How many rounds are made at most. -/
def settleRounds : Nat := 6

/-- What follows at once from an event, while the blocks run (R192). -/
def settle (s : State) : State :=
  if s.running then settleLoop settleRounds (settleCadence (settleLockout (evalOccupancy s))) else s

/-! ## The remote alarm list -/

/-- An entry of a station and kind. -/
def RemoteEntry.matches (e : RemoteEntry) (station : Nat) (kind : RemoteKind) : Bool :=
  e.station == station && e.kind == kind

/-- R167: the oldest entry is evicted and the overflow mark becomes set. That is a removal, so what follows from one
follows at once: the overlay is handed it before the addition (R141). -/
def evictOldest (s : State) : State :=
  settle (s.setAnn { s.ann with remote := s.ann.remote.drop 1, overflow := true })

/-- R166: an entry joins as the newest, unacknowledged, arriving now. -/
def joinRemote (station : Nat) (kind : RemoteKind) (s : State) : State :=
  s.setAnn { s.ann with
    remote := s.ann.remote ++ [{ station := station, kind := kind, arrival := s.presentTime, acked := false }] }

/-- R166, R167: an addition; a full list loses its oldest entry first. -/
def addRemote (station : Nat) (kind : RemoteKind) (s : State) : State :=
  if s.ann.remote.any (fun e => e.matches station kind) then s
  else joinRemote station kind (if s.ann.remote.length < Config.remoteSize then s else evictOldest s)

/-- R166: a removal. -/
def removeRemote (station : Nat) (kind : RemoteKind) (s : State) : State :=
  s.setAnn { s.ann with remote := s.ann.remote.filter (fun e => !e.matches station kind) }

/-! ## Filtered inputs -/

/-- R80: the change of a filtered input is taken: the pin has the level that was not taken yet. `act` is what the
input's owner does with the level. -/
def takeInput (i : Input) (act : Bool → State → State) (s : State) : State :=
  act (!s.pins.level i) (s.setPins (s.pins.take i (!s.pins.level i)))

/-- R80: the filtering starts: the pin has left the level taken. -/
def startFilter (i : Input) (s : State) : State :=
  s.setPins (s.pins.setFilter i (some (s.now + Config.filterTime)))

/-- R80: the pin is back at the level taken. Within 20 ms the other level is not taken; later it has been, and the
filtering starts again. -/
def pinReturns (i : Input) (deadline : Nat) (act : Bool → State → State) (s : State) : State :=
  if deadline ≤ s.now then startFilter i (takeInput i act s) else s.setPins (s.pins.setFilter i none)

/-- R80: the pin of a filtered input moves to a level. Before the blocks run there is no filtering (log entry 13). -/
def pinMoves (i : Input) (level : Bool) (act : Bool → State → State) (s : State) : State :=
  if s.pins.raw i = level then s
  else if s.running then
    match s.pins.filter i with
    | none => startFilter i s
    | some t => pinReturns i t act s
  else s.setPins (s.pins.take i level)

/-- R53, R80, R156: what happens at a filtered input. The end of a filter's time is that of a level other than the one
taken, while the filter runs. -/
def inputEvent (i : Input) (level : Bool) (act : Bool → State → State) (e : InputEvent) (s : State) : State :=
  match e with
  | .moves dt => pinMoves i level act (s.elapse dt)
  | .held =>
    match s.pins.filter i with
    | some t => if s.pins.level i = level then s else takeInput i act (s.reach t)
    | none => s

end Sys2Proof.Machine
end

