-- ==== Sys2Proof/Machine/Panel.lean ====
section
/-! DEFINITION. The Panel Port (chapter 11): what PSDO sends, how a command frame is taken (R184, R185), checked (R187)
and answered (R188), and the reply read (R186). -/

namespace Sys2Proof.Machine

/-- What a command is answered: the result, bits 6 to 0 of the flags byte, and the data (R188). The table states no value
for a flags bit that it gives to no command: each owner leaves it 0, DESIGN CHOICE (log entry 35). -/
structure Answer where
  /-- The result. -/
  result : Result
  /-- The command's own flags bits. -/
  flags : Nat
  /-- The data bytes. -/
  data : List Byte
deriving DecidableEq, Repr

/-- An answer with a result alone: no flags bit is stated, and each is 0, DESIGN CHOICE (log entry 35). -/
def Answer.plain (r : Result) : Answer := { result := r, flags := 0, data := [] }

/-- An answer DONE with data: no flags bit is stated, and each is 0, DESIGN CHOICE (log entry 35). -/
def Answer.done (data : List Byte) : Answer := { result := .done, flags := 0, data := data }

/-- The bytes of a reply: the four-byte header and the data (R188). -/
def replyBytes (code : Nat) (a : Answer) (overrun : Bool) : List Byte :=
  [byteOf code, byteOf a.result.code, byteOf (128 * overrun.toNat + a.flags), byteOf a.data.length] ++ a.data

/-- R183: frames are taken from the end of LOAD, in every phase. The phase is that at the frame's end: DESIGN CHOICE (log
entry 37). -/
def State.portTakes (s : State) : Bool :=
  match s.startup.phase with
  | .init => false
  | .load => false
  | .configFault => true
  | .clock => true
  | .join => true
  | .run => true

/-- R184, R186: the `n` bytes PSDO sends in a frame: the reply buffer from its first byte, then 0x00, and 0x00 for every
byte when no reply waits. The first `before` bytes were begun before the waiting reply was formed, and went out as 0x00. -/
def psdoBytes (p : Port) (before n : Nat) : List Byte :=
  match p.state with
  | .reply => (List.range n).map (fun k => if k < before then 0 else (p.reply.getD []).getD k 0)
  | .idle => List.replicate n 0
  | .busy => List.replicate n 0

/-- R183: the bits PSDO sent in the last panel frame, each byte most significant bit first. -/
def Port.psdoBits (p : Port) : List Bool := bitsOfBytes p.psdo

/-- What PSDO sent in a frame of `n` bytes is recorded; `p` is the port as the frame found it. -/
def sendPsdo (p : Port) (before n : Nat) (s : State) : State := s.setPort { s.port with psdo := psdoBytes p before n }

/-- The bytes of a command frame, its code among them. -/
def frameLength (rest : PanelRest) : Nat := 1 + rest.bytes.length

/-- R185: a command frame is taken in IDLE, and in REPLY, where the waiting reply is lost. -/
def takeCommand (code : Nat) (rest : PanelRest) (s : State) : State :=
  s.setPort { s.port with
    state := .busy, progress := some (code, parameters rest.bytes), reply := none
    overrun := s.port.overrun || s.port.state == .reply }

/-- R185: the reply is formed with the overrun mark as it stands; the mark clears, and READY asserts. -/
def formReply (code : Nat) (a : Answer) (s : State) : State :=
  s.setPort { s.port with
    state := .reply, progress := none, reply := some (replyBytes code a s.port.overrun), overrun := false }

/-- The checks of R187, then the owner: `parse` makes check 4 and `act` is the owner. -/
def checked {α : Type} (code len : Nat) (parse : State → List Byte → Option α) (act : α → State → Answer × State)
    (rest : List Byte) (s : State) : Answer × State :=
  if s.startup.phase = .configFault ∧ code ≠ 1 then (Answer.plain .notConfigured, s)
  else if lengthOk len rest then
    match parse s (parameters rest) with
    | some x => act x s
    | none => (Answer.plain .badArgument, s)
  else (Answer.plain .badArgument, s)

/-- R185: the owner acts on a command that has been taken, and its reply is formed. -/
def answerCommand (code : Nat) (rest : PanelRest) (owner : State → Answer × State) (s : State) : State :=
  formReply code (owner (takeCommand code rest s)).1 (owner (takeCommand code rest s)).2

/-- R183 to R185: a command frame from its last byte to its reply, by the port state. `owner` is everything between. The
frame is judged by the phase as PCSN goes high alone, so one that began before the end of LOAD, or before a reset, and
ends after the end of LOAD is taken: DESIGN CHOICE (log entry 37). -/
def commandFrame (code : Nat) (rest : PanelRest) (owner : State → Answer × State) (s : State) : State :=
  if s.portTakes then
    sendPsdo s.port rest.before (frameLength rest) (match s.port.state with
      | .busy => s.setPort { s.port with overrun := true }
      | .idle => answerCommand code rest owner s
      | .reply => answerCommand code rest owner s)
  else s.setPort { s.port with psdo := List.replicate (frameLength rest) 0 }

/-- A panel command of the table of R188. -/
def panelCommand {α : Type} (code len : Nat) (parse : State → List Byte → Option α)
    (act : α → State → Answer × State) (dt : Nat) (rest : PanelRest) (s : State) : State :=
  commandFrame code rest (checked code len parse act rest.bytes) (s.elapse dt)

end Sys2Proof.Machine
end

