-- ==== Sys2Proof/Machine/Reports.lean ====
section
/-! DEFINITION. The data bytes of the replies that report state (R21, R35, R133, R148, R165, R167, R189 to R191),
encoded as the last paragraph of R188 states. None of them changes what it reports. -/

namespace Sys2Proof.Machine

/-! ## Encodings -/

/-- A flag, mark or two-valued state: one byte (R188). -/
def flag1 (b : Bool) : List Byte := [byteOf b.toNat]

/-- A whole number whose range ends at 255 or below, or an enumerated value: one byte (R188). -/
def num1 (n : Nat) : List Byte := [byteOf n]

/-- A whole number whose range ends at 65535 or below: two bytes, high first (R188). -/
def num2 (n : Nat) : List Byte := [byteOf (n / 256), byteOf n]

/-- A longer whole number: four bytes, high first (R188). -/
def num4 (n : Nat) : List Byte :=
  [byteOf (n / 16777216), byteOf (n / 65536), byteOf (n / 256), byteOf n]

/-- A number whose range includes negative values: two bytes in two's complement (R188). -/
def signed2 (n : Int) : List Byte := num2 (BitVec.ofInt 16 n).toNat

/-- A list of full size: its entries, and 0 in unused places (R188). -/
def padded (size : Nat) (xs : List (List Byte)) (unused : List Byte) : List Byte :=
  ((List.range size).map (fun k => xs.getD k unused)).flatten

/-- The four marks of a mask, line 0 first, one byte each (R188). DEDUCED (log entry 18). -/
def marks4 (m : BitVec 4) : List Byte := allLines.flatMap (fun l => flag1 (m.getLsbD l.val))

/-- Bytes the manual gives no value for (log entry 5). -/
def freeBytes (from_ n : Nat) : List Byte := (List.range n).map (fun k => Config.freeByte (from_ + k))

/-! ## Time left and running -/

/-- R98: the time left in a door's window or before it is held, in ms. -/
def State.doorTimer (s : State) (d : DoorId) : Nat :=
  match (s.door d).state with
  | .released => ((s.door d).window.map (msLeft s.now)).getD 0
  | .opened => ((s.door d).heldTimer.map (msLeft s.now)).getD 0
  | .secure => 0
  | .heldOpen => 0
  | .forced => 0

/-- R98: the door timer counts as running. -/
def State.doorRunning (s : State) (d : DoorId) : Bool :=
  (s.door d).state == .released || (s.door d).state == .opened

/-- R121: a door's pair window remaining, in ms. -/
def State.pairWindow (s : State) (d : DoorId) : Nat :=
  ((s.reservation d).map (fun r => msLeft s.now r.window)).getD 0

/-- R77: the countdown remaining counts as running. -/
def State.countdownRunning (s : State) : Bool := s.stage == .countdown && 0 < s.countdownMs

/-- R77: the soak remaining counts as running. -/
def State.soakRunning (s : State) : Bool := s.role == .release && s.seq.soak.isSome

/-- R190: the six values and their running marks, as they stand. -/
def State.snapshotNow (s : State) : Snapshot where
  running := s.countdownRunning.toNat + 2 * s.soakRunning.toNat + 4 * (s.doorRunning .a).toNat +
    8 * (s.doorRunning .b).toNat + 16 * (s.reservation .a).isSome.toNat + 32 * (s.reservation .b).isSome.toNat
  countdown := s.countdownMs
  soak := s.soakSec
  doorA := s.doorTimer .a
  doorB := s.doorTimer .b
  pairA := s.pairWindow .a
  pairB := s.pairWindow .b

/-- R191: the data of READ_TIMES; bit 7 of the status byte is the latched mark. Its bit 6, which R190 does not list, is 0,
DESIGN CHOICE (log entry 35). -/
def Snapshot.data (x : Snapshot) (latched : Bool) : List Byte :=
  num1 (x.running + 128 * latched.toNat) ++ num4 x.countdown ++ num2 x.soak ++ num4 x.doorA ++ num4 x.doorB ++
    num4 x.pairA ++ num4 x.pairB

/-! ## Reports of one block -/

/-- A pair outcome, preceded by its presence (R171, R188). -/
def outcomeData : Option PairOutcome → List Byte
  | some o => flag1 true ++ num1 (doorCode o.door) ++ [o.tag] ++ num1 o.outcome.code
  | none => [0, 0, 0, 0]

/-- R21: the state of one line. -/
def lineData (s : State) (l : Fin 4) : List Byte :=
  flag1 (s.lineCfg l).enable ++ num1 (s.lineCfg l).group.num ++ num1 (s.line l).stage.code ++
    num1 (s.line l).fault.code ++ flag1 (s.line l).seeded ++ num2 (s.line l).lastWidth ++ num2 (s.line l).lastPeriod ++
    num1 (s.line l).lastReading ++ num2 (s.line l).smooth ++ num1 (s.line l).level ++ signed2 (s.line l).rise ++
    num1 (s.line l).count ++ num1 (s.line l).effAlarm ++ num1 (s.line l).entries ++ (s.line l).ring.flatMap num2

/-- R35: what a peer's entry says; for the own address, the reset values. -/
def peerData (s : State) (a : Nat) : List Byte :=
  let own := a == s.address
  let p := if own then Peer.reset else s.peer a
  flag1 own ++ num1 p.presence.code ++
    num2 (if p.presence = .neverHeard then 0 else ageMs s.now p.lastHeard) ++
    flag1 (!own && s.isMember a) ++ flag1 (!own && s.releaseStation == some a) ++ flag1 p.statusHeard ++
    num1 p.said.period ++ num1 p.said.role.code ++ num1 p.said.area ++ num1 p.said.posture.num ++ [p.said.epoch] ++
    num1 p.said.stage.ordinal ++ num1 p.said.count ++ flag1 p.said.doubtful ++ marks4 p.said.alarmMask ++
    marks4 p.said.groupMask ++ flag1 p.said.abortHeld ++ flag1 p.said.duressActive ++ num1 p.said.alarmLevel ++
    outcomeData p.said.outcome

/-- R133: the roster. -/
def rosterData (s : State) : List Byte :=
  num1 s.roster.entries.length ++ flag1 s.roster.doubtful ++ num1 s.roster.cause.code ++ num4 s.presentTime ++
    s.roster.entries.flatMap (fun e =>
      num2 e.holder.id ++ num1 e.holder.cls ++ num4 e.time ++ flag1 e.holder.escorted ++ flag1 e.holder.escortCapable)

/-- R148: one output line. -/
def outputData (s : State) (l : Fin 12) : List Byte :=
  num1 s.img.outputs[l].source.code ++ num1 s.img.outputs[l].threshold ++ flag1 s.img.outputs[l].activeHigh ++
    num1 (s.sourceValue s.img.outputs[l].source) ++ flag1 (s.output l).driven ++ flag1 s.pins.sense[l] ++
    flag1 (s.output l).forced.isSome ++ flag1 (s.output l).mark

/-- R148: the twelve output lines. -/
def outputsData (s : State) : List Byte := allOutputs.flatMap (outputData s)

/-- R188: the condition bit of READ_SOURCES, 0 for a source that is not a level source. -/
def conditionBit (s : State) (x : Source) : Bool := x.kind == .level && (s.source x).condition

/-- R188: the six bytes of one source. The bits of bytes 0 and 1 that R188 does not list are 0, DESIGN CHOICE (log entry
35). -/
def sourceData (s : State) (x : Source) : List Byte :=
  num1 (16 * x.kind.code + x.cls.val) ++
    num1 ((s.isPending x).toNat + 2 * (s.isInService x).toNat + 4 * (s.source x).masked.toNat +
      8 * (s.source x).settled.toNat + 16 * (conditionBit s x).toNat + 32 * (s.lockdownFlag x).toNat) ++
    num4 (s.raisedTime x)

/-- R165: the source table, the present time, the rotation orders and what the outside sees. -/
def sourcesData (s : State) : List Byte :=
  Source.all.flatMap (sourceData s) ++ num4 s.presentTime ++
    s.ann.rotation.toList.flatMap (fun order => order.flatMap (fun x => num1 x.num.val)) ++
    num1 s.alarmLevel ++ flag1 s.duressActive ++ flag1 s.alert

/-- R167: the remote alarm list. -/
def remoteData (s : State) : List Byte :=
  flag1 s.ann.overflow ++ num4 s.presentTime ++ num1 s.ann.remote.length ++
    s.ann.remote.flatMap (fun e => num1 e.station ++ num1 e.kind.code ++ num4 e.arrival ++ flag1 e.acked)

/-! ## GET_STATUS (R189) -/

/-- Start-up, with the load result after the fields of R189 (R194). -/
def startupSection (s : State) : List Byte :=
  num1 s.startup.phase.code ++ num1 s.startup.clock.code ++ flag1 s.startup.coldStart ++ num1 s.address ++
    num1 s.role.code ++ num1 s.area ++ num1 s.startup.loadResult.code ++ num1 s.startup.loadResult.offset

/-- R77: the last notice age; 65535 where no notice has been taken. DEDUCED at a non-member (log entry 18). -/
def State.noticeAge (s : State) : Nat :=
  match s.seq.mirror.lastNotice with
  | some t => ageMs s.now t
  | none => 65535

/-- R77: flow confirmed, own or mirrored. -/
def State.flowShown (s : State) : Bool := if s.role = .member then s.seq.mirror.flow else s.seq.flowConfirmed

/-- The facts of R77, the abort-held flag among them, which its table gives to STATUS alone: DESIGN CHOICE (log
entry 18). -/
def suppressionSection (s : State) : List Byte :=
  num1 s.ordinal ++ flag1 s.abortHeldFlag ++ num4 s.countdownMs ++ num2 s.soakSec ++ num1 s.seq.abortSet.length ++
    padded Config.abortSize (s.seq.abortSet.map num1) [0] ++ flag1 s.flowShown ++ num2 s.noticeAge

/-- R50: seconds left to the oldest unconsumed entry's window. -/
def State.oldestWindow (s : State) : Nat :=
  match s.seq.list.find? (fun e => !e.consumed) with
  | some e => (e.window.map (secLeft s.now)).getD 0
  | none => 0

/-- The facts of R50. -/
def coincidenceSection (s : State) : List Byte :=
  num1 s.seq.list.length ++ num1 (s.seq.list.countP Detection.consumed) ++ flag1 (groupPresent s.seq.list .g1) ++
    flag1 (groupPresent s.seq.list .g2) ++ flag1 (coincidencePresent s.seq.list) ++ flag1 s.seq.latch ++
    num2 s.oldestWindow

/-- A credit at a door, preceded by its presence (R97). -/
def creditData (now : Nat) : Option Credit → List Byte
  | some c =>
    flag1 true ++ num1 c.kind.code ++ num1 c.kind.direction.code ++ num1 c.holders.length ++
      padded 2 (c.holders.map (fun h => num2 h.id)) [0, 0] ++ num2 (ageMs now c.granted)
  | none => List.replicate 10 0

/-- A pending request, preceded by its presence (R97). -/
def requestData (now : Nat) : Option PendingRequest → List Byte
  | some r =>
    flag1 true ++ num1 r.credit.kind.code ++ num1 r.credit.holders.length ++ num2 (min ((now - r.since) / 1000) 30000)
  | none => List.replicate 5 0

/-- The facts of R97 for a door. -/
def doorSection (s : State) (d : DoorId) : List Byte :=
  flag1 (s.door d).absent ++ num1 (s.door d).state.code ++ flag1 (s.door d).contactOpen ++ flag1 (s.door d).rex ++
    flag1 (s.door d).strike ++ creditData s.now (s.door d).credit ++ requestData s.now (s.door d).request ++
    num1 (s.door d).lastPending.code ++ flag1 (s.door d).lockout

/-- A reservation, preceded by its presence (R121). -/
def reservationData (now : Nat) : Option Reservation → List Byte
  | some r => flag1 true ++ num2 r.holder ++ num1 r.cls ++ num1 r.tag ++ num4 (msLeft now r.window)
  | none => List.replicate 9 0

/-- A mode entry (R121). -/
def modeData (m : ModeEntry) : List Byte := num1 m.mode.code ++ num1 m.minClass ++ num1 m.floor

/-- R121: the modes in force; no image gives any while none is loaded, and the bytes are then free (log entry 5). -/
def modesData (s : State) : List Byte :=
  if s.image.isSome then modeData (s.mode .a) ++ modeData (s.mode .b) else freeBytes s.free 6

/-- The facts of R121. -/
def entrySection (s : State) : List Byte :=
  reservationData s.now s.entry.resA ++ reservationData s.now s.entry.resB ++ flag1 s.entry.brokenA ++
    flag1 s.entry.brokenB ++ num1 s.entry.tag ++ outcomeData s.entry.outcome ++ modesData s

/-- The facts of R134. -/
def rosterSection (s : State) : List Byte :=
  num1 s.roster.entries.length ++ flag1 s.roster.doubtful ++ num1 s.roster.cause.code ++
    num1 (s.roster.entries.countP (fun e => e.holder.escorted)) ++
    num1 (s.roster.entries.countP (fun e => e.holder.escortCapable))

/-- The facts of R149. -/
def postureSection (s : State) : List Byte :=
  num1 s.posture.view.posture.num ++ [s.posture.view.epoch] ++ num1 s.posture.view.source ++
    flag1 (s.img.authorities.contains s.address) ++ flag1 s.overlay ++ flag1 s.localRequest ++
    num1 (s.ann.remote.countP s.inScope) ++ num1 s.posture.effective.num ++
    flag1 (s.posture.outputs.toList.any OutLine.mark)

/-- The GET_STATUS facts of R165. -/
def annunciationSection (s : State) : List Byte :=
  flag1 s.alert ++ num1 s.alarmLevel ++ num1 (Source.all.countP s.isCandidate) ++
    num1 (Source.all.countP s.isInService) ++ flag1 s.duressActive ++ num1 s.ann.remote.length ++ flag1 s.ann.overflow

/-- R182: the bit rate code; free while no image is loaded (log entry 5). -/
def rateData (s : State) : List Byte :=
  if s.image.isSome then num1 s.img.rate else freeBytes (s.free + 6) 1

/-- The facts of R182. -/
def busSection (s : State) : List Byte :=
  num1 s.bus.queue.length ++ padded Config.queueSize (s.bus.queue.map (fun e => num1 e.frame.kind)) [0] ++
    flag1 s.bus.inFlight.isSome ++ num1 s.bus.abandoned ++ flag1 s.bus.quiet.isSome ++
    num4 ((s.bus.quiet.map (msLeft s.now)).getD 0) ++ flag1 s.bus.stuck ++ flag1 s.bus.listenOnly ++ rateData s

/-- R189: the nine sections. -/
def statusData (s : State) : List Byte :=
  startupSection s ++ suppressionSection s ++ coincidenceSection s ++ doorSection s .a ++ doorSection s .b ++
    entrySection s ++ rosterSection s ++ postureSection s ++ annunciationSection s ++ busSection s

end Sys2Proof.Machine
end

