-- ==== Sys2Proof/Machine/PeerView.lean ====
section
/-! DEFINITION. The receiver's delivery (R179, R180), the Peer View (chapter 2), the adoption of a posture (R138), and
the frames whose owner is the Peer View: STATUS and QUERY. -/

namespace Sys2Proof.Machine

/-! ## Delivery -/

/-- R26: the silence timer of an advertised period, from now. -/
def silenceFrom (now period : Nat) : Option Nat := some (now + 3 * period * Config.periodUnit)

/-- R24: what any good frame does to the sender's entry. -/
def Peer.hear (now : Nat) (p : Peer) : Peer :=
  { p with
    presence := .live, lastHeard := now
    silence := if p.presence = .live then p.silence else silenceFrom now p.said.period }

/-- R25: what a STATUS does beside. -/
def Peer.refresh (now : Nat) (c : Announcement) (p : Peer) : Peer :=
  { p with statusHeard := true, said := c, silence := silenceFrom now c.period }

/-- R24, R25: a sender's entry after a frame. -/
def Peer.after (now : Nat) (f : Frame) (p : Peer) : Peer :=
  match f with
  | .status c => (p.hear now).refresh now c
  | .releaseNotice .. => p.hear now
  | .releaseCall .. => p.hear now
  | .duress .. => p.hear now
  | .detect .. => p.hear now
  | .confirm .. => p.hear now
  | .posture .. => p.hear now
  | .query => p.hear now

/-- R24, R25, R28: the Peer View takes a good frame; the area occupancy is evaluated again. -/
def peerHeard (a : Nat) (f : Frame) (s : State) : State :=
  evalOccupancy (s.setPeer a ((s.peer a).after s.now f))

/-- R180: an address clash: listen-only, and the frame is delivered to no block. -/
def addressClash (s : State) : State := settle (s.setBus { s.bus with listenOnly := true })

/-- R179, R24: a good frame: the sender's entry and the area occupancy first, then the owner. What else the hearing brings
follows after the owner has acted: the level conditions (R29, R76), and through every source the overlay and the effective
posture. So a CONFIRM is judged before a posture change that its own sender's hearing brings, which R113 allows
to come first as well: DESIGN CHOICE (log entry 36). -/
def deliver (a : Nat) (f : Frame) (owner : Nat → Frame → State → State) (s : State) : State :=
  if a = s.address then addressClash s else settle (owner a f (peerHeard a f s))

/-- R169, R178, R179: a frame on the line, whose levels are read. The receiver takes it in JOIN and RUN, unless the bus
is stuck; it is an event of `kind` only when it is good and of that kind. That a frame of another kind than its row's has
no effect is a DESIGN CHOICE (log entry 9). The phase is that at the frame's last bit, so a frame that began before JOIN and
ends in it is taken: DESIGN CHOICE (log entry 39). -/
def receiveFrame (kind : Nat) (owner : Nat → Frame → State → State) (bits : List Bool) (s : State) : State :=
  if s.receiving && !s.bus.stuck then
    match acceptBits bits with
    | some (a, f) => if f.kind = kind then deliver a f owner (s.hear bits) else s.hear bits
    | none => s.hear bits
  else s.hear bits

/-! ## Postures -/

/-- R17, R118, R139: a superseding STATUS of the state as it now stands. -/
def askStatus (s : State) : State := requestStatus (s.setBus { s.bus with announced := s.announcement })

/-- R138: the test of adoption. -/
def adopts (v : PostureView) (p : Posture) (e : Byte) : Bool :=
  if v.source = 0 then true
  else if (e - v.epoch).toNat = 0 then v.posture.num < p.num
  else (e - v.epoch).toNat ≤ 127

/-- R138, R139: an announced posture and epoch; an adopted one changes the view. The STATUS is asked for before the
effective posture is evaluated: where it is lost to a full queue and TRANSMIT_OVERRUN carries the lockdown flag, the view
and the overlay change in this one event and are evaluated once, after both. R139 and R142 leave the order open: DESIGN
CHOICE (log entry 38). -/
def adoptPosture (a : Nat) (p : Posture) (e : Byte) (s : State) : State :=
  if adopts s.posture.view p e then
    askStatus (s.setPosture { s.posture with view := { posture := p, epoch := e, source := a } })
  else s

/-! ## STATUS -/

/-- R30: the recovered detection of one line of a STATUS. -/
def recoverLine (a : Nat) (c : Announcement) (s : State) (l : Fin 4) : State :=
  if c.alarmMask.getLsbD l.val then detect true a l (if c.groupMask.getLsbD l.val then .g2 else .g1) s else s

/-- R30: the recovered detections of a STATUS of the own area, line 0 first: DESIGN CHOICE (log entry 21). -/
def recoverDetections (a : Nat) (c : Announcement) (s : State) : State :=
  if s.role ≠ .noArea ∧ c.area = s.area then allLines.foldl (recoverLine a c) s else s

/-- R31: a station of another area; with role NONE every peer is. -/
def outsideArea (s : State) (c : Announcement) : Bool := s.role == .noArea || c.area != s.area

/-- R31: the DURESS entry of a peer. -/
def recoverDuress (a : Nat) (c : Announcement) (s : State) : State :=
  if c.duressActive then addRemote a .duress s else removeRemote a .duress s

/-- R31: the FIRST_ALARM entry of a peer. -/
def recoverFirstAlarm (a : Nat) (c : Announcement) (s : State) : State :=
  if c.stage.ordinal < 2 then removeRemote a .firstAlarm s
  else if outsideArea s c then addRemote a .firstAlarm s else s

/-- R32: a peer of the abort set that announces abort-held clear leaves it. -/
def recoverAbort (a : Nat) (c : Announcement) (s : State) : State :=
  if s.role = .release ∧ c.abortHeld = false then abortLeave a s else s

/-- R33, R72: no notice has been taken for 3 s, or none since reset. R78 words the second case otherwise: DEDUCED (log
entry 16). -/
def noticesMissing (s : State) : Bool :=
  match s.seq.mirror.lastNotice with
  | some t => Config.mirrorAge ≤ s.now - t
  | none => true

/-- R33, R72: at a member, the release station's STATUS moves the mirror when notices are missing. -/
def mirrorStatus (a : Nat) (c : Announcement) (s : State) : State :=
  if s.releaseStation = some a ∧ noticesMissing s then
    setMirror { s.seq.mirror with stage := c.stage, remaining := 0, setAt := s.now } s
  else s

/-- R30 to R33: the recovery hand-offs of a STATUS, in an order that is the model's own (DEDUCED, log entry 21). What
follows at once from one follows before the next is made, so a change of the overlay and one of the view in one STATUS
are evaluated one after the other (R141, R142). -/
def statusOwner (a : Nat) (f : Frame) (s : State) : State :=
  match f with
  | .status c =>
    let s := settle (recoverDetections a c s)
    let s := settle (recoverDuress a c s)
    let s := settle (recoverFirstAlarm a c s)
    let s := settle (recoverAbort a c s)
    let s := settle (adoptPosture a c.posture c.epoch s)
    mirrorStatus a c s
  | .releaseNotice .. => s
  | .releaseCall .. => s
  | .duress .. => s
  | .detect .. => s
  | .confirm .. => s
  | .posture .. => s
  | .query => s

/-- R25: a STATUS is received. -/
def execStatusFrame (dt : Nat) (bits : List Bool) (s : State) : Host.Outcome State Fault Refusal :=
  .next (receiveFrame 6 statusOwner bits (s.elapse dt))

/-! ## Silence and QUERY -/

/-- R26: a peer falls SILENT. -/
def silenceExpiry (a : Nat) (s : State) : State :=
  match (s.peer a).silence with
  | none => s
  | some t => settle ((s.reach t).setPeer a { s.peer a with presence := .silent, silence := none })

/-- R26: the silence timer of a peer expires. -/
def execSilenceTimerExpiry (address : Nat) (s : State) : Host.Outcome State Fault Refusal :=
  .next (silenceExpiry address s)

/-- R34: a QUERY is answered by a STATUS in RUN. -/
def queryOwner (_ : Nat) (_ : Frame) (s : State) : State :=
  if s.startup.phase = .run then askStatus s else s

/-- R34: a QUERY is received. -/
def execQueryFrame (dt : Nat) (bits : List Bool) (s : State) : Host.Outcome State Fault Refusal :=
  .next (receiveFrame 7 queryOwner bits (s.elapse dt))

/-! ## READ_PEER -/

/-- R35: READ_PEER. -/
def readPeer (a : Nat) (s : State) : Answer × State := (Answer.done (peerData s a), s)

/-- R35: panel command 21. -/
def execReadPeer (dt : Nat) (rest : PanelRest) (s : State) : Host.Outcome State Fault Refusal :=
  .next (panelCommand 21 1 addressOperand readPeer dt rest s)

end Sys2Proof.Machine
end

