-- ==== Sys2Proof/Machine/Alarms.lean ====
section
/-! DEFINITION. The commands of the Alarm Annunciator (chapter 9): the duress and tamper inputs, taking, restoring and
masking alarms, and the remote alarm list. -/

namespace Sys2Proof.Machine

/-! ## Inputs -/

/-- The filtered input of a duress button. -/
def duressPin : DuressInput → Input
  | .dur1 => .dur1
  | .dur2 => .dur2

/-- R156: a change of a duress input that is taken; one to made triggers its source. -/
def duressChange (d : DuressInput) (made : Bool) (s : State) : State :=
  if made ∧ s.running then settle (trigger (duressSource d) s) else s

/-- R156: a filtered change of DUR1 or DUR2. -/
def execDuressInputChange (event : InputEvent) (input : DuressInput) (made : Bool) (s : State) :
    Host.Outcome State Fault Refusal :=
  .next (inputEvent (duressPin input) made (duressChange input) event s)

/-- R156: a change of the tamper loop that is taken; an opening triggers TAMPER. -/
def tamperChange (isOpen : Bool) (s : State) : State :=
  if isOpen ∧ s.running then settle (trigger .tamper s) else s

/-- R156: a filtered change of the tamper loop. -/
def execTamperInputChange (event : InputEvent) (isOpen : Bool) (s : State) : Host.Outcome State Fault Refusal :=
  .next (inputEvent .tamper isOpen tamperChange event s)

/-! ## NEXT_ALARM -/

/-- The classes, the most urgent first. -/
def allClasses : List (Fin 6) := [0, 1, 2, 3, 4, 5]

/-- R157: the candidate that stands first in the rotation order of the most urgent class that has one. -/
def nextCandidate (s : State) : Option Source :=
  allClasses.findSome? (fun c => s.ann.rotation[c].find? s.isCandidate)

/-- R158: the source moves to the end of the order of class 0 or 2; the other orders stay. -/
def rotate (x : Source) (s : State) : State :=
  if x.cls = 0 ∨ x.cls = 2 then
    s.setAnn { s.ann with
      rotation := s.ann.rotation.set x.cls (s.ann.rotation[x.cls].filter (· != x) ++ [x]) }
  else s

/-- R158: the source is auto-restored on acknowledgement. -/
def autoRestored (s : State) (x : Source) : Bool := x.cls == 5 || (x.cls == 4 && s.img.autoRestore4)

/-- R158: the oldest unacknowledged DURESS entry is acknowledged. -/
def ackDuress : List RemoteEntry → List RemoteEntry
  | [] => []
  | e :: es => if e.isDuress && !e.acked then { e with acked := true } :: es else e :: ackDuress es

/-- R158: an acknowledged source other than PEER_DURESS. An auto-restored one keeps its in-service mark: DEDUCED (log
entry 24). -/
def SourceState.acknowledge (x : Source) (auto : Bool) (y : SourceState) : SourceState :=
  if auto then { y with pending := false, settled := y.settled || (x.kind == .level && y.condition) }
  else { y with pending := false, inService := true }

/-- R158: a selected source is acknowledged. -/
def acknowledge (x : Source) (s : State) : State :=
  if x = .peerDuress then rotate x (s.setAnn { s.ann with remote := ackDuress s.ann.remote })
  else rotate x (s.setSource x ((s.source x).acknowledge x (autoRestored s x)))

/-- R157: the station field of a NEXT_ALARM reply. -/
def alarmStation (s : State) (x : Source) : Nat :=
  if x = .peerDuress then (s.oldestDuress.map RemoteEntry.station).getD 0 else 0

/-- R157: NEXT_ALARM. With no candidate the source number is 255, and the reply's other fields, which the manual gives
no value for, are free (log entry 5). -/
def nextAlarm (_ : Unit) (s : State) : Answer × State :=
  match nextCandidate s with
  | some x =>
    (Answer.done (num1 x.num.val ++ num1 x.cls.val ++ num4 (s.raisedTime x) ++ num1 (alarmStation s x)),
      settle (acknowledge x s))
  | none => (Answer.done (num1 255 ++ freeBytes s.free 6), { s with free := s.free + 6 })

/-- R157: panel command 2. -/
def execNextAlarm (dt : Nat) (rest : PanelRest) (s : State) : Host.Outcome State Fault Refusal :=
  .next (panelCommand 2 0 noOperands nextAlarm dt rest s)

/-! ## RESTORE_ALARM and MASK_ALARM -/

/-- R159, case 4: a duress source whose button is made. -/
def buttonHeld (s : State) (x : Source) : Bool :=
  (x == .duress1 && s.pins.dur1) || (x == .duress2 && s.pins.dur2)

/-- R159, R164: an accepted restore; that of a duress source makes a DURESS frame. -/
def restoreSource (x : Source) (s : State) : State :=
  let t := s.setSource x { s.source x with inService := false }
  if x = .duress1 ∨ x = .duress2 then enqueue (duressFrameOf t x t.duressActive) t else t

/-- R159: RESTORE_ALARM, case by case. -/
def restoreAlarm (x : Source) (s : State) : Answer × State :=
  if x = .peerDuress ∧ s.isInService x then (Answer.plain .stillActive, s)
  else if s.isInService x = false then (Answer.plain .wrongState, s)
  else if x.kind = .level ∧ (s.source x).condition then (Answer.plain .stillActive, s)
  else if buttonHeld s x then (Answer.plain .stillActive, s)
  else (Answer.done [], settle (restoreSource x s))

/-- R159: panel command 3. -/
def execRestoreAlarm (dt : Nat) (rest : PanelRest) (s : State) : Host.Outcome State Fault Refusal :=
  .next (panelCommand 3 1 sourceOperand restoreAlarm dt rest s)

/-- R160: MASK_ALARM; a class 0 source cannot be masked. -/
def maskAlarm (x : Source × Bool) (s : State) : Answer × State :=
  if x.2 ∧ x.1.cls = 0 then (Answer.plain .isProtected, s)
  else (Answer.done [], settle (s.setSource x.1 { s.source x.1 with masked := x.2 }))

/-- R160: panel command 4. -/
def execMaskAlarm (dt : Nat) (rest : PanelRest) (s : State) : Host.Outcome State Fault Refusal :=
  .next (panelCommand 4 2 maskOperands maskAlarm dt rest s)

/-- R165: READ_SOURCES. -/
def readSources (_ : Unit) (s : State) : Answer × State := (Answer.done (sourcesData s), s)

/-- R165: panel command 5. -/
def execReadSources (dt : Nat) (rest : PanelRest) (s : State) : Host.Outcome State Fault Refusal :=
  .next (panelCommand 5 0 noOperands readSources dt rest s)

/-! ## The remote alarm list -/

/-- R166: a DURESS frame of DURESS_1 or DURESS_2 adds or removes the sender's entry; any other source is ignored. -/
def duressOwner (a : Nat) (f : Frame) (s : State) : State :=
  match f with
  | .duress source active _ =>
    if source = 4 ∨ source = 5 then
      if active then addRemote a .duress s else removeRemote a .duress s
    else s
  | .status .. => s
  | .releaseNotice .. => s
  | .releaseCall .. => s
  | .detect .. => s
  | .confirm .. => s
  | .posture .. => s
  | .query => s

/-- R166: a DURESS is received. -/
def execDuressFrame (dt : Nat) (bits : List Bool) (s : State) : Host.Outcome State Fault Refusal :=
  .next (receiveFrame 2 duressOwner bits (s.elapse dt))

/-- R167: READ_REMOTE_LIST clears the overflow mark and acknowledges the FIRST_ALARM entries it reports. -/
def markRead (s : State) : State :=
  s.setAnn { s.ann with
    overflow := false
    remote := s.ann.remote.map (fun e => if e.kind = .firstAlarm then { e with acked := true } else e) }

/-- R167: READ_REMOTE_LIST. -/
def readRemoteList (_ : Unit) (s : State) : Answer × State := (Answer.done (remoteData s), markRead s)

/-- R167: panel command 6. -/
def execReadRemoteList (dt : Nat) (rest : PanelRest) (s : State) : Host.Outcome State Fault Refusal :=
  .next (panelCommand 6 0 noOperands readRemoteList dt rest s)

end Sys2Proof.Machine
end

