-- ==== Sys2Proof/Machine/Detection.lean ====
section
/-! DEFINITION. The Detection Unit (chapter 1): pulses, readings, line faults, smoothing, stages and detection reset. -/

namespace Sys2Proof.Machine

/-! ## The reading computation -/

/-- The outcome of classifying an ended pulse (R3). -/
inductive PulseClass where
  | long
  | short
  | noise
  | valid
deriving DecidableEq, Repr

/-- R3: the first test that applies. -/
def classify (long : Bool) (w : Nat) (p : Option Nat) : PulseClass :=
  if long then .long else if w < 60 then .short else if p.any (· < 200) then .noise else .valid

/-- R4: the reading of a valid pulse. -/
def readingOf (w : Nat) : Nat := if w ≤ 99 then 0 else if w ≤ 4100 then (w - 100) / 16 else 250

/-- R11: S after a reading. -/
def smoothStep (smooth r : Nat) : Nat :=
  if smooth ≤ 16 * r then smooth + ceilDiv (16 * r - smooth) 4 else smooth - ceilDiv (smooth - 16 * r) 4

/-- R8: the line detects a fault condition. -/
def Line.detectFault (k : FaultKind) (x : Line) : Line :=
  if x.fault = .noFault then
    { x with
      fault := k, entries := min (x.entries + 1) 255, clearing := 0, count := 0
      stage := if x.stage = .alarm then .alarm else .fault }
  else { x with fault := k, clearing := 0 }

/-- R9: a discard while in fault sets the clearing count to 0. -/
def Line.interruptClearing (x : Line) : Line := if x.fault = .noFault then x else { x with clearing := 0 }

/-- R5: a short discard. -/
def Line.shortDiscard (x : Line) : Line :=
  let x := { x.interruptClearing with noiseRun := 0 }
  if x.shortRun + 1 = 3 then { x.detectFault .short with shortRun := 0 } else { x with shortRun := x.shortRun + 1 }

/-- R5: a noise discard. -/
def Line.noiseDiscard (x : Line) : Line :=
  let x := { x.interruptClearing with shortRun := 0 }
  if x.noiseRun + 1 = 3 then { x.detectFault .noisy with noiseRun := 0 } else { x with noiseRun := x.noiseRun + 1 }

/-- R5: a long discard. -/
def Line.longDiscard (x : Line) : Line := { x.interruptClearing with shortRun := 0, noiseRun := 0 }

/-- R9, R18: the stage a line returns to by its held level. -/
def stageByLevel (c : LineCfg) (seeded : Bool) (level : Nat) : LineStage :=
  if seeded && c.wt ≤ level then .watch else .quiet

/-- R9: a valid pulse while in fault; the fourth in a row clears the fault. -/
def Line.countClearing (c : LineCfg) (x : Line) : Line :=
  if x.clearing + 1 = 4 then
    { x with
      fault := .noFault, clearing := 0
      stage := if x.stage = .fault then stageByLevel c x.seeded x.level else x.stage
      refill := x.refill || x.seeded }
  else { x with clearing := x.clearing + 1 }

/-- R10: the first processed reading seeds the line. -/
def Line.seed (r : Nat) (x : Line) : Line :=
  { x with smooth := 16 * r, ring := List.replicate 8 (16 * r), level := r, rise := 0, seeded := true }

/-- R12: the ring that a reading's rise is measured against. -/
def Line.ringBefore (x : Line) : List Nat := if x.refill then List.replicate 8 x.smooth else x.ring

/-- R11, R12: a later reading moves S, and the level, the rise and the ring follow. -/
def Line.track (r : Nat) (x : Line) : Line :=
  { x with
    smooth := smoothStep x.smooth r, level := smoothStep x.smooth r / 16
    rise := (smoothStep x.smooth r : Int) - (x.ringBefore.headD 0 : Int)
    ring := x.ringBefore.drop 1 ++ [smoothStep x.smooth r], refill := false }

/-- R14: the verification count after a reading. -/
def nextCount (c : LineCfg) (x : Line) : Nat := if x.effAlarm ≤ x.level then min (x.count + 1) c.v else 0

/-- R14: the stage of a QUIET or WATCH line after a reading, its count taken. -/
def decidedStage (c : LineCfg) (x : Line) : LineStage :=
  if x.effAlarm ≤ x.level then if x.count = c.v then .alarm else .watch
  else if c.wt ≤ x.level ∨ (c.qt ≠ 0 ∧ (c.qt : Int) ≤ x.rise) then .watch else .quiet

/-- R14, R15: the count and, unless latched, the stage after a processed reading. -/
def Line.decide (c : LineCfg) (x : Line) : Line :=
  let x := { x with count := nextCount c x }
  match x.stage with
  | .quiet => { x with stage := decidedStage c x }
  | .watch => { x with stage := decidedStage c x }
  | .alarm => x
  | .fault => x

/-- R4, R9 to R15: a valid pulse. -/
def Line.validPulse (c : LineCfg) (r : Nat) (x : Line) : Line :=
  let x := { x with shortRun := 0, noiseRun := 0, lastReading := r }
  if x.fault = .noFault then ((if x.seeded then x.track r else x.seed r)).decide c else x.countClearing c

/-- R2 to R15: a pulse ends with width `w` and period `p`. -/
def Line.endPulse (c : LineCfg) (long : Bool) (w : Nat) (p : Option Nat) (x : Line) : Line :=
  let x := { x with pulse := none, lastWidth := w, lastPeriod := min (p.getD 0) 65535 }
  match classify long w p with
  | .long => x.longDiscard
  | .short => x.shortDiscard
  | .noise => x.noiseDiscard
  | .valid => x.validPulse c (readingOf w)

/-! ## What a line hands on -/

/-- R16, R20: the DETECT frame of a line. -/
def detectFrameOf (s : State) (l : Fin 4) (active : Bool) : Frame :=
  .detect (BitVec.ofNat 4 s.area) l (byteOf (s.lineCfg l).group.num) active (byteOf (s.line l).level)

/-- R16: a line has become ALARM: a local detection and a DETECT frame, unless the role is NONE. -/
def alarmEntered (l : Fin 4) (s : State) : State :=
  if s.role = .noArea then s
  else enqueue (detectFrameOf s l true) (detect false s.address l (s.lineCfg l).group s)

/-- A line takes its new state, and R16 follows when it became ALARM. -/
def putLine (l : Fin 4) (x : Line) (s : State) : State :=
  if (s.line l).stage ≠ .alarm ∧ x.stage = .alarm then alarmEntered l (s.setLine l x) else s.setLine l x

/-! ## Edges and timers -/

/-- The level of a detector input becomes `high`. -/
def setDet (l : Fin 4) (high : Bool) (s : State) : State := s.setPins { s.pins with det := s.pins.det.set l high }

/-- R1: the line is measured: enabled, and the Detection Unit runs. -/
def State.measures (s : State) (l : Fin 4) : Bool := s.running && (s.lineCfg l).enable

/-- R2, R6, R7: a rising edge starts a pulse and both timers. -/
def Line.rising (now : Nat) (x : Line) : Line :=
  { x with
    pulse := some { rise := now, period := x.lastRise.map (fun t => (now - t) / 1000) }
    lastRise := some now, openTimer := some (now + Config.openTime), stuck := some (now + Config.stuckTime) }

/-- R2: a rising edge on a line that was low. -/
def risingEdge (l : Fin 4) (s : State) : State :=
  if s.pins.det[l] then s
  else if s.measures l then (setDet l true s).setLine l ((s.line l).rising s.now)
  else setDet l true s

/-- R2: a rising edge on a detector line. -/
def execDetectorRisingEdge (dt : Nat) (line : Fin 4) (s : State) : Host.Outcome State Fault Refusal :=
  .next (risingEdge line (s.elapse dt))

/-- R2: a falling edge ends the pulse in progress, if any, and stops the stuck timer. A pulse that has been high for
4500 µs has ended as long. DEDUCED (log entry 10). -/
def Line.falling (c : LineCfg) (now : Nat) (x : Line) : Line :=
  match x.pulse with
  | none => { x with stuck := none }
  | some p =>
    if Config.longPulse ≤ now - p.rise then { x with stuck := none }.endPulse c true Config.longPulse p.period
    else { x with stuck := none }.endPulse c false (now - p.rise) p.period

/-- R2: a falling edge on a line that was high. -/
def fallingEdge (l : Fin 4) (s : State) : State :=
  if s.pins.det[l] then
    if s.measures l then settle (putLine l ((s.line l).falling (s.lineCfg l) s.now) (setDet l false s))
    else setDet l false s
  else s

/-- R2: a falling edge on a detector line. -/
def execDetectorFallingEdge (dt : Nat) (line : Fin 4) (s : State) : Host.Outcome State Fault Refusal :=
  .next (fallingEdge line (s.elapse dt))

/-- R2, R3: the pulse ends as a long pulse. -/
def longPulse (l : Fin 4) (s : State) : State :=
  match (s.line l).pulse with
  | none => s
  | some p =>
    settle (putLine l ((s.line l).endPulse (s.lineCfg l) true Config.longPulse p.period)
      (s.reach (p.rise + Config.longPulse)))

/-- R2: the line has been high for 4500 µs. -/
def execLongPulse (line : Fin 4) (s : State) : Host.Outcome State Fault Refusal := .next (longPulse line s)

/-- R6: the stuck timer expires with the line still high. -/
def stuckTimerExpiry (l : Fin 4) (s : State) : State :=
  match (s.line l).stuck with
  | none => s
  | some t =>
    if s.pins.det[l] then settle ((s.reach t).setLine l ({ s.line l with stuck := none }.detectFault .stuck))
    else (s.reach t).setLine l { s.line l with stuck := none }

/-- R6: the stuck timer expires. -/
def execStuckTimerExpiry (line : Fin 4) (s : State) : Host.Outcome State Fault Refusal :=
  .next (stuckTimerExpiry line s)

/-- R7: the open timer expires; on a high line that has no effect. -/
def openTimerExpiry (l : Fin 4) (s : State) : State :=
  match (s.line l).openTimer with
  | none => s
  | some t =>
    if s.pins.det[l] then (s.reach t).setLine l { s.line l with openTimer := none }
    else settle ((s.reach t).setLine l ({ s.line l with openTimer := none }.detectFault .opened))

/-- R7: the open timer expires. -/
def execOpenTimerExpiry (line : Fin 4) (s : State) : Host.Outcome State Fault Refusal :=
  .next (openTimerExpiry line s)

/-! ## Detection reset and report -/

/-- The outcomes of a line's reset (R18, R19). -/
inductive ResetOutcome where
  | reset
  | stillActive
  | notInAlarm
deriving DecidableEq, Repr

/-- The outcome codes of R188. -/
def ResetOutcome.code : ResetOutcome → Nat
  | .reset => 0
  | .stillActive => 1
  | .notInAlarm => 2

/-- R18: the test of a line's reset. -/
def resetOutcome (s : State) (l : Fin 4) : ResetOutcome :=
  if (s.line l).stage = .alarm then if (s.line l).level < (s.line l).effAlarm then .reset else .stillActive
  else .notInAlarm

/-- R18: a line after an accepted reset. -/
def Line.resetAlarm (c : LineCfg) (x : Line) : Line :=
  { x with
    count := 0
    stage := if x.fault = .noFault then (if c.wt ≤ x.level then .watch else .quiet) else .fault }

/-- R20: an accepted reset of a line hands on a withdrawal and a DETECT frame, unless the role is NONE. -/
def resetAccepted (l : Fin 4) (s : State) : State :=
  let s := s.setLine l ((s.line l).resetAlarm (s.lineCfg l))
  if s.role = .noArea then s else enqueue (detectFrameOf s l false) (withdraw s.address l s)

/-- R18: the reset of one line. -/
def resetLine (s : State) (l : Fin 4) : State := if resetOutcome s l = .reset then resetAccepted l s else s

/-- R18, R19: RESET_DETECTION for one line, or for all. A line's outcome does not depend on the others'. -/
def resetDetection : Option (Fin 4) → State → Answer × State
  | some l, s =>
    if resetOutcome s l = .stillActive then (Answer.plain .stillActive, s)
    else (Answer.done (num1 (resetOutcome s l).code), settle (resetLine s l))
  | none, s =>
    (Answer.done (allLines.flatMap (fun l => num1 (resetOutcome s l).code)), settle (allLines.foldl resetLine s))

/-- R18, R19: panel command 12. -/
def execResetDetection (dt : Nat) (rest : PanelRest) (s : State) : Host.Outcome State Fault Refusal :=
  .next (panelCommand 12 1 linesOperand resetDetection dt rest s)

/-- R21: READ_DETECTOR. -/
def readDetector (l : Fin 4) (s : State) : Answer × State := (Answer.done (lineData s l), s)

/-- R21: panel command 13. -/
def execReadDetector (dt : Nat) (rest : PanelRest) (s : State) : Host.Outcome State Fault Refusal :=
  .next (panelCommand 13 1 lineOperand readDetector dt rest s)

end Sys2Proof.Machine
end

