-- ==== Sys2Proof/Machine/Startup.lean ====
section
/-! DEFINITION. Start-up and Time Base (chapter 12): the resets, the image load and what every block takes at its end,
the clock, and joining. -/

namespace Sys2Proof.Machine

/-- R192: what a reset leaves: every block as its chapter gives for after reset. The pins are the world's, the waiting
commands and the free values used are the model's, and all three stay; no input is filtered, so each reads as its pin
stands. DESIGN CHOICE (log entry 3). A reset is one event from its start to its end: the hold while RESETN is low has no
state of its own, and INIT's 1 ms runs from the command. DESIGN CHOICE (log entry 33). -/
def resetKeeping (cold : Bool) (s : State) : State :=
  { State.reset with
    startup := { State.reset.startup with coldStart := cold }, pins := s.pins.standing, free := s.free, pending := s.pending }

/-- R192: a power-on reset sets the cold-start flag. -/
def execPowerOnReset (s : State) : Host.Outcome State Fault Refusal := .next (resetKeeping true s)

/-- R192: a pin reset leaves the cold-start flag as it was. -/
def execPinReset (s : State) : Host.Outcome State Fault Refusal := .next (resetKeeping s.startup.coldStart s)

/-- R192: INIT ends. -/
def initExpiry (s : State) : State :=
  match s.startup.phase, s.startup.initTimer with
  | .init, some t => (s.reach t).setStartup { s.startup with phase := .load, initTimer := none }
  | _, _ => s

/-- R192: 1 ms after INIT began, the phase becomes LOAD. -/
def execInitExpiry (s : State) : Host.Outcome State Fault Refusal := .next (initExpiry s)

/-! ## The end of LOAD -/

/-- R198: JOIN is entered and the join timer starts. -/
def enterJoin (s : State) : State :=
  s.setStartup { s.startup with phase := .join, limit := none, join := some (s.now + Config.joinTime) }

/-- R196: CLOCK goes straight to JOIN without a reference; with one, stabilisation starts. -/
def enterClock (s : State) : State :=
  if s.img.externalRef then
    s.setStartup { s.startup with stable := 0, limit := some (s.now + Config.clockLimit) }
  else enterJoin s

/-- R6, R7, R22: a line at the end of LOAD. -/
def startLine (i : Image) (now : Nat) (high : Bool) (c : LineCfg) (x : Line) : Line :=
  { x with
    effAlarm := effectiveAlarm c i.ko i.startPosture
    openTimer := if c.enable then some (now + Config.openTime) else none
    stuck := if c.enable && high then some (now + Config.stuckTime) else none }

/-- R6, R7, R22: the lines at the end of LOAD. -/
def startLines (s : State) : State :=
  s.setLines (Vector.ofFn (fun l : Fin 4 => startLine s.img s.now s.pins.det[l] (s.lineCfg l) (s.line l)))

/-- R80: a present door takes its contact and request-to-exit input as they stand. -/
def startDoor (d : DoorId) (isOpen made : Bool) (s : State) : State :=
  if (s.door d).absent then s
  else
    let s := s.setDoor d { s.door d with contactOpen := isOpen, rex := made }
    if isOpen then enterHeldOpen d s else s

/-- R80, R81: the doors at the end of LOAD. -/
def startDoors (s : State) : State :=
  startDoor .b s.pins.dcbOpen s.pins.rexB
    (startDoor .a s.pins.dcaOpen s.pins.rexA (s.setDoor .b { s.door .b with absent := !s.img.twoDoors }))

/-- R58, R73, R53: the call of a member's ABORT input; 1 ABORT_ON, 2 ABORT_OFF. -/
def abortCall (made : Bool) (s : State) : State :=
  enqueue (.releaseCall (byteOf s.area) (if made then 1 else 2)) s

/-- R53, R58, R73: what a made or broken ABORT input does, by role. -/
def abortInput (made : Bool) (s : State) : State :=
  match s.role with
  | .release => if made then abortJoin s.address s else abortLeave s.address s
  | .member => abortCall made s
  | .noArea => s

/-- R53, R156: the inputs found made or open at the end of LOAD. Their order, with DUR1 before DUR2, is a DESIGN CHOICE
(log entry 21). -/
def startInputs (s : State) : State :=
  let s := if s.pins.abort then abortInput true s else s
  let s := if s.pins.manrel then trigger .manualRelease s else s
  let s := if s.pins.dur1 then trigger .duress1 s else s
  let s := if s.pins.dur2 then trigger .duress2 s else s
  if s.pins.tamperOpen then trigger .tamper s else s

/-- R145, R147: one output line is driven from its entry and its comparison begins. -/
def startOutput (s : State) (l : Fin 12) : State :=
  s.setOutput l (compareOutput s.now { s.output l with driven := s.driveLevel l } s.pins.sense[l])

/-- R143: the output lines at the end of LOAD. -/
def startOutputs (s : State) : State := allOutputs.foldl startOutput s

/-- R136, R193: the image is kept, LOAD ends, and the view takes the start posture, which hands nothing on. -/
def keepImage (i : Image) (s : State) : State :=
  let s := { s with image := some i, loadEnd := s.now }
  let s := s.setStartup { s.startup with phase := .clock, loadResult := .ok }
  s.setPosture { s.posture with
    view := { s.posture.view with posture := i.startPosture }, effective := i.startPosture }

/-- R193: a successful LOAD ends: every block takes its image fields. -/
def endLoad (i : Image) (s : State) : State :=
  settle (enterClock (startOutputs (startInputs (startDoors (startLines (keepImage i s))))))

/-- R193 to R195: the image is checked; the first failure leads to CONFIG_FAULT. -/
def imageLoaded (m : Vector Byte 96) (s : State) : State :=
  match s.startup.phase with
  | .load =>
    if imageCheck m = .ok then endLoad (imageOf m) s
    else s.setStartup { s.startup with phase := .configFault, loadResult := imageCheck m }
  | .init => s
  | .configFault => s
  | .clock => s
  | .join => s
  | .run => s

/-- R193: the 96-byte read finishes; outside LOAD none is made. -/
def execImageLoadComplete (dt : Nat) (image : Vector Byte 96) (s : State) : Host.Outcome State Fault Refusal :=
  .next (imageLoaded image (s.elapse dt))

/-! ## The clock -/

/-- R196: the limit runs: the reference is being stabilised. -/
def State.stabilising (s : State) : Bool := s.startup.phase == .clock && s.startup.limit.isSome

/-- R196: one reference cycle; at 16384 the time base switches and JOIN is entered. The 1 ms without an edge is measured
outside the model, so a cycle that comes 1 ms or more after the event before it still adds one. DESIGN CHOICE (log
entry 32). -/
def referenceCycle (s : State) : State :=
  if s.stabilising then
    if s.startup.stable + 1 = Config.stableCount then
      settle (enterJoin (s.setStartup { s.startup with stable := s.startup.stable + 1, clock := .external }))
    else s.setStartup { s.startup with stable := s.startup.stable + 1 }
  else s

/-- R196: one reference cycle on XIN. -/
def execReferenceCycle (dt : Nat) (s : State) : Host.Outcome State Fault Refusal :=
  .next (referenceCycle (s.elapse dt))

/-- R196: the count returns to 0, whenever the command says that 1 ms has passed without an edge: State holds no time of
the last edge. DESIGN CHOICE (log entry 32). -/
def referenceGap (s : State) : State :=
  if s.stabilising then s.setStartup { s.startup with stable := 0 } else s

/-- R196: 1 ms without a reference edge. -/
def execReferenceGap (dt : Nat) (s : State) : Host.Outcome State Fault Refusal := .next (referenceGap (s.elapse dt))

/-- R196: the limit expires first: the station stays internal, CLOCK_FALLBACK becomes true, and JOIN is entered. -/
def clockLimitExpiry (s : State) : State :=
  match s.startup.phase, s.startup.limit with
  | .clock, some t => settle (enterJoin ((s.reach t).setStartup { s.startup with fallback := true }))
  | _, _ => s

/-- R196: the 50 ms limit expires. -/
def execClockLimitExpiry (s : State) : Host.Outcome State Fault Refusal := .next (clockLimitExpiry s)

/-- R197: the time base falls back; the 1 ms that the reference missed is added to it, so every timer counts it.
DEDUCED (log entry 17). That 1 ms passed without an edge is taken as told. DESIGN CHOICE (log entry 32). -/
def clockFallback (s : State) : State :=
  if s.startup.clock = .external then
    settle ((s.elapse Config.fallbackGap).setStartup { s.startup with clock := .internal, fallback := true })
  else s

/-- R197: 1 ms without a reference edge while running on the reference. -/
def execClockFallback (dt : Nat) (s : State) : Host.Outcome State Fault Refusal := .next (clockFallback (s.elapse dt))

/-! ## Joining -/

/-- R69, R181, R198: RUN is entered: the first-status delay starts and a release station makes its notice. -/
def enterRun (s : State) : State :=
  let s := s.setStartup { s.startup with phase := .run, join := none }
  let s := s.setBus { s.bus with firstStatus := some (s.now + s.address * Config.firstStatusUnit) }
  if s.role = .release then sendNotice s else s

/-- R198: the join timer expires: a QUERY is enqueued and the phase becomes RUN. -/
def joinTimerExpiry (s : State) : State :=
  match s.startup.phase, s.startup.join with
  | .join, some t => settle (enterRun (enqueue .query (s.reach t)))
  | _, _ => s

/-- R198: the join timer expires. -/
def execJoinTimerExpiry (s : State) : Host.Outcome State Fault Refusal := .next (joinTimerExpiry s)

end Sys2Proof.Machine
end

