-- ==== Sys2Proof/Machine/Discharge.lean ====
section
/-! DEFINITION. The commands whose effect is the Suppression Sequencer's (chapters 3 and 4): detections and calls from
the bus, the abort, manual release, flow and valve circuit inputs, the sequence's timers, and the panel's reset and
isolation. -/

namespace Sys2Proof.Machine

/-! ## The coincidence list -/

/-- R38, R43: a DETECT of the own area is a remote detection or a withdrawal. -/
def detectOwner (a : Nat) (f : Frame) (s : State) : State :=
  match f with
  | .detect area line group active _ =>
    if s.role ≠ .noArea ∧ area.toNat = s.area then
      match Group.ofNat? group.toNat with
      | some g => if active then detect false a line g s else withdraw a line s
      | none => s
    else s
  | .status .. => s
  | .releaseNotice .. => s
  | .releaseCall .. => s
  | .duress .. => s
  | .confirm .. => s
  | .posture .. => s
  | .query => s

/-- R38, R43: a DETECT is received. -/
def execDetectFrame (dt : Nat) (bits : List Bool) (s : State) : Host.Outcome State Fault Refusal :=
  .next (receiveFrame 3 detectOwner bits (s.elapse dt))

/-- The window of an unconsumed entry of the list. -/
def windowOf (list : List Detection) (station : Nat) (line : Fin 4) : Option Nat :=
  (list.find? (fun e => e.names station line && !e.consumed)).bind Detection.window

/-- R44: the window expires and the entry leaves the list. -/
def windowExpiry (station : Nat) (line : Fin 4) (s : State) : State :=
  match windowOf s.seq.list station line with
  | none => s
  | some t => settle (dropDetection station line (s.reach t))

/-- R44: the window timer of an unconsumed entry expires. -/
def execWindowTimerExpiry (station : Nat) (line : Fin 4) (s : State) : Host.Outcome State Fault Refusal :=
  .next (windowExpiry station line s)

/-! ## Abort and manual release -/

/-- R58, R73: a change of ABORT that is taken. -/
def abortChange (made : Bool) (s : State) : State := if s.running then settle (abortInput made s) else s

/-- R58, R73: a filtered change of ABORT. -/
def execAbortInputChange (event : InputEvent) (made : Bool) (s : State) : Host.Outcome State Fault Refusal :=
  .next (inputEvent .abort made abortChange event s)

/-- R58, R63: what a call does, by its value. -/
def actOnCall (a : Nat) (call : Byte) (s : State) : State :=
  match call.toNat with
  | 0 => manualRelease s
  | 1 => abortJoin a s
  | 2 => abortLeave a s
  | _ => s

/-- R58, R63: the calls a release station takes; others are ignored. What follows from hearing the sender (R24, R56)
follows before the call acts, so that COUNTDOWN takes a countdown which the call ends at once (R154): DEDUCED (log entry
34). -/
def callOwner (a : Nat) (f : Frame) (s : State) : State :=
  match f with
  | .releaseCall area call =>
    if s.role = .release ∧ area.toNat = s.area then actOnCall a call (settle s) else s
  | .status .. => s
  | .releaseNotice .. => s
  | .duress .. => s
  | .detect .. => s
  | .confirm .. => s
  | .posture .. => s
  | .query => s

/-- R58, R63: a RELEASE_CALL is received. -/
def execReleaseCallFrame (dt : Nat) (bits : List Bool) (s : State) : Host.Outcome State Fault Refusal :=
  .next (receiveFrame 1 callOwner bits (s.elapse dt))

/-- R64: MANREL is made: the source is raised, and the role decides the rest. -/
def manualPress (s : State) : State :=
  match s.role with
  | .release => manualRelease (trigger .manualRelease s)
  | .member => enqueue (.releaseCall (byteOf s.area) 0) (trigger .manualRelease s)
  | .noArea => trigger .manualRelease s

/-- R64: a change of MANREL that is taken; only one to made acts. -/
def manrelChange (made : Bool) (s : State) : State := if made ∧ s.running then settle (manualPress s) else s

/-- R64: a filtered change of MANREL. -/
def execManrelMade (event : InputEvent) (made : Bool) (s : State) : Host.Outcome State Fault Refusal :=
  .next (inputEvent .manrel made manrelChange event s)

/-- R61: the abort stuck timer expires: ABORT_STUCK is raised and the stage is unchanged. -/
def abortStuckExpiry (s : State) : State :=
  match s.seq.abortStuck with
  | none => s
  | some t => settle (trigger .abortStuck ((s.reach t).setSeq { s.seq with abortStuck := none }))

/-- R61: the abort stuck timer expires. -/
def execAbortStuckExpiry (s : State) : Host.Outcome State Fault Refusal := .next (abortStuckExpiry s)

/-! ## Countdown, valve, flow and soak -/

/-- R57: remaining reaches 0 in COUNTDOWN. -/
def countdownExpiry (s : State) : State :=
  match s.seq.stage, s.seq.countdown with
  | .countdown, some t => settle (enterReleasing (s.reach t))
  | _, _ => s

/-- R57: remaining reaches 0. -/
def execCountdownExpiry (s : State) : Host.Outcome State Fault Refusal := .next (countdownExpiry s)

/-- R65: the delay expires in RELEASING and the valve is energised. -/
def valveDelayExpiry (s : State) : State :=
  match s.seq.stage, s.seq.valveDelay with
  | .releasing, some t => settle (energiseValve (s.reach t))
  | _, _ => s

/-- R65: the valve delay expires. -/
def execValveDelayExpiry (s : State) : Host.Outcome State Fault Refusal := .next (valveDelayExpiry s)

/-- R65, R67: the pulse ends: the valve is de-energised, DISCHARGED is entered and the soak timer starts. -/
def endValvePulse (s : State) : State :=
  enterStage .discharged (s.setSeq { s.seq with
    valve := false, valvePulse := none, soak := some (s.now + Config.sec s.img.ts) })

/-- R65: the pulse expires in RELEASING. -/
def valvePulseExpiry (s : State) : State :=
  match s.seq.stage, s.seq.valvePulse with
  | .releasing, some t => settle (endValvePulse (s.reach t))
  | _, _ => s

/-- R65: the valve pulse expires. -/
def execValvePulseExpiry (s : State) : Host.Outcome State Fault Refusal := .next (valvePulseExpiry s)

/-- R66: a change of FLOW that is taken: made while the wait runs, flow is confirmed. -/
def flowChange (made : Bool) (s : State) : State :=
  if made ∧ s.running ∧ s.seq.flowWait.isSome then settle (confirmFlow s) else s

/-- R66: a filtered change of FLOW. -/
def execFlowMade (event : InputEvent) (made : Bool) (s : State) : Host.Outcome State Fault Refusal :=
  .next (inputEvent .flow made flowChange event s)

/-- R66: the wait expires: RELEASE_FAILURE is raised and flow confirmed stays clear. -/
def flowWaitExpiry (s : State) : State :=
  match s.seq.flowWait with
  | none => s
  | some t => settle (trigger .releaseFailure ((s.reach t).setSeq { s.seq with flowWait := none }))

/-- R66: the flow wait expires. -/
def execFlowWaitExpiry (s : State) : Host.Outcome State Fault Refusal := .next (flowWaitExpiry s)

/-- R67: the soak timer expires in DISCHARGED and the stage becomes VENTED. -/
def soakExpiry (s : State) : State :=
  match s.seq.stage, s.seq.soak with
  | .discharged, some t => settle (enterStage .vented ((s.reach t).setSeq { s.seq with soak := none }))
  | _, _ => s

/-- R67: the soak timer expires. -/
def execSoakTimerExpiry (s : State) : Host.Outcome State Fault Refusal := .next (soakExpiry s)

/-- R68: a change of VSUP; the condition follows the level. -/
def vsupLevel (isOpen : Bool) (s : State) : State := settle (s.setPins { s.pins with vsupOpen := isOpen })

/-- R68: a change of VSUP. -/
def execVsupChange (dt : Nat) (isOpen : Bool) (s : State) : Host.Outcome State Fault Refusal :=
  .next (vsupLevel isOpen (s.elapse dt))

/-- R69: the notice timer expires: a notice, and the timer starts again. -/
def noticeExpiry (s : State) : State :=
  match s.seq.notice with
  | none => s
  | some t => settle (sendNotice (s.reach t))

/-- R69: the notice timer expires. -/
def execNoticeTimerExpiry (s : State) : Host.Outcome State Fault Refusal := .next (noticeExpiry s)

/-! ## Reset and isolation -/

/-- R70: an own line, or a LIVE area member's announced line, is in ALARM. -/
def State.detectionActive (s : State) : Bool :=
  allLines.any (fun l => (s.line l).stage == .alarm) ||
    s.img.members.any (fun m => (s.peer m).presence == .live && (s.peer m).said.alarmMask != 0)

/-- R70: the stages in which SUPPRESSION_RESET is refused WRONG_STATE. -/
def Stage.resetRefused : Stage → Bool
  | .isolated => true
  | .releasing => true
  | .discharged => true
  | .normal => false
  | .firstAlarm => false
  | .inhibited => false
  | .held => false
  | .countdown => false
  | .vented => false

/-- R47, R70: what an accepted SUPPRESSION_RESET does before the own ABORT input is looked at. -/
def resetSequence (s : State) : State :=
  enterStage .normal (s.setSeq { s.seq with
    list := [], latch := false, abortSet := [], abortStuck := none, soak := none, flowWait := none
    flowConfirmed := false })

/-- R62, R70: an own ABORT input still made joins the emptied set. -/
def rejoinAbort (s : State) : State := if s.pins.abort then settle (abortJoin s.address s) else s

/-- R70: an accepted SUPPRESSION_RESET. What follows from the emptied abort set follows before the own address joins it, so
ABORT_HELD is withdrawn and raised anew (R154): DEDUCED (log entry 34). -/
def resetAndRejoin (s : State) : State := rejoinAbort (settle (resetSequence s))

/-- R70: SUPPRESSION_RESET. -/
def suppressionReset (_ : Unit) (s : State) : Answer × State :=
  if s.role ≠ .release then (Answer.plain .notReleaseStation, s)
  else if s.seq.stage.resetRefused then (Answer.plain .wrongState, s)
  else if s.detectionActive then (Answer.plain .detectionActive, s)
  else (Answer.done [], resetAndRejoin s)

/-- R70: panel command 14. -/
def execSuppressionReset (dt : Nat) (rest : PanelRest) (s : State) : Host.Outcome State Fault Refusal :=
  .next (panelCommand 14 0 noOperands suppressionReset dt rest s)

/-- R71: isolation on, by stage. -/
def isolateOn (s : State) : Answer × State :=
  match s.seq.stage with
  | .normal => (Answer.done [], settle (enterStage .isolated s))
  | .firstAlarm => (Answer.done [], settle (enterStage .isolated s))
  | .isolated => (Answer.done [], s)
  | .inhibited => (Answer.plain .wrongState, s)
  | .held => (Answer.plain .wrongState, s)
  | .countdown => (Answer.plain .wrongState, s)
  | .releasing => (Answer.plain .wrongState, s)
  | .discharged => (Answer.plain .wrongState, s)
  | .vented => (Answer.plain .wrongState, s)

/-- R71: isolation off, by stage. -/
def isolateOff (s : State) : Answer × State :=
  match s.seq.stage with
  | .isolated =>
    if coincidencePresent s.seq.list then (Answer.plain .detectionActive, s)
    else (Answer.done [], settle (enterStage (if s.seq.list = [] then .normal else .firstAlarm) s))
  | .normal => (Answer.done [], s)
  | .firstAlarm => (Answer.done [], s)
  | .inhibited => (Answer.plain .wrongState, s)
  | .held => (Answer.plain .wrongState, s)
  | .countdown => (Answer.plain .wrongState, s)
  | .releasing => (Answer.plain .wrongState, s)
  | .discharged => (Answer.plain .wrongState, s)
  | .vented => (Answer.plain .wrongState, s)

/-- R71: SUPPRESSION_ISOLATE. -/
def suppressionIsolate (on : Bool) (s : State) : Answer × State :=
  if s.role ≠ .release then (Answer.plain .notReleaseStation, s)
  else if on then isolateOn s else isolateOff s

/-- R71: panel command 15. -/
def execSuppressionIsolate (dt : Nat) (rest : PanelRest) (s : State) : Host.Outcome State Fault Refusal :=
  .next (panelCommand 15 1 onOffOperand suppressionIsolate dt rest s)

/-! ## Mirror and cadence -/

/-- R72: a notice of the area's release station is taken into a member's mirror. -/
def noticeOwner (a : Nat) (f : Frame) (s : State) : State :=
  match f with
  | .releaseNotice area ordinal remaining flow =>
    if s.releaseStation = some a ∧ area.toNat = s.area then
      match Stage.ofNat? ordinal.toNat with
      | some st =>
        setMirror {
          stage := st, remaining := Config.sec remaining.toNat, setAt := s.now, flow := flow
          lastNotice := some s.now } s
      | none => s
    else s
  | .status .. => s
  | .releaseCall .. => s
  | .duress .. => s
  | .detect .. => s
  | .confirm .. => s
  | .posture .. => s
  | .query => s

/-- R72: a RELEASE_NOTICE is received. -/
def execReleaseNoticeFrame (dt : Nat) (bits : List Bool) (s : State) : Host.Outcome State Fault Refusal :=
  .next (receiveFrame 0 noticeOwner bits (s.elapse dt))

/-- R74: ON and GAP follow one another. -/
def Cadence.next : Cadence → Cadence
  | .on => .gap
  | .gap => .on
  | .off => .off

/-- R74: a phase of the pattern ends and the other begins. -/
def cadenceExpiry (s : State) : State :=
  match s.seq.phaseEnd with
  | none => s
  | some t =>
    (s.reach t).setSeq { s.seq with
      cadence := s.seq.cadence.next
      phaseEnd := s.seq.pattern.phaseTime.map ((s.reach t).now + ·) }

/-- R74: the cadence slave's phase time ends. -/
def execCadencePhaseExpiry (s : State) : Host.Outcome State Fault Refusal := .next (cadenceExpiry s)

end Sys2Proof.Machine
end

