-- ==== Sys2Proof/Machine/Doors.lean ====
section
/-! DEFINITION. The commands of the Door Controller (chapter 5): door contacts, request-to-exit, and the doors' timers. -/

namespace Sys2Proof.Machine

/-- The contact input of a door. -/
def contactInput : DoorId → Input
  | .a => .dca
  | .b => .dcb

/-- The request-to-exit input of a door. -/
def exitInput : DoorId → Input
  | .a => .rexA
  | .b => .rexB

/-- R80, R81: the Door Controller takes changes at a door: it runs, and the door is not absent. -/
def State.takesDoor (s : State) (d : DoorId) : Bool := s.running && !(s.door d).absent

/-- R84: a RELEASED door whose contact opens is OPEN, with the held timer running. -/
def passOpen (d : DoorId) (s : State) : State :=
  s.setDoor d { s.door d with
    state := .opened, contactOpen := true, strike := false, window := none
    heldTimer := some (s.now + Config.sec s.img.th) }

/-- R84, R87: a contact opens, by the door's state. -/
def openContact (d : DoorId) (s : State) : State :=
  match (s.door d).state with
  | .released => passOpen d s
  | .secure => forceDoor d s
  | .opened => s.setDoor d { s.door d with contactOpen := true }
  | .heldOpen => s.setDoor d { s.door d with contactOpen := true }
  | .forced => s.setDoor d { s.door d with contactOpen := true }

/-- R85, R86, R87, R95: a contact closes, by the door's state. The credit is consummated before the door is SECURE. -/
def closeContact (d : DoorId) (s : State) : State :=
  match (s.door d).state with
  | .opened => secureDoor d (consummate d s)
  | .heldOpen => secureDoor d (consummate d s)
  | .forced => secureDoor d s
  | .secure => s
  | .released => s

/-- R84 to R87: a contact's change that the Door Controller takes. -/
def contactChange (d : DoorId) (isOpen : Bool) (s : State) : State :=
  if s.takesDoor d then
    if isOpen then settle (openContact d s)
    else settle (closeContact d (s.setDoor d { s.door d with contactOpen := false }))
  else s

/-- R84, R87: a filtered opening of a door contact. -/
def execDoorContactOpens (event : InputEvent) (door : DoorId) (s : State) : Host.Outcome State Fault Refusal :=
  .next (inputEvent (contactInput door) true (contactChange door) event s)

/-- R85, R86, R87: a filtered closing of a door contact. -/
def execDoorContactCloses (event : InputEvent) (door : DoorId) (s : State) : Host.Outcome State Fault Refusal :=
  .next (inputEvent (contactInput door) false (contactChange door) event s)

/-- R89: the credit of a request-to-exit press. -/
def exitCredit : Credit := { kind := .exitRequest, holders := [], granted := 0 }

/-- R89: a press releases a SECURE door, whatever else holds. -/
def pressExit (d : DoorId) (s : State) : State :=
  match (s.door d).state with
  | .secure => releaseDoor d exitCredit s
  | .released => s
  | .opened => s
  | .heldOpen => s
  | .forced => s

/-- R89: a change of a request-to-exit input that the Door Controller takes; only one to made acts. -/
def exitChange (d : DoorId) (made : Bool) (s : State) : State :=
  if s.takesDoor d then
    let s := s.setDoor d { s.door d with rex := made }
    if made then settle (pressExit d s) else s
  else s

/-- R89: a filtered change of a request-to-exit input. -/
def execRequestToExitPress (event : InputEvent) (door : DoorId) (made : Bool) (s : State) :
    Host.Outcome State Fault Refusal :=
  .next (inputEvent (exitInput door) made (exitChange door) event s)

/-- R84: the release window expires: the credit is discarded and the door is SECURE. -/
def releaseExpiry (d : DoorId) (s : State) : State :=
  match (s.door d).state, (s.door d).window with
  | .released, some t => settle (secureDoor d (s.reach t))
  | _, _ => s

/-- R84: the release window expires. -/
def execReleaseWindowExpiry (door : DoorId) (s : State) : Host.Outcome State Fault Refusal :=
  .next (releaseExpiry door s)

/-- R85, R86: the held timer expires: the door is HELD_OPEN and keeps its credit. -/
def heldExpiry (d : DoorId) (s : State) : State :=
  match (s.door d).state, (s.door d).heldTimer with
  | .opened, some t => settle (enterHeldOpen d (s.reach t))
  | _, _ => s

/-- R85: the held timer expires. -/
def execHeldTimerExpiry (door : DoorId) (s : State) : Host.Outcome State Fault Refusal := .next (heldExpiry door s)

/-- R91: the wait expires: the request is discarded. -/
def waitExpiry (d : DoorId) (s : State) : State :=
  match (s.door d).request with
  | none => s
  | some r => (s.reach r.wait).setDoor d { s.door d with request := none, lastPending := .expired }

/-- R91: the wait timer of a pending request expires. -/
def execPendingWaitExpiry (door : DoorId) (s : State) : Host.Outcome State Fault Refusal := .next (waitExpiry door s)

end Sys2Proof.Machine
end

