-- ==== Sys2Proof/Machine/Entry.lean ====
section
/-! DEFINITION. The Entry Rules Unit (chapter 6): presentations, pair reservations and remote confirmations. -/

namespace Sys2Proof.Machine

/-! ## Presentations -/

/-- What a presentation is decided to be: the reply of R120, and the state. -/
structure Decision where
  /-- The result. -/
  result : Result
  /-- The tag in the reply. -/
  tag : Nat
  /-- How many holders are granted. -/
  holders : Nat
  /-- The passback mark. -/
  passback : Bool
  /-- The state after it. -/
  after : State
deriving DecidableEq, Repr

/-- A presentation that changes nothing (R103). -/
def Decision.refuse (r : Result) (s : State) : Decision :=
  { result := r, tag := 0, holders := 0, passback := false, after := s }

/-- A holder with no flags (R102, R105, R109, R117). -/
def plainHolder (id cls : Nat) : Holder := { id := id, cls := cls, escorted := false, escortCapable := false }

/-- A credit handed over; its granted time is set at the release (R82). -/
def newCredit (kind : CreditKind) (holders : List Holder) : Credit := { kind := kind, holders := holders, granted := 0 }

/-- R102: an INSIDE presentation: identified egress, decided by the doors alone. -/
def presentInside (p : Presentation) (s : State) : Decision :=
  match handCredit p.door (newCredit .egress [plainHolder p.id p.cls]) s with
  | (.busy, _) => Decision.refuse .doorBusy s
  | (.locked, _) => Decision.refuse .deniedLockout s
  | (.released, t) => { result := .grantedEgress, tag := 0, holders := 1, passback := false, after := t }
  | (.pending, t) => { result := .pendingInterlock, tag := 0, holders := 1, passback := false, after := t }

/-- R103: check 5, the class of the presenting holder. -/
def classOk (m : ModeEntry) (cls : Nat) : Bool :=
  match m.mode with
  | .free => true
  | .escorted => m.minClass ≤ cls || m.floor ≤ cls
  | .single => m.minClass ≤ cls
  | .paired => m.minClass ≤ cls
  | .pairedRemote => m.minClass ≤ cls
  | .barred => m.minClass ≤ cls

/-- R109: the reservation that a presentation would complete. -/
def completes (s : State) (p : Presentation) : Option Reservation :=
  if (s.mode p.door).mode.isPaired then (s.reservation p.door).filter (fun r => r.holder != p.id) else none

/-- R104: the holders that passback checks. -/
def passbackHolders (s : State) (p : Presentation) : List Nat :=
  p.id :: ((completes s p).map Reservation.holder).toList

/-- R104: at door A, a checked holder is on the roster. -/
def passbackHit (s : State) (p : Presentation) : Bool :=
  p.door == .a && (passbackHolders s p).any (onRoster s.roster)

/-- R104: check 7 at door A: the roster and the credit's holders exceed 16. -/
def overCapacity (s : State) (p : Presentation) : Bool :=
  p.door == .a && Config.rosterSize < s.roster.entries.length + (if (completes s p).isSome then 2 else 1)

/-- R104: PASSBACK is triggered at a grant that noted it. -/
def notePassback (hit : Bool) (s : State) : State := if hit then trigger .passback s else s

/-- R105, R109: an ENTRY credit is handed over; `result` is the result when the door is released. `hit` is the SOFT
passback noted. -/
def grantEntry (p : Presentation) (holders : List Holder) (result : Result) (tag : Nat) (hit : Bool) (s : State) :
    Decision :=
  match handCredit p.door (newCredit .entry holders) s with
  | (.busy, _) => Decision.refuse .doorBusy s
  | (.locked, _) => Decision.refuse .deniedLockout s
  | (.released, t) =>
    { result := result, tag := tag, holders := holders.length, passback := hit, after := notePassback hit t }
  | (.pending, t) =>
    { result := .pendingInterlock, tag := tag, holders := holders.length, passback := hit
      after := notePassback hit t }

/-- R106: ESCORTED: at or above the minimum an escort, below it an escortee who needs one inside. -/
def presentEscorted (p : Presentation) (hit : Bool) (s : State) : Decision :=
  if (s.mode p.door).minClass ≤ p.cls then
    grantEntry p [{ plainHolder p.id p.cls with escortCapable := true }] .granted 0 hit s
  else if s.roster.entries.any (fun e => e.holder.escortCapable) then
    grantEntry p [{ plainHolder p.id p.cls with escorted := true }] .granted 0 hit s
  else Decision.refuse .deniedNoEscort s

/-- R108: the tag after a tag, from 255 to 1. -/
def nextTag (t : Nat) : Nat := if t = 255 then 1 else t + 1

/-- R108: the reservation that a presentation makes: it takes the tag counter's value. -/
def reservationOf (p : Presentation) (s : State) : Reservation where
  holder := p.id
  cls := p.cls
  tag := s.entry.tag
  start := s.now
  window := s.now + Config.sec s.img.tp

/-- R108: a reservation is made, and the tag counter advances. -/
def reserve (p : Presentation) (s : State) : State :=
  let t := s.setReservation p.door (some (reservationOf p s))
  t.setEntry { t.entry with tag := nextTag s.entry.tag }

/-- R109: the pair is completed: the reservation leaves its slot, which is no break, and the credit names the
reserving holder first. The doors do not look at reservations, so the order of the two does not show. -/
def completePair (p : Presentation) (r : Reservation) (hit : Bool) (s : State) : Decision :=
  grantEntry p [plainHolder r.holder r.cls, plainHolder p.id p.cls] .grantedPair r.tag hit
    (s.setReservation p.door none)

/-- R108, R109, R110: the step of PAIRED and PAIRED_REMOTE. -/
def presentPaired (p : Presentation) (hit : Bool) (s : State) : Decision :=
  match s.reservation p.door with
  | none =>
    { result := .pairWaiting, tag := s.entry.tag, holders := 0, passback := false, after := reserve p s }
  | some r =>
    if r.holder = p.id then
      { result := .sameHolder, tag := r.tag, holders := 0, passback := false, after := s }
    else completePair p r hit s

/-- R103, check 8: the mode's own step. -/
def modeStep (p : Presentation) (hit : Bool) (s : State) : Decision :=
  match (s.mode p.door).mode with
  | .free => grantEntry p [plainHolder p.id p.cls] .granted 0 hit s
  | .single => grantEntry p [plainHolder p.id p.cls] .granted 0 hit s
  | .escorted => presentEscorted p hit s
  | .paired => presentPaired p hit s
  | .pairedRemote => presentPaired p hit s
  | .barred => Decision.refuse .deniedBarred s

/-- R103: an OUTSIDE presentation, check by check. -/
def presentOutside (p : Presentation) (s : State) : Decision :=
  if doorBusy s p.door then Decision.refuse .doorBusy s
  else if p.verdict ≠ .valid then Decision.refuse .deniedInvalid s
  else if (s.door p.door).lockout then Decision.refuse .deniedLockout s
  else if (s.mode p.door).mode = .barred then Decision.refuse .deniedBarred s
  else if classOk (s.mode p.door) p.cls = false then Decision.refuse .deniedClass s
  else if passbackHit s p ∧ s.img.softPassback = false then Decision.refuse .deniedPassback s
  else if overCapacity s p then Decision.refuse .deniedFull s
  else modeStep p (passbackHit s p) s

/-- R102, R103: a presentation is decided. -/
def decidePresentation (p : Presentation) (s : State) : Decision :=
  match p.side with
  | .inside => presentInside p s
  | .outside => presentOutside p s

/-- R120: the reply to a presentation, with the previous broken mark as it stands when it has been decided (R114); flags
bits 6 to 2 are 0, DESIGN CHOICE (log entry 35). -/
def presentAnswer (p : Presentation) (d : Decision) : Answer where
  result := d.result
  flags := (d.after.broken p.door).toNat + 2 * d.passback.toNat
  data := num1 (doorCode p.door) ++ num1 d.tag ++ num1 d.holders

/-- R101 to R114: a presentation is decided and answered; the mark that the reply carries is then cleared. -/
def presentCredential (p : Presentation) (s : State) : Answer × State :=
  (presentAnswer p (decidePresentation p s), settle ((decidePresentation p s).after.setBroken p.door false))

/-- R101: panel command 7. -/
def execPresentCredential (dt : Nat) (rest : PanelRest) (s : State) : Host.Outcome State Fault Refusal :=
  .next (panelCommand 7 6 presentOperands presentCredential dt rest s)

/-! ## The pair window -/

/-- R111: the window expires: the reservation is broken, and no PAIR_BROKEN is triggered. -/
def pairExpiry (d : DoorId) (s : State) : State :=
  match s.reservation d with
  | none => s
  | some r => breakAt d (s.reach r.window)

/-- R111: a pair window expires. -/
def execPairWindowExpiry (door : DoorId) (s : State) : Host.Outcome State Fault Refusal := .next (pairExpiry door s)

/-! ## Remote confirmation -/

/-- R115: CONFIRM_REMOTE places its CONFIRM frame in the transmit queue. -/
def confirmRemote (f : Frame) (s : State) : Answer × State := (Answer.plain .confirmSent, settle (enqueue f s))

/-- R115: panel command 8. -/
def execConfirmRemote (dt : Nat) (rest : PanelRest) (s : State) : Host.Outcome State Fault Refusal :=
  .next (panelCommand 8 6 confirmOperands confirmRemote dt rest s)

/-- R116: test 5. -/
def confirmDoorOk (s : State) (d : DoorId) : Bool :=
  !doorBusy s d && !(s.door d).lockout && (d == .b || s.roster.entries.length + 1 ≤ Config.rosterSize)

/-- R116: the tests in order; GRANTED when all pass. A confirmation that comes after a posture change has broken its
reservation and taken PAIRED_REMOTE away fails test 1 first, where R113 says TAG_STALE: DESIGN CHOICE (log entry 31). -/
def judgeConfirm (s : State) (d : DoorId) (tag holder cls : Nat) : ConfirmOutcome :=
  if (s.door d).absent ∨ (s.mode d).mode ≠ .pairedRemote then .notAllowed
  else
    match s.reservation d with
    | none => .tagStale
    | some r =>
      if r.tag ≠ tag then .tagStale
      else if r.holder = holder then .sameHolder
      else if cls < (s.mode d).minClass then .classLow
      else if confirmDoorOk s d then .granted
      else .notAllowed

/-- R117: the reservation is completed for its holder alone. -/
def completeConfirm (d : DoorId) (s : State) : State :=
  match s.reservation d with
  | none => s
  | some r =>
    notePassback (d == .a && s.img.softPassback && onRoster s.roster r.holder)
      (handCredit d (newCredit .entry [plainHolder r.holder r.cls]) (s.setReservation d none)).2

/-- R118: the result is recorded and a superseding STATUS asked for. -/
def recordOutcome (o : PairOutcome) (s : State) : State := askStatus (s.setEntry { s.entry with outcome := some o })

/-- R116 to R118: a confirmation is judged, on the effective posture and the reservations as they stand before what the
hearing of its sender does to the posture: DESIGN CHOICE (log entry 36). -/
def takeConfirm (d : DoorId) (tag : Byte) (holder cls : Nat) (s : State) : State :=
  recordOutcome { door := d, tag := tag, outcome := judgeConfirm s d tag.toNat holder cls }
    (if judgeConfirm s d tag.toNat holder cls = .granted then completeConfirm d s else s)

/-- R116: a CONFIRM for this station with its fields in range is judged; any other is ignored. -/
def confirmOwner (_ : Nat) (f : Frame) (s : State) : State :=
  match f with
  | .confirm target door tag holder cls =>
    match doorOfNat? door.toNat with
    | some d =>
      if target.toNat = s.address ∧ 1 ≤ tag.toNat ∧ 1 ≤ holder.toNat ∧ cls.toNat ≤ 7 then
        takeConfirm d tag holder.toNat cls.toNat s
      else s
    | none => s
  | .status .. => s
  | .releaseNotice .. => s
  | .releaseCall .. => s
  | .duress .. => s
  | .detect .. => s
  | .posture .. => s
  | .query => s

/-- R116: a CONFIRM is received. -/
def execConfirmFrame (dt : Nat) (bits : List Bool) (s : State) : Host.Outcome State Fault Refusal :=
  .next (receiveFrame 4 confirmOwner bits (s.elapse dt))

end Sys2Proof.Machine
end

