-- ==== Sys2Proof/Machine/Occupancy.lean ====
section
/-! DEFINITION. The panel commands of the Occupancy Roster (chapter 7). -/

namespace Sys2Proof.Machine

/-- R128: both doors are SECURE, or door B is absent. -/
def doorsSecure (s : State) : Bool :=
  s.doors.a.state == .secure && (s.doors.b.absent || s.doors.b.state == .secure)

/-- R128: an accepted sweep. -/
def sweep (s : State) : State := s.setRoster { entries := [], doubtful := false, cause := .noCause }

/-- R128: ZONE_SWEEP: the reply carries the entries removed, and in bit 0 of the flags whether the roster was doubtful;
the other flags bits are 0, DESIGN CHOICE (log entry 35). -/
def zoneSweep (_ : Unit) (s : State) : Answer × State :=
  if doorsSecure s then
    ({ result := .done, flags := s.roster.doubtful.toNat, data := num1 s.roster.entries.length }, settle (sweep s))
  else (Answer.plain .doorNotSecure, s)

/-- R128: panel command 10. -/
def execZoneSweep (dt : Nat) (rest : PanelRest) (s : State) : Host.Outcome State Fault Refusal :=
  .next (panelCommand 10 0 noOperands zoneSweep dt rest s)

/-- R133: READ_ROSTER. -/
def readRoster (_ : Unit) (s : State) : Answer × State := (Answer.done (rosterData s), s)

/-- R133: panel command 11. -/
def execReadRoster (dt : Nat) (rest : PanelRest) (s : State) : Host.Outcome State Fault Refusal :=
  .next (panelCommand 11 0 noOperands readRoster dt rest s)

end Sys2Proof.Machine
end

