-- ==== Sys2Proof/Machine/Outputs.lean ====
section
/-! DEFINITION. The commands of the Posture and Output Unit (chapter 8). -/

namespace Sys2Proof.Machine

/-! ## Postures -/

/-- R137: the view takes the commanded posture with the next epoch; the POSTURE frame and the STATUS follow. The effective
posture is evaluated once after them, with what a frame lost to a full queue raises (R173): DESIGN CHOICE (log entry
38). -/
def acceptPosture (p : Posture) (s : State) : State :=
  askStatus (enqueue (.posture (byteOf p.num) (s.posture.view.epoch + 1))
    (s.setPosture { s.posture with view := { posture := p, epoch := s.posture.view.epoch + 1, source := s.address } }))

/-- R137: SET_POSTURE. -/
def setPosture (p : Posture) (s : State) : Answer × State :=
  if s.img.authorities.contains s.address = false then (Answer.plain .notAuthority, s)
  else if s.startup.phase ≠ .run then (Answer.plain .wrongState, s)
  else (Answer.done [s.posture.view.epoch + 1], settle (acceptPosture p s))

/-- R137: panel command 9. -/
def execSetPosture (dt : Nat) (rest : PanelRest) (s : State) : Host.Outcome State Fault Refusal :=
  .next (panelCommand 9 1 postureOperand setPosture dt rest s)

/-- R138: a POSTURE of an authority station is tested; others, and a posture above 4, are ignored. -/
def postureOwner (a : Nat) (f : Frame) (s : State) : State :=
  match f with
  | .posture p e =>
    if s.img.authorities.contains a then
      match Posture.ofNat? p.toNat with
      | some q => adoptPosture a q e s
      | none => s
    else s
  | .status .. => s
  | .releaseNotice .. => s
  | .releaseCall .. => s
  | .duress .. => s
  | .detect .. => s
  | .confirm .. => s
  | .query => s

/-- R138: a POSTURE is received. -/
def execPostureFrame (dt : Nat) (bits : List Bool) (s : State) : Host.Outcome State Fault Refusal :=
  .next (receiveFrame 5 postureOwner bits (s.elapse dt))

/-! ## Output lines -/

/-- R146: FORCE_OUTPUT; a line that follows STAGE is protected. -/
def forceOutput (x : Fin 12 × Bool) (s : State) : Answer × State :=
  if s.img.outputs[x.1].source = .stage then (Answer.plain .isProtected, s)
  else (Answer.done [], settle (s.setOutput x.1 { s.output x.1 with forced := some x.2 }))

/-- R146: panel command 18. -/
def execForceOutput (dt : Nat) (rest : PanelRest) (s : State) : Host.Outcome State Fault Refusal :=
  .next (panelCommand 18 2 forceOperands forceOutput dt rest s)

/-- R146: RELEASE_OUTPUT. -/
def releaseOutput (l : Fin 12) (s : State) : Answer × State :=
  (Answer.done [], settle (s.setOutput l { s.output l with forced := none }))

/-- R146: panel command 19. -/
def execReleaseOutput (dt : Nat) (rest : PanelRest) (s : State) : Host.Outcome State Fault Refusal :=
  .next (panelCommand 19 1 outputOperand releaseOutput dt rest s)

/-- R148: READ_OUTPUTS. -/
def readOutputs (_ : Unit) (s : State) : Answer × State := (Answer.done (outputsData s), s)

/-- R148: panel command 20. -/
def execReadOutputs (dt : Nat) (rest : PanelRest) (s : State) : Host.Outcome State Fault Refusal :=
  .next (panelCommand 20 0 noOperands readOutputs dt rest s)

/-- R147: a change of a sense input, where it is one, is compared. -/
def senseChange (l : Fin 12) (high : Bool) (s : State) : State :=
  if s.pins.sense[l] = high then s
  else
    let t := s.setPins { s.pins with sense := s.pins.sense.set l high }
    if s.running then settle (t.setOutput l (compareOutput s.now (s.output l) high)) else t

/-- R147: a change of a GS sense input. -/
def execSenseInputChange (dt : Nat) (line : Fin 12) (high : Bool) (s : State) : Host.Outcome State Fault Refusal :=
  .next (senseChange line high (s.elapse dt))

/-- R147: the mismatch timer expires: the fault mark is set. -/
def mismatchExpiry (l : Fin 12) (s : State) : State :=
  match (s.output l).mismatch with
  | none => s
  | some t => settle ((s.reach t).setOutput l { s.output l with mismatch := none, mark := true })

/-- R147: the mismatch timer of a line expires. -/
def execMismatchTimerExpiry (line : Fin 12) (s : State) : Host.Outcome State Fault Refusal :=
  .next (mismatchExpiry line s)

end Sys2Proof.Machine
end

