-- ==== Sys2Proof/Machine/PortCommands.lean ====
section
/-! DEFINITION. The Panel Port's own commands (chapter 11): the reply read, an unknown code, GET_STATUS and the time
snapshot. -/

namespace Sys2Proof.Machine

/-- R186: a reply read of `clocked` bytes, the first `before` of them begun before the reply was formed. Those sent
0x00, and such a read does not consume the reply. -/
def readReply (clocked before : Nat) (s : State) : State :=
  if clocked = 0 then s
  else if s.portTakes then
    if s.port.state = .reply ∧ before = 0 ∧ (s.port.reply.getD []).length ≤ clocked then
      s.setPort { s.port with psdo := psdoBytes s.port before clocked, reply := none, state := .idle }
    else sendPsdo s.port before clocked s
  else s.setPort { s.port with psdo := List.replicate clocked 0 }

/-- R186: a panel frame whose first byte is 0. -/
def execReplyRead (dt : Nat) (clocked before : Nat) (s : State) : Host.Outcome State Fault Refusal :=
  .next (readReply clocked before (s.elapse dt))

/-- R187: check 1: a code of 22 to 255 is refused, and echoed as it was sent (R188). -/
def unknownCode (code : Nat) (rest : PanelRest) (s : State) : State :=
  if 22 ≤ code ∧ code ≤ 255 then commandFrame code rest (fun t => (Answer.plain .badArgument, t)) s else s

/-- R187: a command frame with an unknown code. -/
def execUnknownCommand (dt : Nat) (code : Nat) (rest : PanelRest) (s : State) : Host.Outcome State Fault Refusal :=
  .next (unknownCode code rest (s.elapse dt))

/-- R192: the cold-start flag clears once GET_STATUS has been taken; without an image seven free values are used. -/
def statusTaken (s : State) : State :=
  { s.setStartup { s.startup with coldStart := false } with free := if s.image.isSome then s.free else s.free + 7 }

/-- R189: GET_STATUS. -/
def getStatus (_ : Unit) (s : State) : Answer × State := (Answer.done (statusData s), statusTaken s)

/-- R189: panel command 1. -/
def execGetStatus (dt : Nat) (rest : PanelRest) (s : State) : Host.Outcome State Fault Refusal :=
  .next (panelCommand 1 0 noOperands getStatus dt rest s)

/-- R190: LATCH_TIMES; bit 0 of the flags says already latched, and the others are 0, DESIGN CHOICE (log entry 35). -/
def latchTimes (_ : Unit) (s : State) : Answer × State :=
  match s.port.snapshot with
  | some _ => ({ result := .done, flags := 1, data := [] }, s)
  | none => (Answer.done [], s.setPort { s.port with snapshot := some s.snapshotNow })

/-- R190: panel command 16. -/
def execLatchTimes (dt : Nat) (rest : PanelRest) (s : State) : Host.Outcome State Fault Refusal :=
  .next (panelCommand 16 0 noOperands latchTimes dt rest s)

/-- R191: READ_TIMES: the held snapshot, which is released, or the live values. -/
def readTimes (_ : Unit) (s : State) : Answer × State :=
  match s.port.snapshot with
  | some x => (Answer.done (x.data true), s.setPort { s.port with snapshot := none })
  | none => (Answer.done (s.snapshotNow.data false), s)

/-- R191: panel command 17. -/
def execReadTimes (dt : Nat) (rest : PanelRest) (s : State) : Host.Outcome State Fault Refusal :=
  .next (panelCommand 17 0 noOperands readTimes dt rest s)

end Sys2Proof.Machine
end

