-- ==== Sys2Proof/Machine/ZoneBus.lean ====
section
/-! DEFINITION. The commands of the Zone Bus Controller (chapter 10): sending, bus faults, and the STATUS timing. -/

namespace Sys2Proof.Machine

/-! ## Sending -/

/-- R174: the transmitter may begin, apart from the bus being idle. -/
def State.maySend (s : State) : Bool :=
  s.startup.phase == .run && s.bus.inFlight.isNone && s.bus.quiet.isNone && !s.bus.stuck && !s.bus.listenOnly

/-- R174: on an idle bus the head of the queue goes into the transmitter; the start bit is dominant. -/
def beginFrame (s : State) : State :=
  match s.bus.queue with
  | [] => s
  | e :: q =>
    if s.maySend ∧ s.busIdle then s.setBus { s.bus with queue := q, inFlight := some e, recessive := 0 } else s

/-- R174: the transmitter may begin, once these levels have been read. -/
def execBeginTransmission (dt : Nat) (levels : List Bool) (s : State) : Host.Outcome State Fault Refusal :=
  .next (beginFrame ((s.elapse dt).hear levels))

/-- R175: a frame that lost arbitration returns with its enqueue order; a newer entry of its superseding kind stands. -/
def returnFrame (e : QueueEntry) (s : State) : State :=
  if e.frame.supersedes && s.bus.queue.any (fun q => q.frame.kind == e.frame.kind) then s
  else overrunIf (makePlace e s.bus.queue).2 (s.setBus { s.bus with queue := (makePlace e s.bus.queue).1 })

/-- R175: arbitration is lost at a dominant bit; the frame is neither abandoned nor counted. -/
def loseArbitration (s : State) : State :=
  match s.bus.inFlight with
  | none => s
  | some e => settle (returnFrame e (s.setBus { s.bus with inFlight := none, recessive := 0 }))

/-- R175: a dominant bit is read in the arbitration field where recessive was sent. -/
def execArbitrationLoss (dt : Nat) (s : State) : Host.Outcome State Fault Refusal :=
  .next (loseArbitration (s.elapse dt))

/-- R176: the abandonment count at which a quiet spell begins. -/
def quietCount : Nat := 8

/-- R176: the frame in flight is abandoned and counted; at 8 the count returns to 0 and a quiet spell begins. -/
def abandonFrame (s : State) : State :=
  if s.bus.abandoned + 1 = quietCount then
    s.setBus { s.bus with inFlight := none, abandoned := 0, quiet := some (s.now + Config.quietTime) }
  else s.setBus { s.bus with inFlight := none, abandoned := s.bus.abandoned + 1 }

/-- R176: an own-bit error of the frame in flight, at the last of these levels. -/
def bitError (bits : List Bool) (s : State) : State :=
  match s.bus.inFlight with
  | none => s
  | some _ => settle (abandonFrame (s.hear bits))

/-- R176: a bit after the arbitration field is read back wrongly. -/
def execOwnBitError (back : ReadBack) (s : State) : Host.Outcome State Fault Refusal :=
  .next (bitError back.bits (s.elapse back.dt))

/-- R176: the quiet spell ends. -/
def quietExpiry (s : State) : State :=
  match s.bus.quiet with
  | none => s
  | some t => settle ((s.reach t).setBus { s.bus with quiet := none })

/-- R176: the quiet spell ends. -/
def execQuietSpellExpiry (s : State) : Host.Outcome State Fault Refusal := .next (quietExpiry s)

/-- R177: the frame in flight is complete, and the abandonment count becomes 0. Its levels were read back as sent. -/
def completeFrame (s : State) : State :=
  match s.bus.inFlight with
  | none => s
  | some e => (s.hear (e.frame.lineBits s.address)).setBus {
      (s.hear (e.frame.lineBits s.address)).bus with inFlight := none, abandoned := 0 }

/-- R177: the seventh end bit is read back recessive. -/
def execTransmissionComplete (dt : Nat) (s : State) : Host.Outcome State Fault Refusal :=
  .next (completeFrame (s.elapse dt))

/-! ## Stuck bus and discards -/

/-- R178: the bus is stuck, or is so no longer and idle, while the blocks run, CLOCK included: DEDUCED (log entry 23). The
phase is that at the last of the bit times: DESIGN CHOICE (log entry 39). -/
def setStuck (stuck : Bool) (s : State) : State :=
  if s.running then settle (s.setBus { s.bus with stuck := stuck, recessive := if stuck then 0 else Config.idleBits })
  else s

/-- R178: 64 consecutive dominant bit times. -/
def execBusStuck (dt : Nat) (s : State) : Host.Outcome State Fault Refusal := .next (setStuck true (s.elapse dt))

/-- R178: 128 consecutive recessive bit times. -/
def execBusStuckEnd (dt : Nat) (s : State) : Host.Outcome State Fault Refusal := .next (setStuck false (s.elapse dt))

/-- R179: a frame that fails a receive check has no effect on any block. Only time passes and its levels are read. -/
def execReceiveDiscard (dt : Nat) (bits : List Bool) (s : State) : Host.Outcome State Fault Refusal :=
  .next ((s.elapse dt).hear bits)

/-! ## STATUS timing -/

/-- R181: a STATUS is enqueued and the status timer runs for Ps. -/
def sendStatus (s : State) : State :=
  enqueue (.status s.announcement) (s.setBus { s.bus with
    announcing := true, announced := s.announcement, firstStatus := none
    statusTimer := some (s.now + s.img.period * Config.periodUnit) })

/-- R181: the first-status delay expires. -/
def firstStatusExpiry (s : State) : State :=
  match s.bus.firstStatus with
  | none => s
  | some t => settle (sendStatus (s.reach t))

/-- R181: the first-status delay expires. -/
def execFirstStatusDelayExpiry (s : State) : Host.Outcome State Fault Refusal := .next (firstStatusExpiry s)

/-- R45: the own check of one line. -/
def ownCheckLine (s : State) (l : Fin 4) : State :=
  if (s.line l).stage = .alarm then detect true s.address l (s.lineCfg l).group s else s

/-- R45: the station's own lines in ALARM that the list misses are recovered, line 0 first: DESIGN CHOICE (log
entry 21). -/
def ownCheck (s : State) : State := allLines.foldl ownCheckLine s

/-- R45, R181: the status timer expires. -/
def statusExpiry (s : State) : State :=
  match s.bus.statusTimer with
  | none => s
  | some t => settle (sendStatus (ownCheck (s.reach t)))

/-- R181: the status timer expires. -/
def execStatusTimerExpiry (s : State) : Host.Outcome State Fault Refusal := .next (statusExpiry s)

end Sys2Proof.Machine
end

