-- ==== Sys2Proof/Machine/Dispatch.lean ====
section
/-! DEFINITION. One arm per command: the meaning it calls. -/

namespace Sys2Proof.Machine

/-- The effect of one command on everything but the queue of commands that wait. -/
def exec (i : Instr) (s : State) : Host.Outcome State Fault Refusal :=
  match i with
  | .powerOnReset => Sys2Proof.Machine.execPowerOnReset s
  | .pinReset => Sys2Proof.Machine.execPinReset s
  | .initExpiry => Sys2Proof.Machine.execInitExpiry s
  | .imageLoadComplete dt m => Sys2Proof.Machine.execImageLoadComplete dt m s
  | .referenceCycle dt => Sys2Proof.Machine.execReferenceCycle dt s
  | .referenceGap dt => Sys2Proof.Machine.execReferenceGap dt s
  | .clockLimitExpiry => Sys2Proof.Machine.execClockLimitExpiry s
  | .clockFallback dt => Sys2Proof.Machine.execClockFallback dt s
  | .joinTimerExpiry => Sys2Proof.Machine.execJoinTimerExpiry s
  | .detectorRisingEdge dt l => Sys2Proof.Machine.execDetectorRisingEdge dt l s
  | .detectorFallingEdge dt l => Sys2Proof.Machine.execDetectorFallingEdge dt l s
  | .longPulse l => Sys2Proof.Machine.execLongPulse l s
  | .stuckTimerExpiry l => Sys2Proof.Machine.execStuckTimerExpiry l s
  | .openTimerExpiry l => Sys2Proof.Machine.execOpenTimerExpiry l s
  | .resetDetection dt rest => Sys2Proof.Machine.execResetDetection dt rest s
  | .readDetector dt rest => Sys2Proof.Machine.execReadDetector dt rest s
  | .statusFrame dt bits => Sys2Proof.Machine.execStatusFrame dt bits s
  | .silenceTimerExpiry a => Sys2Proof.Machine.execSilenceTimerExpiry a s
  | .queryFrame dt bits => Sys2Proof.Machine.execQueryFrame dt bits s
  | .readPeer dt rest => Sys2Proof.Machine.execReadPeer dt rest s
  | .detectFrame dt bits => Sys2Proof.Machine.execDetectFrame dt bits s
  | .windowTimerExpiry st l => Sys2Proof.Machine.execWindowTimerExpiry st l s
  | .abortInputChange e p => Sys2Proof.Machine.execAbortInputChange e p s
  | .releaseCallFrame dt bits => Sys2Proof.Machine.execReleaseCallFrame dt bits s
  | .manrelMade e p => Sys2Proof.Machine.execManrelMade e p s
  | .abortStuckExpiry => Sys2Proof.Machine.execAbortStuckExpiry s
  | .countdownExpiry => Sys2Proof.Machine.execCountdownExpiry s
  | .valveDelayExpiry => Sys2Proof.Machine.execValveDelayExpiry s
  | .valvePulseExpiry => Sys2Proof.Machine.execValvePulseExpiry s
  | .flowMade e p => Sys2Proof.Machine.execFlowMade e p s
  | .flowWaitExpiry => Sys2Proof.Machine.execFlowWaitExpiry s
  | .soakTimerExpiry => Sys2Proof.Machine.execSoakTimerExpiry s
  | .vsupChange dt o => Sys2Proof.Machine.execVsupChange dt o s
  | .noticeTimerExpiry => Sys2Proof.Machine.execNoticeTimerExpiry s
  | .suppressionReset dt rest => Sys2Proof.Machine.execSuppressionReset dt rest s
  | .suppressionIsolate dt rest => Sys2Proof.Machine.execSuppressionIsolate dt rest s
  | .releaseNoticeFrame dt bits => Sys2Proof.Machine.execReleaseNoticeFrame dt bits s
  | .cadencePhaseExpiry => Sys2Proof.Machine.execCadencePhaseExpiry s
  | .doorContactOpens e d => Sys2Proof.Machine.execDoorContactOpens e d s
  | .doorContactCloses e d => Sys2Proof.Machine.execDoorContactCloses e d s
  | .requestToExitPress e d p => Sys2Proof.Machine.execRequestToExitPress e d p s
  | .releaseWindowExpiry d => Sys2Proof.Machine.execReleaseWindowExpiry d s
  | .heldTimerExpiry d => Sys2Proof.Machine.execHeldTimerExpiry d s
  | .pendingWaitExpiry d => Sys2Proof.Machine.execPendingWaitExpiry d s
  | .presentCredential dt rest => Sys2Proof.Machine.execPresentCredential dt rest s
  | .pairWindowExpiry d => Sys2Proof.Machine.execPairWindowExpiry d s
  | .confirmRemote dt rest => Sys2Proof.Machine.execConfirmRemote dt rest s
  | .confirmFrame dt bits => Sys2Proof.Machine.execConfirmFrame dt bits s
  | .zoneSweep dt rest => Sys2Proof.Machine.execZoneSweep dt rest s
  | .readRoster dt rest => Sys2Proof.Machine.execReadRoster dt rest s
  | .setPosture dt rest => Sys2Proof.Machine.execSetPosture dt rest s
  | .postureFrame dt bits => Sys2Proof.Machine.execPostureFrame dt bits s
  | .forceOutput dt rest => Sys2Proof.Machine.execForceOutput dt rest s
  | .releaseOutput dt rest => Sys2Proof.Machine.execReleaseOutput dt rest s
  | .readOutputs dt rest => Sys2Proof.Machine.execReadOutputs dt rest s
  | .senseInputChange dt l h => Sys2Proof.Machine.execSenseInputChange dt l h s
  | .mismatchTimerExpiry l => Sys2Proof.Machine.execMismatchTimerExpiry l s
  | .duressInputChange e d p => Sys2Proof.Machine.execDuressInputChange e d p s
  | .tamperInputChange e o => Sys2Proof.Machine.execTamperInputChange e o s
  | .nextAlarm dt rest => Sys2Proof.Machine.execNextAlarm dt rest s
  | .restoreAlarm dt rest => Sys2Proof.Machine.execRestoreAlarm dt rest s
  | .maskAlarm dt rest => Sys2Proof.Machine.execMaskAlarm dt rest s
  | .readSources dt rest => Sys2Proof.Machine.execReadSources dt rest s
  | .duressFrame dt bits => Sys2Proof.Machine.execDuressFrame dt bits s
  | .readRemoteList dt rest => Sys2Proof.Machine.execReadRemoteList dt rest s
  | .beginTransmission dt levels => Sys2Proof.Machine.execBeginTransmission dt levels s
  | .arbitrationLoss dt => Sys2Proof.Machine.execArbitrationLoss dt s
  | .ownBitError back => Sys2Proof.Machine.execOwnBitError back s
  | .quietSpellExpiry => Sys2Proof.Machine.execQuietSpellExpiry s
  | .transmissionComplete dt => Sys2Proof.Machine.execTransmissionComplete dt s
  | .busStuck dt => Sys2Proof.Machine.execBusStuck dt s
  | .busStuckEnd dt => Sys2Proof.Machine.execBusStuckEnd dt s
  | .receiveDiscard dt bits => Sys2Proof.Machine.execReceiveDiscard dt bits s
  | .firstStatusDelayExpiry => Sys2Proof.Machine.execFirstStatusDelayExpiry s
  | .statusTimerExpiry => Sys2Proof.Machine.execStatusTimerExpiry s
  | .replyRead dt n b => Sys2Proof.Machine.execReplyRead dt n b s
  | .unknownCommand dt k rest => Sys2Proof.Machine.execUnknownCommand dt k rest s
  | .getStatus dt rest => Sys2Proof.Machine.execGetStatus dt rest s
  | .latchTimes dt rest => Sys2Proof.Machine.execLatchTimes dt rest s
  | .readTimes dt rest => Sys2Proof.Machine.execReadTimes dt rest s

end Sys2Proof.Machine
end

