-- ==== Sys2Proof/Machine/Timers.lean ====
section
/-! DEFINITION. The station's own timers as a list of deadlines, each with the command of its expiry. -/

namespace Sys2Proof.Machine

/-- A deadline and the command that is its expiry. -/
abbrev Due := Nat × Instr

/-- A timer that may be stopped. -/
def due (t : Option Nat) (c : Instr) : List Due := (t.map (fun t => (t, c))).toList

/-- The timers of a line: the end of a long pulse, the stuck timer and the open timer (R2, R6, R7). -/
def lineTimers (s : State) (l : Fin 4) : List Due :=
  due ((s.line l).pulse.map (fun p => p.rise + Config.longPulse)) (.longPulse l) ++
    due (s.line l).stuck (.stuckTimerExpiry l) ++ due (s.line l).openTimer (.openTimerExpiry l)

/-- The timers of start-up (R192, R196, R198). -/
def startupTimers (s : State) : List Due :=
  due s.startup.initTimer .initExpiry ++ due s.startup.limit .clockLimitExpiry ++ due s.startup.join .joinTimerExpiry

/-- The silence timers (R26). -/
def peerTimers (s : State) : List Due :=
  (List.range' 1 48).flatMap (fun a => due (s.peer a).silence (.silenceTimerExpiry a))

/-- The window timers of the coincidence list (R44). -/
def windowTimers (s : State) : List Due :=
  s.seq.list.flatMap (fun e => if e.consumed then [] else due e.window (.windowTimerExpiry e.station e.line))

/-- The Sequencer's timers (R52, R74). -/
def sequencerTimers (s : State) : List Due :=
  windowTimers s ++ due s.seq.abortStuck .abortStuckExpiry ++ due s.seq.countdown .countdownExpiry ++
    due s.seq.valveDelay .valveDelayExpiry ++ due s.seq.valvePulse .valvePulseExpiry ++
    due s.seq.flowWait .flowWaitExpiry ++ due s.seq.soak .soakTimerExpiry ++ due s.seq.notice .noticeTimerExpiry ++
    due s.seq.phaseEnd .cadencePhaseExpiry

/-- The timers at a door: release window, held timer, wait timer and pair window (R84, R85, R91, R111). -/
def doorTimers (s : State) (d : DoorId) : List Due :=
  due (s.door d).window (.releaseWindowExpiry d) ++ due (s.door d).heldTimer (.heldTimerExpiry d) ++
    due ((s.door d).request.map PendingRequest.wait) (.pendingWaitExpiry d) ++
    due ((s.reservation d).map Reservation.window) (.pairWindowExpiry d)

/-- The mismatch timers (R147). -/
def outputTimers (s : State) : List Due :=
  allOutputs.flatMap (fun l => due (s.output l).mismatch (.mismatchTimerExpiry l))

/-- The timers of the Zone Bus Controller (R176, R181). -/
def busTimers (s : State) : List Due :=
  due s.bus.quiet .quietSpellExpiry ++ due s.bus.firstStatus .firstStatusDelayExpiry ++
    due s.bus.statusTimer .statusTimerExpiry

/-- The filters of the inputs: the level that the pin has held is the one not taken yet (R53, R80, R156). -/
def inputTimers (s : State) : List Due :=
  due (s.pins.filter .dca) (if s.pins.dcaOpen then .doorContactCloses .held .a else .doorContactOpens .held .a) ++
    due (s.pins.filter .dcb) (if s.pins.dcbOpen then .doorContactCloses .held .b else .doorContactOpens .held .b) ++
    due (s.pins.filter .rexA) (.requestToExitPress .held .a (!s.pins.rexA)) ++
    due (s.pins.filter .rexB) (.requestToExitPress .held .b (!s.pins.rexB)) ++
    due (s.pins.filter .abort) (.abortInputChange .held (!s.pins.abort)) ++
    due (s.pins.filter .manrel) (.manrelMade .held (!s.pins.manrel)) ++
    due (s.pins.filter .flow) (.flowMade .held (!s.pins.flow)) ++
    due (s.pins.filter .dur1) (.duressInputChange .held .dur1 (!s.pins.dur1)) ++
    due (s.pins.filter .dur2) (.duressInputChange .held .dur2 (!s.pins.dur2)) ++
    due (s.pins.filter .tamper) (.tamperInputChange .held (!s.pins.tamperOpen))

/-- Every timer that runs. -/
def runningTimers (s : State) : List Due :=
  inputTimers s ++ startupTimers s ++ allLines.flatMap (lineTimers s) ++ peerTimers s ++ sequencerTimers s ++ doorTimers s .a ++
    doorTimers s .b ++ outputTimers s ++ busTimers s

/-- The earliest of two deadlines; the first of two at one time. -/
def earlier (x : Due) : Option Due → Due
  | none => x
  | some y => if x.1 ≤ y.1 then x else y

/-- The first of the earliest deadlines. -/
def earliest : List Due → Option Due
  | [] => none
  | x :: xs => some (earlier x (earliest xs))

/-- The expiry that comes next, when a timer runs. -/
def nextExpiry (s : State) : Option Instr := (earliest (runningTimers s)).map Prod.snd

end Sys2Proof.Machine
end

