-- ==== Sys2Proof/Machine/Step.lean ====
section
/-! DEFINITION. One step: the command at the front of the queue, or, when none waits, the station's next timer. -/

namespace Sys2Proof.Machine

/-- The command at the front of the queue is taken. With an empty queue time passes to the next of the station's own
timers and its expiry is taken; with none running the station idles (DESIGN CHOICE, log entry 7). -/
def step (s : State) : Host.Outcome State Fault Refusal :=
  match s.pending with
  | c :: rest => exec c { s with pending := rest }
  | [] =>
    match nextExpiry s with
    | some c => exec c s
    | none => .next s

/-- The command that a word spells, put at the front of the queue. The table gives no row any bits, so no word spells a
command and the state is unchanged (log entry 8). -/
def State.withFetchWord (s : State) (nbits w : Nat) : State :=
  match Sys2Proof.decodeTableWord nbits w with
  | some c => { s with pending := c :: s.pending }
  | none => s

end Sys2Proof.Machine
end

