-- ==== Sys2Proof/Safety.lean ====
section
/-! DEFINITION. What counts as a safe station, in the terms the manual's own promises use: a conjunct for each promise
that a rule makes about every state of a running station. And the terms in which a command's effect is stated: what the
hand-offs that follow an event can add to it, and which commands are panel commands and bus frames. -/

namespace Sys2Proof.Machine

/-- R52, R65: "The valve output is energised … only while its stage is RELEASING". -/
abbrev State.ValveSafe (s : State) : Prop := s.seq.valve = true → s.seq.stage = .releasing

/-- R79, R83, R84, R88: the strike of a door is on exactly while it is RELEASED. -/
abbrev Door.StrikeSafe (x : Door) : Prop := x.strike = true ↔ x.state = .released

/-- R93: under lockout no door is released for entry, and no ENTRY credit waits. -/
abbrev Door.LockoutSafe (x : Door) : Prop :=
  x.lockout = true → x.releasedForEntry = false ∧ ∀ r, x.request = some r → r.credit.kind ≠ .entry

/-- Both doors keep what R79 to R93 promise. -/
abbrev State.DoorsSafe (s : State) : Prop :=
  s.doors.a.StrikeSafe ∧ s.doors.b.StrikeSafe ∧ s.doors.a.LockoutSafe ∧ s.doors.b.LockoutSafe

/-- R122: at most 16 entries, and no two with one holder id. -/
abbrev Roster.Wf (r : Roster) : Prop :=
  r.entries.length ≤ Config.rosterSize ∧ (r.entries.map (fun e => e.holder.id)).Nodup

/-- R172: at most 6 frames, at most one STATUS and at most one RELEASE_NOTICE, the most urgent first and in order of
enqueueing within an urgency; no two frames of the queue and the transmitter have one enqueue order. -/
abbrev Bus.Wf (b : Bus) : Prop :=
  b.queue.length ≤ Config.queueSize ∧ b.queue.countP (fun e => e.frame.kind == 6) ≤ 1 ∧
    b.queue.countP (fun e => e.frame.kind == 0) ≤ 1 ∧ b.queue.Pairwise (fun e f => e.before f = true) ∧
    (b.queue.map QueueEntry.order).Nodup ∧ (∀ e ∈ b.queue, e.order < b.nextOrder) ∧
    ∀ x, b.inFlight = some x → x.order < b.nextOrder ∧ ∀ e ∈ b.queue, e.order ≠ x.order

/-- Section 3.2: at most eight entries, and no two with one station and line. -/
abbrev Sequencer.ListWf (q : Sequencer) : Prop :=
  q.list.length ≤ Config.listSize ∧ (q.list.map (fun e => (e.station, e.line))).Nodup

/-- R58: at most four addresses, each once. -/
abbrev Sequencer.AbortWf (q : Sequencer) : Prop := q.abortSet.length ≤ Config.abortSize ∧ q.abortSet.Nodup

/-- R166: at most eight entries, and no two with one station and kind. -/
abbrev Annunciator.RemoteWf (a : Annunciator) : Prop :=
  a.remote.length ≤ Config.remoteSize ∧ (a.remote.map (fun e => (e.station, e.kind))).Nodup

/-- R107, R108: tags and the tag counter are 1 to 255. -/
abbrev EntryUnit.TagWf (e : EntryUnit) : Prop :=
  1 ≤ e.tag ∧ e.tag ≤ 255 ∧ (∀ r, e.resA = some r → 1 ≤ r.tag ∧ r.tag ≤ 255) ∧
    ∀ r, e.resB = some r → 1 ≤ r.tag ∧ r.tag ≤ 255

/-- A safe station. -/
abbrev State.Safe (s : State) : Prop :=
  s.ValveSafe ∧ s.DoorsSafe ∧ s.roster.Wf ∧ s.bus.Wf ∧ s.seq.ListWf ∧ s.seq.AbortWf ∧ s.ann.RemoteWf ∧ s.entry.TagWf

/-! ## What the hand-offs after an event can do -/

/-- A line apart from its effective alarm level. -/
def Line.apart (x : Line) : Line := { x with effAlarm := 0 }

/-- `t` follows from `s` by hand-offs alone: everything they cannot reach is as it was. Not in this list is what they do
reach: the Sequencer, the doors, the reservations, the lines' effective alarm levels, the effective posture, the output
levels and their comparison, the pending marks and the level conditions of sources, and the transmit queue. -/
structure Handed (s t : State) : Prop where
  now : t.now = s.now
  loadEnd : t.loadEnd = s.loadEnd
  pins : t.pins = s.pins
  startup : t.startup = s.startup
  image : t.image = s.image
  peers : t.peers = s.peers
  roster : t.roster = s.roster
  port : t.port = s.port
  free : t.free = s.free
  pending : t.pending = s.pending
  lines : ∀ l, (t.line l).apart = (s.line l).apart
  view : t.posture.view = s.posture.view
  forced : ∀ l, (t.output l).forced = (s.output l).forced
  tag : t.entry.tag = s.entry.tag
  outcome : t.entry.outcome = s.entry.outcome
  counter : t.doors.counter = s.doors.counter
  inFlight : t.bus.inFlight = s.bus.inFlight
  abandoned : t.bus.abandoned = s.bus.abandoned
  quiet : t.bus.quiet = s.bus.quiet
  stuck : t.bus.stuck = s.bus.stuck
  recessive : t.bus.recessive = s.bus.recessive
  listenOnly : t.bus.listenOnly = s.bus.listenOnly
  firstStatus : t.bus.firstStatus = s.bus.firstStatus
  statusTimer : t.bus.statusTimer = s.bus.statusTimer
  announcing : t.bus.announcing = s.bus.announcing
  rotation : t.ann.rotation = s.ann.rotation
  remote : t.ann.remote = s.ann.remote
  overflow : t.ann.overflow = s.ann.overflow
  masked : ∀ x, (t.source x).masked = (s.source x).masked
  inService : ∀ x, (t.source x).inService = (s.source x).inService
  raisedStay : ∀ x, x.kind ≠ .level → (s.source x).pending = true → (t.source x).pending = true

/-- The area occupancy and the lockout stand as they were last handed on (R28, R75). -/
abbrev State.Calm (s : State) : Prop :=
  (s.role = .noArea ∨ s.areaOccupied = s.seq.occupied) ∧ s.lockoutStage = s.doors.a.lockout

/-- R28, R56: the hand-offs of an event do not end INHIBITED: the stage is another, the station is no release station, its
area is occupied, or the Sequencer was handed that occupancy already. -/
abbrev State.NoStart (s : State) : Prop :=
  s.seq.stage ≠ .inhibited ∨ s.role ≠ .release ∨ s.areaOccupied = true ∨ s.areaOccupied = s.seq.occupied

/-- Nothing at all is left to hand on. -/
abbrev State.Quiet (s : State) : Prop := s.Calm ∧ s.stage.pattern = s.seq.pattern ∧ s.Settled

/-- The Sequencer apart from the area occupancy it was handed and the sounder's cadence. -/
def Sequencer.apart (q : Sequencer) : Sequencer :=
  { q with occupied := true, cadence := .off, pattern := .off, phaseEnd := none }

/-- R37, R77: the area stage: the own one at a release station, the mirrored one at a member, NORMAL with role NONE. -/
def State.shownStage (s : State) : Stage :=
  if s.role = .release then s.seq.stage else if s.role = .member then s.seq.mirror.stage else .normal

/-- R74: the pattern of the sounder in a stage. -/
def soundOf (st : Stage) : Pattern :=
  if st = .firstAlarm ∨ st = .inhibited then .slow
  else if st = .countdown ∨ st = .held then .fast
  else if st = .releasing ∨ st = .discharged then .continuous
  else .off

/-- R74: the sounder from `s` to `t`: it has the stage's pattern; the same pattern runs on, and another starts at the
beginning of its ON phase. -/
structure Sounds (s t : State) : Prop where
  pattern : t.seq.pattern = soundOf t.shownStage
  same : t.seq.pattern = s.seq.pattern → t.seq.cadence = s.seq.cadence ∧ t.seq.phaseEnd = s.seq.phaseEnd
  starts : t.seq.pattern ≠ s.seq.pattern →
    t.seq.cadence = (if t.seq.pattern = .off then .off else .on) ∧
    t.seq.phaseEnd = (if t.seq.pattern = .slow then some (t.now + 1000000)
      else if t.seq.pattern = .fast then some (t.now + 250000) else none)

/-- R140: a DURESS entry of the remote list from a station within the duress scope. -/
abbrev State.ScopedDuress (s : State) : Prop :=
  ∃ e ∈ s.ann.remote, e.kind = .duress ∧
    (s.img.scope = .all ∨ s.img.scope = .sameArea ∧ e.station ∈ s.img.members)

/-- The overlay stands as it is through the hand-offs of an event: a remote request holds it, or no flagged source is one
that a hand-off can change. -/
def State.OverlayFixed (s : State) : Prop :=
  s.ScopedDuress ∨ ∀ x, s.lockdownFlag x = true → x.kind ≠ .level ∧ x ≠ .pairBroken ∧ x ≠ .occupiedAtClose ∧
    x ≠ .transmitOverrun ∧ x ≠ .discharge

/-- R13, R112, R131, R141: what the effective posture of `t` after that of `s` has handed on. A new value breaks every
reservation and sets every line's alarm level; PAIR_BROKEN is raised exactly when a reservation broke. A change from OPEN or
STAFFED to CLOSED or above raises OCCUPIED_AT_CLOSE where the roster is occupied or doubtful. Where the overlay stands, any
other change, and no change, does not, and with no change no reservation breaks but by lockout. -/
structure PostureHanded (s t : State) : Prop where
  cleared : t.posture.effective ≠ s.posture.effective → ∀ d, t.reservation d = none
  marks : ∀ d, t.broken d = (s.broken d || ((s.reservation d).isSome && (t.reservation d).isNone))
  alarms : t.posture.effective ≠ s.posture.effective → ∀ l, (t.line l).effAlarm =
    if 2 ≤ t.posture.effective.num then max ((t.lineCfg l).at_ - t.img.ko) ((t.lineCfg l).wt + 1) else (t.lineCfg l).at_
  broke : (∃ d, t.reservation d ≠ s.reservation d) → (t.source .pairBroken).pending = true
  unbroken : (∀ d, t.reservation d = s.reservation d) → t.source .pairBroken = s.source .pairBroken
  closed : s.posture.effective.num < 2 → 2 ≤ t.posture.effective.num →
    s.roster.entries ≠ [] ∨ s.roster.doubtful = true → (t.source .occupiedAtClose).pending = true
  empty : s.roster.entries = [] → s.roster.doubtful = false → t.source .occupiedAtClose = s.source .occupiedAtClose
  other : t.OverlayFixed → ¬(s.posture.effective.num < 2 ∧ 2 ≤ t.posture.effective.num) →
    t.source .occupiedAtClose = s.source .occupiedAtClose
  stays : t.OverlayFixed → t.posture.effective = s.posture.effective → s.lockoutStage = s.doors.a.lockout →
    ∀ d, t.reservation d = s.reservation d

/-- R147: a line has just been compared: it agrees with its sense input and has neither timer nor mark, or it differs and
its timer runs from now. -/
def Compared (t : State) (l : Fin 12) : Prop :=
  ((t.output l).driven = t.pins.sense[l] → (t.output l).mismatch = none ∧ (t.output l).mark = false) ∧
  ((t.output l).driven ≠ t.pins.sense[l] → (t.output l).mismatch = some (t.now + 500000))

/-- `t` is `u` after everything that follows at once from an event whose own effect led to `u`.
* The Sequencer moves only when INHIBITED ends (R56), but for the occupancy it is handed and the cadence (R74).
* The doors move only when lockout turns on or off (R75, R93).
* A reservation can only break, and its door's mark then tells it (R112).
* Every level source takes its condition (R154); OUTPUT_FAULT follows the outputs, which are driven after it.
* Every general output line is at the level that its force or its source's value now gives it (R145, R146).
* Beside a RELEASE_NOTICE and a STATUS nothing is queued, so with two places free every queued frame keeps its entry, which
  only newer content of its kind supersedes (R173).
* Nothing is left to hand on: the effective posture follows (R141), and so does OUTPUT_FAULT (R147).
* The STATUS that waits says what the state now is, where one waited or an announced field has changed (R139, R163); while
  the Sequencer stays, no other queued frame changes.
* Of the edge sources only DISCHARGE, PAIR_BROKEN, OCCUPIED_AT_CLOSE and TRANSMIT_OVERRUN can be raised (R153), DISCHARGE
  only as INHIBITED ends and TRANSMIT_OVERRUN only in a queue with fewer than two places free.
* The sounder follows the stage (R74), and what the posture hands on is said by `PostureHanded` (R112, R131).
* A line whose level changes is compared (R147); a forced line, or one with no source, that stands at its level stays.
* Where nothing was left to hand on, nothing changes. -/
structure After (u t : State) : Prop where
  handed : Handed u t
  seq : u.NoStart → t.seq.apart = u.seq.apart
  calm : u.role = .noArea ∨ u.areaOccupied = u.seq.occupied →
    t.seq.apart = u.seq.apart ∧ t.seq.occupied = u.seq.occupied
  doors : u.lockoutStage = u.doors.a.lockout → t.doors = u.doors
  reservations : ∀ d, (t.reservation d = u.reservation d ∧ t.broken d = u.broken d) ∨
    (t.reservation d = none ∧ t.broken d = true ∧ (u.reservation d).isSome = true)
  levels : u.running = true → ∀ x, x.kind = .level → x ≠ .outputFault →
    t.source x = (u.source x).follow (t.levelCondition x) u.presentTime
  lines : u.running = true → ∀ l, (t.output l).driven = t.driveLevel l
  queue : u.bus.queue.length ≤ 4 → ∀ e ∈ u.bus.queue, ∃ x ∈ t.bus.queue,
    x.order = e.order ∧ x.frame.kind = e.frame.kind ∧ (e.frame.supersedes = false → x = e)
  settled : u.running = true → t.Settled
  status : u.running = true → u.bus.announcing = true → u.bus.queue.length ≤ 4 →
    (∃ e ∈ u.bus.queue, e.frame = .status u.bus.announced) ∨ t.announcement ≠ u.bus.announced →
    ∃ e ∈ t.bus.queue, e.frame = .status t.announcement
  others : u.NoStart → u.bus.queue.length ≤ 4 → ∀ e ∈ u.bus.queue, e.frame.kind ≠ 6 → e ∈ t.bus.queue
  noMore : ∀ e ∈ t.bus.queue, e.frame.kind ≠ 0 → e.frame.kind ≠ 6 → e ∈ u.bus.queue
  edges : ∀ x : Source, x.kind ≠ .level → x ≠ .pairBroken → x ≠ .occupiedAtClose → x ≠ .transmitOverrun →
    x ≠ .discharge → t.source x = u.source x
  overrun : u.bus.queue.length ≤ 4 → t.source .transmitOverrun = u.source .transmitOverrun
  discharge : u.NoStart → t.source .discharge = u.source .discharge
  sounder : u.running = true → Sounds u t
  posture : PostureHanded u t
  compared : ∀ l, t.output l = u.output l ∨ (Compared t l ∧ ((t.output l).mark = true → (u.output l).mark = true))
  forced : ∀ l, (u.output l).driven = u.driveLevel l →
    (u.output l).forced.isSome = true ∨ u.img.outputs[l].source = .noSource → t.output l = u.output l
  quiet : u.Quiet → t = u

/-! ## What follows the state in every step -/

/-- R74: cadence and phase time fit the pattern: OFF and ON stand still, and a repeating pattern is in ON or GAP with its
phase running. -/
abbrev Sequencer.CadenceFits (q : Sequencer) : Prop :=
  (q.pattern = .off → q.cadence = .off ∧ q.phaseEnd = none) ∧
  (q.pattern = .continuous → q.cadence = .on ∧ q.phaseEnd = none) ∧
  (q.pattern = .slow ∨ q.pattern = .fast → q.cadence ≠ .off ∧ q.phaseEnd.isSome = true)

/-- R155, R162: a source asks for attention: pending, which PEER_DURESS is while a DURESS entry is unacknowledged. -/
abbrev State.Asks (s : State) (x : Source) : Prop :=
  (x ≠ .peerDuress ∧ (s.source x).pending = true) ∨
    (x = .peerDuress ∧ ∃ e ∈ s.ann.remote, e.kind = .duress ∧ e.acked = false)

/-- R140: the lockdown overlay: a flagged source of the station's own is pending or in-service, or the remote list holds a
DURESS entry in scope. -/
abbrev State.Overlaid (s : State) : Prop :=
  (∃ x ∈ Source.all, x ≠ .peerDuress ∧ s.lockdownFlag x = true ∧
    ((s.source x).pending = true ∨ (s.source x).inService = true)) ∨ s.ScopedDuress

/-- R141: the effective posture is LOCKDOWN while the overlay is on, and the view's otherwise. -/
abbrev State.PostureFollows (s : State) : Prop :=
  (s.Overlaid → s.posture.effective = .lockdown) ∧ (¬s.Overlaid → s.posture.effective = s.posture.view.posture)

/-- R17, R29, R49, R58, R68, R73, R76, R86, R147, R176, R178, R180, R196, R197: the condition of every level source. -/
abbrev State.ConditionsFollow (s : State) : Prop :=
  let holds : Source → Prop := fun x => (s.source x).condition = true
  (holds .countdown ↔ s.shownStage = .countdown ∨ s.shownStage = .held) ∧
  (holds .inhibited ↔ s.shownStage = .inhibited) ∧
  (holds .isolated ↔ s.shownStage = .isolated) ∧
  (holds .firstAlarm ↔ s.seq.list ≠ []) ∧
  (holds .abortHeld ↔ s.role = .release ∧ s.seq.abortSet ≠ [] ∨ s.role = .member ∧ s.pins.abort = true) ∧
  (holds .doorAHeld ↔ s.doors.a.state = .heldOpen) ∧
  (holds .doorBHeld ↔ s.doors.b.state = .heldOpen) ∧
  (holds .detectorWatch ↔ ∃ l, (s.lineCfg l).enable = true ∧ (s.line l).stage = .watch) ∧
  (holds .detectorFault ↔ ∃ l, (s.lineCfg l).enable = true ∧ (s.line l).fault ≠ .noFault) ∧
  (holds .releaseCircuit ↔ s.role = .release ∧ s.pins.vsupOpen = true) ∧
  (holds .peerSilent ↔
    s.startup.phase = .run ∧ s.role ≠ .noArea ∧ ∃ m ∈ s.img.members, (s.peer m).presence ≠ .live) ∧
  (holds .releaseStationLost ↔
    s.startup.phase = .run ∧ s.role = .member ∧ ∃ m ∈ s.img.members.head?, (s.peer m).presence ≠ .live) ∧
  (holds .outputFault ↔ ∃ l, (s.output l).mark = true) ∧
  (holds .busFault ↔ s.bus.quiet.isSome = true ∨ s.bus.stuck = true) ∧
  (holds .clockFallback ↔ s.startup.fallback = true) ∧
  (holds .addressClash ↔ s.bus.listenOnly = true)

/-- R28: what area occupied says: a holder on the own roster or doubt of it, or a member that is not LIVE, has sent no
STATUS, or announces doubt or a count above 0. -/
abbrev State.Occupied (s : State) : Prop :=
  s.roster.entries ≠ [] ∨ s.roster.doubtful = true ∨ ∃ m ∈ s.img.members,
    (s.peer m).presence ≠ .live ∨ (s.peer m).statusHeard = false ∨ (s.peer m).said.doubtful = true ∨
      0 < (s.peer m).said.count

/-- What follows the state. In every phase: both doors hold one lockout (R79), the cadence fits the pattern (R74),
and ALERT is asserted exactly while an unmasked source asks for attention (R162). While the blocks run: the area
occupancy that the Sequencer was handed is R28's, but with role NONE, lockout is the area stage's (R75), the
sounder's pattern its (R74), each output line is at the level of its force or source (R145, R146), the effective
posture and each line's alarm level follow the view and the overlay (R13, R140, R141), and each level source has the
condition of its rule. -/
abbrev State.Following (s : State) : Prop :=
  s.doors.a.lockout = s.doors.b.lockout ∧ s.seq.CadenceFits ∧
  (s.alert = true ↔ ∃ x ∈ Source.all, (s.source x).masked = false ∧ s.Asks x) ∧
  (s.running = true →
    (s.role ≠ .noArea → (s.seq.occupied = true ↔ s.Occupied)) ∧
    s.doors.a.lockout = s.lockoutStage ∧ s.seq.pattern = soundOf s.shownStage ∧
    (∀ l, (s.output l).driven = s.driveLevel l) ∧ s.PostureFollows ∧
    (∀ l, (s.line l).effAlarm = if 2 ≤ s.posture.effective.num then max ((s.lineCfg l).at_ - s.img.ko) ((s.lineCfg l).wt + 1)
      else (s.lineCfg l).at_) ∧
    s.ConditionsFollow)

/-! ## What waits to be sent -/

/-- R69: a RELEASE_NOTICE of the state as it stands waits in the queue: own area, stage ordinal, remaining in whole
seconds rounded up, and the flow confirmed flag. Remaining falls in COUNTDOWN, stands in HELD, and is 0 elsewhere. -/
def NoticeWaits (t : State) : Prop :=
  let left := if t.seq.stage = .countdown then t.seq.countdown.getD 0 - t.now
    else if t.seq.stage = .held then t.seq.frozen else 0
  ∃ e ∈ t.bus.queue, e.frame = .releaseNotice (BitVec.ofNat 4 t.area) (BitVec.ofNat 4 t.seq.stage.ordinal)
    (byteOf ((left + 999999) / 1000000)) t.seq.flowConfirmed

/-- R17, R34, R77, R132, R139, R163, R171, R181: what a STATUS says of a state. The stage is the own one at a release
station, the mirrored one at a member, and NORMAL with role NONE. With role NONE the abort-held flag is clear (R73; the
model's reading, log entry 20). The alarm level is 6 less the class of the most urgent unmasked source that is pending or
in-service, and 0 with none. -/
def Announces (s : State) (c : Announcement) : Prop :=
  c.role = s.role ∧ c.area = s.area ∧ c.period = s.img.period ∧
  c.posture = s.posture.view.posture ∧ c.epoch = s.posture.view.epoch ∧
  c.stage = (if s.role = .release then s.seq.stage else if s.role = .member then s.seq.mirror.stage else .normal) ∧
  c.count = s.roster.entries.length ∧ c.doubtful = s.roster.doubtful ∧
  (∀ l : Fin 4, (c.alarmMask.getLsbD l.val = true ↔ (s.line l).stage = .alarm) ∧
    (c.groupMask.getLsbD l.val = true ↔ (s.lineCfg l).group = .g2)) ∧
  (c.abortHeld = true ↔ s.role ≠ .noArea ∧ s.pins.abort = true) ∧
  (c.duressActive = true ↔ s.isActive .duress1 = true ∨ s.isActive .duress2 = true) ∧
  (∀ x, s.isActive x = true → (s.source x).masked = false → 6 - x.cls.val ≤ c.alarmLevel) ∧
  (c.alarmLevel = 0 ∨ ∃ x, s.isActive x = true ∧ (s.source x).masked = false ∧ c.alarmLevel = 6 - x.cls.val) ∧
  c.outcome = s.entry.outcome

/-- R181: a STATUS that says what the state is waits in the queue. -/
def StatusWaits (t : State) : Prop := ∃ e ∈ t.bus.queue, ∃ c, e.frame = .status c ∧ Announces t c

/-- R173: an entry handed to a full transmit queue. Its last entry, the newest of least urgency, gives way to a more urgent
one; any other is dropped. Either loss raises TRANSMIT_OVERRUN, and every other queued frame stays, but that the STATUS
which tells the alarm may take a QUERY's place, and that a superseding frame may have newer content. -/
structure Overran (e : QueueEntry) (s t : State) : Prop where
  raised : (t.source .transmitOverrun).pending = true
  taken : ∀ last, s.bus.queue.getLast? = some last → e.frame.urgency < last.frame.urgency →
    (∃ x ∈ t.bus.queue, x.order = e.order ∧ x.frame.kind = e.frame.kind ∧ (e.frame.supersedes = false → x = e)) ∧
    ∀ x ∈ t.bus.queue, x.order ≠ last.order
  dropped : ∀ last, s.bus.queue.getLast? = some last → last.frame.urgency ≤ e.frame.urgency →
    (∀ x ∈ t.bus.queue, x.order ≠ e.order) ∧
    (last.frame.kind ≠ 7 → ∃ x ∈ t.bus.queue, x.order = last.order ∧ x.frame.kind = last.frame.kind)
  kept : ∀ q ∈ s.bus.queue, s.bus.queue.getLast? ≠ some q → q.frame.kind ≠ 7 →
    ∃ x ∈ t.bus.queue, x.order = q.order ∧ x.frame.kind = q.frame.kind ∧ (q.frame.supersedes = false → x = q)

/-- R145: an unforced line is at the level its source's value gives it: at its active level from the threshold on, and
with source NONE at the level opposite to it. -/
def Unforced (t : State) (l : Fin 12) : Prop :=
  let o := t.img.outputs[l]
  let follows : Nat → Prop := fun value => (t.output l).driven = (o.activeHigh == decide (o.threshold ≤ value))
  (t.output l).forced = none ∧
  (o.source = .noSource → (t.output l).driven = !o.activeHigh) ∧
  (o.source = .stage → follows t.stage.ordinal) ∧
  (o.source = .effectivePosture → follows t.posture.effective.num) ∧
  (∀ n, o.source = .alarmLevel →
    (∀ x, t.isActive x = true → (t.source x).masked = false → 6 - x.cls.val ≤ n) →
    n = 0 ∨ (∃ x, t.isActive x = true ∧ (t.source x).masked = false ∧ n = 6 - x.cls.val) → follows n) ∧
  (o.source = .areaOccupancy → follows (
    if t.role = .noArea then t.roster.entries.length
    else t.roster.entries.length + (t.img.members.map (fun m =>
      if (t.peer m).presence = .live then (t.peer m).said.count else 0)).sum))

/-! ## The interlock -/

/-- R83: a door released under a credit at a time. -/
def Door.releasedUnder (x : Door) (c : Credit) (now tr : Nat) : Door :=
  { x with
    state := .released, strike := true, window := some (now + tr * 1000000), heldTimer := none
    credit := some { c with granted := now } }

/-- R79, R91, R92: the interlock test has been made on the doors `x`, and `t` has what it left. A request is eligible when
its own door is SECURE and its partner SECURE or absent. With none eligible both doors stay. The eligible one is granted,
of two the one whose order lies further behind the counter: its slot is empty with outcome GRANTED, its door is RELEASED
under its credit, and the other door stays. -/
def Interlocked (x : DoorId → Door) (counter : BitVec 16) (now tr : Nat) (t : State) : Prop :=
  let eligible : DoorId → PendingRequest → Prop := fun d r =>
    (x d).request = some r ∧ (x d).state = .secure ∧ ((x (partner d)).state = .secure ∨ (x (partner d)).absent = true)
  let behind : PendingRequest → Nat := fun r => (counter - r.order).toNat
  ((∀ d r, ¬eligible d r) → ∀ d, t.door d = x d) ∧
  ∀ d r, eligible d r → (∀ q, eligible (partner d) q → behind q < behind r) →
    t.door d = { x d with request := none, lastPending := .granted }.releasedUnder r.credit now tr ∧
      t.door (partner d) = x (partner d)

/-! ## What an event of the sequence does

`s` is the state before the event and `t` the state after it, whose time is the event's. -/

/-- R58, R59: an address is the first of the abort set: the stuck timer starts, and a countdown is held with what
remained. -/
def FirstAbort (a : Nat) (s t : State) : Prop :=
  t.seq.abortSet = [a] ∧ t.seq.abortStuck = some (t.now + s.img.tab * 1000000) ∧
  (∀ d, s.seq.stage = .countdown → s.seq.countdown = some d →
    t.seq.stage = .held ∧ t.seq.countdown = none ∧ t.seq.frozen = d - t.now ∧
    (s.bus.queue.length ≤ 3 → NoticeWaits t)) ∧
  (s.seq.stage ≠ .countdown →
    t.seq.stage = s.seq.stage ∧ t.seq.countdown = s.seq.countdown ∧ t.seq.frozen = s.seq.frozen)

/-- R58, R60: the last address has left the abort set: the stuck timer stops, and a held countdown runs again with what
the abort mode says; nothing left expires at once. -/
def LastAbort (s t : State) : Prop :=
  t.seq.abortSet = [] ∧ t.seq.abortStuck = none ∧ (s.seq.stage ≠ .held → t.seq.stage = s.seq.stage) ∧
  (s.seq.stage = .held →
    let r := match s.img.abortMode with
      | .resume => s.seq.frozen
      | .restart => s.img.tpd * 1000000
      | .extend => min (s.seq.frozen + s.img.tx * 1000000) (s.img.tpd * 1000000)
    (r ≠ 0 → t.seq.stage = .countdown ∧ t.seq.countdown = some (t.now + r) ∧ t.seq.frozen = 0 ∧
      (s.bus.queue.length ≤ 3 → NoticeWaits t)) ∧
    (r = 0 → t.seq.stage = .releasing))

/-- R63: a manual release at a release station, by its stage and abort set. R69: a notice tells each change. -/
def ManuallyReleased (s t : State) : Prop :=
  let tman := s.img.tman * 1000000
  let told : Prop := s.bus.queue.length ≤ 3 → NoticeWaits t
  (s.seq.stage = .normal ∨ s.seq.stage = .firstAlarm ∨ s.seq.stage = .inhibited →
    (s.seq.abortSet = [] → tman ≠ 0 →
      t.seq.stage = .countdown ∧ t.seq.countdown = some (t.now + tman) ∧ told) ∧
    (s.seq.abortSet = [] → tman = 0 → t.seq.stage = .releasing ∧ t.seq.countdown = none) ∧
    (s.seq.abortSet ≠ [] → t.seq.stage = .held ∧ t.seq.frozen = tman ∧ told)) ∧
  (∀ d, s.seq.stage = .countdown → s.seq.countdown = some d →
    (min (d - t.now) tman ≠ 0 → t.seq.stage = .countdown ∧ t.seq.countdown = some (t.now + min (d - t.now) tman) ∧
      (tman < d - t.now → told)) ∧
    (min (d - t.now) tman = 0 → t.seq.stage = .releasing)) ∧
  (s.seq.stage = .held → t.seq.stage = .held ∧ t.seq.frozen = min s.seq.frozen tman ∧ (tman < s.seq.frozen → told)) ∧
  (s.seq.stage = .isolated ∨ 6 ≤ s.seq.stage.ordinal → t.seq.apart = s.seq.apart)

/-- R45, R46, R54, R55: the own check at a time. The own lines in ALARM that the list misses are entered, line 0 first (log
entry 21). Where that completes no coincidence, they are recorded, and a release station in NORMAL is in FIRST_ALARM. Else
the latch sets with the first line that brings both groups together: the entries there by then are consumed, later ones
are recorded, and from NORMAL and FIRST_ALARM the sequence starts. -/
def OwnChecked (now : Nat) (s t : State) : Prop :=
  let missed : List (Fin 4) := [0, 1, 2, 3].filter (fun l =>
    (s.line l).stage == .alarm && !s.seq.list.any (fun e => e.station == s.address && e.line == l))
  let listed : Nat → List Detection := fun k => s.seq.list ++ (missed.take k).map (fun l => {
    station := s.address, line := l, group := (s.lineCfg l).group, arrival := now, consumed := false
    window := some (now + s.img.tc * 1000000) })
  let both : Nat → Prop := fun k => (∃ e ∈ listed k, e.group = .g1) ∧ ∃ e ∈ listed k, e.group = .g2
  let begun := s.seq.stage = .normal ∨ s.seq.stage = .firstAlarm
  let told : Prop := s.bus.queue.length ≤ 3 → NoticeWaits t
  let stays : Prop := s.NoStart → t.seq.stage = s.seq.stage
  (s.role = .noArea ∨ missed = [] → t.seq.list = s.seq.list ∧ t.seq.latch = s.seq.latch ∧ stays) ∧
  (s.role = .member → t.seq.list = listed 4 ∧ t.seq.latch = s.seq.latch ∧ stays) ∧
  (s.role = .release → missed ≠ [] → s.seq.stage = .isolated ∨ s.seq.latch = true ∨ ¬both 4 →
    t.seq.list = listed 4 ∧ t.seq.latch = s.seq.latch ∧ (¬begun → stays) ∧
    (begun → t.seq.stage = .firstAlarm ∧ (s.seq.stage = .normal → told))) ∧
  (s.role = .release → missed ≠ [] → s.seq.stage ≠ .isolated → s.seq.latch = false → both 4 →
    t.seq.latch = true ∧
    (∀ k, 1 ≤ k → k ≤ missed.length → both k → (∀ j, 1 ≤ j → j < k → ¬both j) →
      t.seq.list = (listed k).map (fun e => { e with consumed := true, window := none }) ++ (listed 4).drop (listed k).length) ∧
    (¬begun → stays) ∧
    (begun → s.areaOccupied = s.seq.occupied → t.seq.abortSet = s.seq.abortSet ∧
      (s.areaOccupied = true → t.seq.stage = .inhibited ∧ t.seq.countdown = none ∧ told) ∧
      (s.areaOccupied = false → s.seq.abortSet = [] → s.img.tpd ≠ 0 →
        t.seq.stage = .countdown ∧ t.seq.countdown = some (now + s.img.tpd * 1000000) ∧ told) ∧
      (s.areaOccupied = false → s.seq.abortSet = [] → s.img.tpd = 0 → t.seq.stage = .releasing) ∧
      (s.areaOccupied = false → s.seq.abortSet ≠ [] →
        t.seq.stage = .held ∧ t.seq.frozen = s.img.tpd * 1000000 ∧ told)))

/-- R75, R93, R112: lockout has turned on. A door RELEASED under an ENTRY credit is SECURE again, and the interlock test is
made; a pending ENTRY request is gone with outcome LOCKOUT; every other door, credit and request stays, the reservations
are broken, and the lamp is lit. That the pending ENTRY goes before the interlock test is the model's reading (log entry
21). -/
def LockedOut (s t : State) : Prop :=
  let withdrawn : Door → Bool := fun x => x.state == .released && x.credit.any (fun c => c.kind == .entry)
  let discarded : Door → Door := fun x =>
    if x.request.any (fun r => r.credit.kind == .entry) then { x with request := none, lastPending := .lockout } else x
  let left : DoorId → Door := fun d =>
    if withdrawn (s.door d) then { discarded (s.door d) with
      state := .secure, strike := false, window := none, heldTimer := none, credit := none, lockout := true }
    else { discarded (s.door d) with lockout := true }
  t.lamp = true ∧ (∀ d, (t.door d).lockout = true) ∧
  ((∀ d, withdrawn (s.door d) = false) → ∀ d, t.door d = left d) ∧
  ((∃ d, withdrawn (s.door d) = true) → Interlocked left s.doors.counter t.now s.img.tr t) ∧
  (∀ e, t.reservation e = none) ∧
  (∀ e, (s.reservation e).isSome = true → t.broken e = true ∧ (t.source .pairBroken).pending = true)

/-- R75, R93: lockout has turned off: it is recorded at both doors and nothing is restored. -/
def LockoutEnded (s t : State) : Prop := t.lamp = false ∧ ∀ d, t.door d = { s.door d with lockout := false }

/-! ## Filtered inputs, panel commands and bus frames -/

/-- What happens at a filtered input, as a command carries it. -/
structure InputCall where
  /-- The input. -/
  input : Input
  /-- The level: made, or open. -/
  level : Bool
  /-- Whether the pin moves to the level, or has held it for 20 ms. -/
  event : InputEvent
deriving DecidableEq, Repr

/-- The eight rows that are an event of a filtered input (R53, R80, R156); none for any other row. -/
def inputCall : Instr → Option InputCall
  | .doorContactOpens event d => some { input := contactInput d, level := true, event := event }
  | .doorContactCloses event d => some { input := contactInput d, level := false, event := event }
  | .requestToExitPress event d made => some { input := exitInput d, level := made, event := event }
  | .abortInputChange event made => some { input := .abort, level := made, event := event }
  | .manrelMade event made => some { input := .manrel, level := made, event := event }
  | .flowMade event made => some { input := .flow, level := made, event := event }
  | .duressInputChange event i made => some { input := duressPin i, level := made, event := event }
  | .tamperInputChange event isOpen => some { input := .tamper, level := isOpen, event := event }
  | _ => none

/-- A panel command as R184 and R188 give it: its code, its length, when it was sent and the bytes after the code. -/
structure PanelCall where
  /-- The command code. -/
  code : Nat
  /-- The number of parameter bytes. -/
  length : Nat
  /-- Time since the command before. -/
  dt : Nat
  /-- The frame after its code. -/
  rest : PanelRest
deriving DecidableEq, Repr

/-- The twenty-one commands of the table of R188; none for any other row. -/
def panelCall : Instr → Option PanelCall
  | .getStatus dt rest => some { code := 1, length := 0, dt := dt, rest := rest }
  | .nextAlarm dt rest => some { code := 2, length := 0, dt := dt, rest := rest }
  | .restoreAlarm dt rest => some { code := 3, length := 1, dt := dt, rest := rest }
  | .maskAlarm dt rest => some { code := 4, length := 2, dt := dt, rest := rest }
  | .readSources dt rest => some { code := 5, length := 0, dt := dt, rest := rest }
  | .readRemoteList dt rest => some { code := 6, length := 0, dt := dt, rest := rest }
  | .presentCredential dt rest => some { code := 7, length := 6, dt := dt, rest := rest }
  | .confirmRemote dt rest => some { code := 8, length := 6, dt := dt, rest := rest }
  | .setPosture dt rest => some { code := 9, length := 1, dt := dt, rest := rest }
  | .zoneSweep dt rest => some { code := 10, length := 0, dt := dt, rest := rest }
  | .readRoster dt rest => some { code := 11, length := 0, dt := dt, rest := rest }
  | .resetDetection dt rest => some { code := 12, length := 1, dt := dt, rest := rest }
  | .readDetector dt rest => some { code := 13, length := 1, dt := dt, rest := rest }
  | .suppressionReset dt rest => some { code := 14, length := 0, dt := dt, rest := rest }
  | .suppressionIsolate dt rest => some { code := 15, length := 1, dt := dt, rest := rest }
  | .latchTimes dt rest => some { code := 16, length := 0, dt := dt, rest := rest }
  | .readTimes dt rest => some { code := 17, length := 0, dt := dt, rest := rest }
  | .forceOutput dt rest => some { code := 18, length := 2, dt := dt, rest := rest }
  | .releaseOutput dt rest => some { code := 19, length := 1, dt := dt, rest := rest }
  | .readOutputs dt rest => some { code := 20, length := 0, dt := dt, rest := rest }
  | .readPeer dt rest => some { code := 21, length := 1, dt := dt, rest := rest }
  | _ => none

/-- A bus frame as a command carries it: the kind of its row (R171), when it came and the levels read. -/
structure FrameCall where
  /-- The kind code of the row. -/
  kind : Nat
  /-- Time since the command before. -/
  dt : Nat
  /-- The levels read on ZRX. -/
  bits : List Bool
deriving DecidableEq, Repr

/-- The eight rows that are the receipt of a frame; none for any other row. -/
def frameCall : Instr → Option FrameCall
  | .releaseNoticeFrame dt bits => some { kind := 0, dt := dt, bits := bits }
  | .releaseCallFrame dt bits => some { kind := 1, dt := dt, bits := bits }
  | .duressFrame dt bits => some { kind := 2, dt := dt, bits := bits }
  | .detectFrame dt bits => some { kind := 3, dt := dt, bits := bits }
  | .confirmFrame dt bits => some { kind := 4, dt := dt, bits := bits }
  | .postureFrame dt bits => some { kind := 5, dt := dt, bits := bits }
  | .statusFrame dt bits => some { kind := 6, dt := dt, bits := bits }
  | .queryFrame dt bits => some { kind := 7, dt := dt, bits := bits }
  | _ => none

/-- The frame reaches the station's blocks as one of its kind from `a`: the receiver runs, the bus is not stuck, the
bits are a good frame, and its sender is another station (R178 to R180, R192). Whether the receiver runs is judged at the
frame's end by the model's choice (log entry 39). -/
abbrev Reaches (c : FrameCall) (s : State) (a : Nat) (f : Frame) : Prop :=
  s.receiving = true ∧ s.bus.stuck = false ∧ acceptBits c.bits = some (a, f) ∧ f.kind = c.kind ∧ a ≠ s.address

/-! ## Panel replies and presentations -/

/-- The port takes a command frame, and no check of R187 on the phase refuses it: the blocks run and the port is IDLE.
What a frame in REPLY or BUSY does is said by those in IDLE (R185). -/
abbrev State.AtPanel (s : State) : Prop := s.running = true ∧ s.port.state = .idle

/-- R184, R185, R188: the port once a command frame, its code and then `rest`, has been answered in IDLE: the four-byte
header and the data wait as the reply. `flags` is bits 6 to 0 of the flags byte, which most statements give as 0 where the
table of R188 gives none: the model's choice (log entry 35). -/
def State.answered (s : State) (rest : List Byte) (code result flags : Nat) (data : List Byte) : Port :=
  { s.port with
    state := .reply, progress := none, overrun := false, psdo := List.replicate (1 + rest.length) 0
    reply := some ([byteOf code, byteOf result, byteOf (128 * s.port.overrun.toNat + flags), byteOf data.length] ++ data) }

/-- R184, R185: a command of `n` bytes in REPLY does what it does in IDLE with the overrun mark set, and PSDO sends the
reply that waited: 0x00 for the `before` bytes begun before it was formed, its own bytes from there on, and 0x00 past its
end. -/
def SentOver (i : Instr) (n before : Nat) (s : State) : Prop :=
  ∀ reply, s.port.reply = some reply → ∃ sent t, sent.length = n ∧
    (∀ k, k < n → sent[k]? = some (if k < before then 0 else reply.getD k 0)) ∧
    exec i (s.setPort { s.port with state := .idle, overrun := true }) = .next t ∧
    exec i s = .next (t.setPort { t.port with psdo := sent })

/-- The ranges of a command's parameter bytes (R187, R188), by its code; `bytes` is as long as the command's length. -/
def argumentsOk (s : State) (code : Nat) (bytes : List Byte) : Prop :=
  let b : Nat → Nat := fun k => (bytes.getD k 0).toNat
  match code with
  | 3 => b 0 ≤ 31
  | 4 => b 0 ≤ 31 ∧ b 1 ≤ 1
  | 7 => (b 0 = 0 ∨ (b 0 = 1 ∧ s.img.twoDoors = true)) ∧ b 1 ≤ 1 ∧ ¬(b 2 = 0 ∧ b 3 = 0) ∧ b 4 ≤ 7 ∧ b 5 ≤ 2
  | 8 =>
    1 ≤ b 0 ∧ b 0 ≤ 48 ∧ b 0 ≠ s.address ∧ b 1 ≤ 1 ∧ 1 ≤ b 2 ∧ ¬(b 3 = 0 ∧ b 4 = 0) ∧ b 5 ≤ 7
  | 9 => b 0 ≤ 4
  | 12 => b 0 ≤ 3 ∨ b 0 = 255
  | 13 => b 0 ≤ 3
  | 15 => b 0 ≤ 1
  | 18 => b 0 ≤ 11 ∧ b 1 ≤ 1
  | 19 => b 0 ≤ 11
  | 21 => 1 ≤ b 0 ∧ b 0 ≤ 48
  | _ => True

/-- R90, R103: a door can take a credit: it is SECURE and its pending slot is empty. -/
abbrev Door.Free (x : Door) : Prop := x.state = .secure ∧ x.request = none

/-- R90, R92: a release at a door is not held up by its partner. -/
abbrev State.PartnerClear (s : State) (d : DoorId) : Prop :=
  (s.door (partner d)).state = .secure ∨ (s.door (partner d)).absent = true

/-- R79, R90: the doors once a credit has entered a door's pending slot at a time, with the counter's next value. -/
def State.pended (s : State) (d : DoorId) (c : Credit) (now : Nat) : State :=
  (s.setDoors { s.doors with counter := s.doors.counter + 1 }).setDoor d { s.door d with
    lastPending := .noOutcome
    request := some { credit := c, order := s.doors.counter + 1, since := now, wait := now + s.img.tr * 1000000 } }

/-- R109: the presentation would complete this reservation. -/
abbrev Completes (s : State) (p : Presentation) (r : Reservation) : Prop :=
  ((s.mode p.door).mode = .paired ∨ (s.mode p.door).mode = .pairedRemote) ∧ s.reservation p.door = some r ∧
    r.holder ≠ p.id

/-- R104: passback finds a checked holder on the roster. -/
abbrev PassbackFound (s : State) (p : Presentation) : Prop :=
  p.door = .a ∧ ∃ e ∈ s.roster.entries, e.holder.id = p.id ∨ ∃ r, Completes s p r ∧ e.holder.id = r.holder

/-- R104: the roster and the holders of the credit would exceed 16. -/
abbrev Overfull (s : State) (p : Presentation) : Prop :=
  p.door = .a ∧ (16 < s.roster.entries.length + 1 ∨ ((∃ r, Completes s p r) ∧ 16 < s.roster.entries.length + 2))

/-- R103, check 5, with its exceptions for FREE and ESCORTED. -/
abbrev ClassPasses (m : ModeEntry) (cls : Nat) : Prop :=
  m.mode = .free ∨ m.minClass ≤ cls ∨ (m.mode = .escorted ∧ m.floor ≤ cls)

/-- R103: checks 1 to 7 pass. -/
abbrev Admitted (s : State) (p : Presentation) : Prop :=
  (s.door p.door).Free ∧ p.verdict = .valid ∧ (s.door p.door).lockout = false ∧ (s.mode p.door).mode ≠ .barred ∧
    ClassPasses (s.mode p.door) p.cls ∧ (PassbackFound s p → s.img.softPassback = true) ∧ ¬Overfull s p

end Sys2Proof.Machine
end

