-- ==== Sys2Proof/WellFormed.lean ====
section
/-! DEFINITION. Which commands are well formed: the operands are such that the command is an event of its row. -/

namespace Sys2Proof

open Sys2Proof.Machine

/-- The bits are a good frame of the kind of this row (R171, R179). -/
def goodFrame (kind : Nat) (bits : List Bool) : Bool :=
  match acceptBits bits with
  | some (_, f) => f.kind == kind
  | none => false

/-- No more bytes of a panel frame came before a reply than it has. -/
def PanelRest.wf (rest : PanelRest) : Bool := rest.before ≤ 1 + rest.bytes.length

/-- Each check is of the row's own words; a row without one has operands that are right by their type. -/
def Instr.wf : Instr → Bool
  | .silenceTimerExpiry address => 1 ≤ address && address ≤ 48
  | .windowTimerExpiry station _ => 1 ≤ station && station ≤ 48
  | .statusFrame _ bits => goodFrame 6 bits
  | .queryFrame _ bits => goodFrame 7 bits
  | .detectFrame _ bits => goodFrame 3 bits
  | .releaseCallFrame _ bits => goodFrame 1 bits
  | .releaseNoticeFrame _ bits => goodFrame 0 bits
  | .confirmFrame _ bits => goodFrame 4 bits
  | .postureFrame _ bits => goodFrame 5 bits
  | .duressFrame _ bits => goodFrame 2 bits
  | .receiveDiscard _ bits => (acceptBits bits).isNone
  | .unknownCommand _ code rest => 22 ≤ code && code ≤ 255 && rest.wf
  | .replyRead _ clocked before => 1 ≤ clocked && before ≤ clocked
  | .powerOnReset => true
  | .pinReset => true
  | .initExpiry => true
  | .imageLoadComplete _ _ => true
  | .referenceCycle _ => true
  | .referenceGap _ => true
  | .clockLimitExpiry => true
  | .clockFallback _ => true
  | .joinTimerExpiry => true
  | .detectorRisingEdge _ _ => true
  | .detectorFallingEdge _ _ => true
  | .longPulse _ => true
  | .stuckTimerExpiry _ => true
  | .openTimerExpiry _ => true
  | .resetDetection _ rest => rest.wf
  | .readDetector _ rest => rest.wf
  | .readPeer _ rest => rest.wf
  | .abortInputChange _ _ => true
  | .manrelMade _ _ => true
  | .abortStuckExpiry => true
  | .countdownExpiry => true
  | .valveDelayExpiry => true
  | .valvePulseExpiry => true
  | .flowMade _ _ => true
  | .flowWaitExpiry => true
  | .soakTimerExpiry => true
  | .vsupChange _ _ => true
  | .noticeTimerExpiry => true
  | .suppressionReset _ rest => rest.wf
  | .suppressionIsolate _ rest => rest.wf
  | .cadencePhaseExpiry => true
  | .doorContactOpens _ _ => true
  | .doorContactCloses _ _ => true
  | .requestToExitPress _ _ _ => true
  | .releaseWindowExpiry _ => true
  | .heldTimerExpiry _ => true
  | .pendingWaitExpiry _ => true
  | .presentCredential _ rest => rest.wf
  | .pairWindowExpiry _ => true
  | .confirmRemote _ rest => rest.wf
  | .zoneSweep _ rest => rest.wf
  | .readRoster _ rest => rest.wf
  | .setPosture _ rest => rest.wf
  | .forceOutput _ rest => rest.wf
  | .releaseOutput _ rest => rest.wf
  | .readOutputs _ rest => rest.wf
  | .senseInputChange _ _ _ => true
  | .mismatchTimerExpiry _ => true
  | .duressInputChange _ _ _ => true
  | .tamperInputChange _ _ => true
  | .nextAlarm _ rest => rest.wf
  | .restoreAlarm _ rest => rest.wf
  | .maskAlarm _ rest => rest.wf
  | .readSources _ rest => rest.wf
  | .readRemoteList _ rest => rest.wf
  | .beginTransmission _ _ => true
  | .arbitrationLoss _ => true
  | .ownBitError _ => true
  | .quietSpellExpiry => true
  | .transmissionComplete _ => true
  | .busStuck _ => true
  | .busStuckEnd _ => true
  | .firstStatusDelayExpiry => true
  | .statusTimerExpiry => true
  | .getStatus _ rest => rest.wf
  | .latchTimes _ rest => rest.wf
  | .readTimes _ rest => rest.wf

end Sys2Proof
end

