-- ==== Sys2Proof/Certificates/Slice0/Obligations.lean ====
section
/-! DEFINITION. What is stated of the station for the provers, chapter by chapter. A statement about a command says which
state it answers: its own effect in the state's fields, and `After u t` (Safety.lean) for what follows at once from it,
where `u` is the state with the command's own effect. Times are in microseconds of the time base. -/

open Sys2Proof Sys2Proof.Machine

/-! ## The whole machine -/

/-- The command at the front of the queue is the one that runs, on the state with the queue's rest. The model's choice
(log entry 7): on an empty queue the earliest of the station's own timers expires, and with none running the station
idles. -/
def Obligations.StepRunsTheFrontCommand : Prop :=
  (∀ (c : Instr) (rest : List Instr) (s : State),
    s.pending = c :: rest → step s = exec c { s with pending := rest }) ∧
  (∀ s : State, s.pending = [] →
    (runningTimers s = [] → step s = .next s) ∧
    (runningTimers s ≠ [] → ∃ d ∈ runningTimers s, (∀ e ∈ runningTimers s, d.1 ≤ e.1) ∧ step s = exec d.2 s))

/-- No command stops the station: each answers a next state in every state, and leaves the waiting commands alone. -/
def Obligations.EveryCommandCompletes : Prop :=
  ∀ (c : Instr) (s : State), ∃ t, exec c s = .next t ∧ t.pending = s.pending

/-! ## Start-up (chapter 12) -/

/-- R192: both resets put every block into its state after reset, the start-up block and the time base among them,
and discard the image. A power-on reset sets the cold-start flag and a pin reset leaves it. The model's choice: the
reset values that the manual does not give (log entry 2); the pins are the world's, so that each filtered input
stands at its pin's level (log entry 3); the count of free values stays (log entry 5); and a reset is one event,
INIT's 1 ms running from the command (log entry 33). -/
def Obligations.ResetsRestartTheStation : Prop :=
  ∀ s : State, ∃ t u, exec .powerOnReset s = .next t ∧ exec .pinReset s = .next u ∧
    t.startup.coldStart = true ∧ u.startup.coldStart = s.startup.coldStart ∧
    ∀ v, v = t ∨ v = u →
      v.startup = {
        phase := .init, clock := .internal, stable := 0, coldStart := v.startup.coldStart, loadResult := .ok
        fallback := false, initTimer := some 1000, limit := none, join := none } ∧
      v.now = 0 ∧ v.loadEnd = 0 ∧ v.image = none ∧
      (∀ l, v.line l = Line.reset) ∧ (∀ a, v.peer a = Peer.reset) ∧ v.seq = Sequencer.reset ∧
      (∀ d, v.door d = Door.reset) ∧ v.doors.counter = 0 ∧ v.entry = EntryUnit.reset ∧ v.roster = Roster.reset ∧
      v.posture = PostureUnit.reset ∧ v.ann = Annunciator.reset ∧ v.bus = Bus.reset ∧ v.port = Port.reset ∧
      (∀ i, v.pins.level i = s.pins.raw i ∧ v.pins.filter i = none) ∧ v.pins.det = s.pins.det ∧
      v.pins.sense = s.pins.sense ∧ v.pins.vsupOpen = s.pins.vsupOpen ∧ v.free = s.free ∧ v.pending = s.pending

/-- R192 to R194: INIT ends in LOAD. An image that fails its check leads to CONFIG_FAULT with the result of the
check, is not kept, and changes nothing else. The load is made once: in any other phase than LOAD nothing happens.
R193, R196, R198, R136, R6, R7, R80, R81, R86: an image that passes is kept, the view takes the start posture, every
line starts its timers, and the station waits for its reference or joins at once. After a reset the doors take their
inputs as they stand: door B is absent at a one-door station, and an open door is HELD_OPEN and puts the roster in
doubt (R127). R53, R58, R73: so are the others: ABORT found made puts the own address into a release station's abort
set, has a member call ABORT_ON, and does nothing with role NONE; MANREL found made raises its source and releases
nothing. R156, R164: a duress button found made raises its source and is told, and an open tamper loop raises TAMPER.
R143, R145, R147: no output line is forced, and each is driven from its source and compared with its sense input. -/
def Obligations.LoadStartsOrStops : Prop :=
  (∀ (s : State) (d : Nat), s.startup.phase = .init → s.startup.initTimer = some d →
       exec .initExpiry s = .next ((s.reach d).setStartup { s.startup with phase := .load, initTimer := none })) ∧
  (∀ (s : State) (dt : Nat) (m : Vector Byte 96),
       (s.startup.phase = .load → imageCheck m ≠ .ok →
         exec (.imageLoadComplete dt m) s =
           .next ((s.elapse dt).setStartup { s.startup with phase := .configFault, loadResult := imageCheck m })) ∧
       (s.startup.phase ≠ .load → exec (.imageLoadComplete dt m) s = .next (s.elapse dt))) ∧
  (∀ (s : State) (dt : Nat) (m : Vector Byte 96), s.startup.phase = .load → imageCheck m = .ok →
       ∃ t, exec (.imageLoadComplete dt m) s = .next t ∧ t.now = s.now + dt ∧ t.loadEnd = t.now ∧
         t.image = some (imageOf m) ∧ t.startup.loadResult = .ok ∧ t.startup.clock = s.startup.clock ∧
         (t.img.externalRef = true →
           t.startup.phase = .clock ∧ t.startup.stable = 0 ∧ t.startup.limit = some (t.now + 50000)) ∧
         (t.img.externalRef = false → t.startup.phase = .join ∧ t.startup.join = some (t.now + 8000000)) ∧
         t.posture.view = { s.posture.view with posture := t.img.startPosture } ∧
         (∀ l, (t.line l).apart =
           { (s.line l).apart with
             openTimer := if (t.lineCfg l).enable then some (t.now + 2000000) else none
             stuck := if (t.lineCfg l).enable && s.pins.det[l] then some (t.now + 50000) else none }) ∧
         t.peers = s.peers ∧ t.roster.entries = s.roster.entries ∧ t.pins = s.pins ∧ t.port = s.port) ∧
  (∀ (s : State) (dt : Nat) (m : Vector Byte 96), s.startup.phase = .load → imageCheck m = .ok →
       s.seq = Sequencer.reset → s.doors.a = Door.reset → s.doors.b = Door.reset →
       ∃ t, exec (.imageLoadComplete dt m) s = .next t ∧
         t.doors.a = { Door.reset with
           contactOpen := s.pins.dcaOpen, rex := s.pins.rexA, state := if s.pins.dcaOpen then .heldOpen else .secure } ∧
         t.doors.b =
           (if t.img.twoDoors then { Door.reset with
             contactOpen := s.pins.dcbOpen, rex := s.pins.rexB, state := if s.pins.dcbOpen then .heldOpen else .secure }
           else { Door.reset with absent := true }) ∧
         (s.pins.dcaOpen = true ∨ (t.img.twoDoors = true ∧ s.pins.dcbOpen = true) → t.roster.doubtful = true)) ∧
  (∀ (s : State) (dt : Nat) (m : Vector Byte 96), s.startup.phase = .load → imageCheck m = .ok →
       s.seq = Sequencer.reset → s.ann = Annunciator.reset → s.bus = Bus.reset → s.posture = PostureUnit.reset →
       ∃ t, exec (.imageLoadComplete dt m) s = .next t ∧
         let own := t.role = .release ∧ s.pins.abort = true
         let calls := t.role = .member ∧ s.pins.abort = true
         (own → t.seq.apart = { Sequencer.reset with
           abortSet := [t.address], abortStuck := some (t.now + t.img.tab * 1000000) }.apart) ∧
         (¬own → t.seq.apart = Sequencer.reset.apart) ∧
         (calls → ∃ e ∈ t.bus.queue, e.frame = .releaseCall (byteOf t.area) 1) ∧
         (∀ e ∈ t.bus.queue, e.frame.kind = 1 → calls ∧ e.frame = .releaseCall (byteOf t.area) 1) ∧
         (t.source .manualRelease).pending = s.pins.manrel ∧ (t.source .tamper).pending = s.pins.tamperOpen ∧
         (∀ i : DuressInput, (t.source (duressSource i)).pending = s.pins.level (duressPin i) ∧
           (s.pins.level (duressPin i) = true →
             ∃ e ∈ t.bus.queue, e.frame = .duress (byteOf (duressSource i).num.val) true (BitVec.ofNat 4 t.area))) ∧
         ∀ l, Unforced t l ∧ Compared t l)

/-- R196, R197: while the limit runs, each reference cycle adds one to the count; the 16384th switches the time base
to the reference and enters JOIN, and 1 ms without an edge returns the count to 0. When the limit expires first, or a
reference in use fails, the station runs on the internal oscillator and CLOCK_FALLBACK is true; at a failure the
missed millisecond is added and every timer keeps its deadline (the model's reading, log entry 17). That 1 ms passed
without an edge is taken as told, and a late cycle still counts (the model's choice, log entry 32). R198, R181: the
join timer expires: the phase becomes RUN, a QUERY is queued, the first-status delay runs for 20 ms times the own
address, and a release station makes its notice (R69). -/
def Obligations.ClockAndJoining : Prop :=
  (∀ (s : State) (dt : Nat), s.startup.phase = .clock → s.startup.limit.isSome = true →
       (∃ t, exec (.referenceCycle dt) s = .next t ∧
         (s.startup.stable + 1 ≠ 16384 →
           t = (s.elapse dt).setStartup { s.startup with stable := s.startup.stable + 1 }) ∧
         (s.startup.stable + 1 = 16384 →
           After ((s.elapse dt).setStartup { s.startup with
             stable := 16384, clock := .external, phase := .join, limit := none, join := some (s.now + dt + 8000000) }) t)) ∧
       exec (.referenceGap dt) s = .next ((s.elapse dt).setStartup { s.startup with stable := 0 })) ∧
  (∀ (s : State) (d : Nat), s.startup.phase = .clock → s.startup.limit = some d →
       ∃ t, exec .clockLimitExpiry s = .next t ∧ t.startup.clock = s.startup.clock ∧
         (t.source .clockFallback).condition = true ∧
         After ((s.reach d).setStartup { s.startup with
           fallback := true, phase := .join, limit := none, join := some (max s.now d + 8000000) }) t) ∧
  (∀ (s : State) (dt : Nat), s.startup.clock = .external →
       ∃ t, exec (.clockFallback dt) s = .next t ∧ t.now = s.now + dt + 1000 ∧ t.startup.clock = .internal ∧
         (s.running = true → (t.source .clockFallback).condition = true) ∧
         After ((s.elapse (dt + 1000)).setStartup { s.startup with clock := .internal, fallback := true }) t) ∧
  (∀ (s : State) (d : Nat), s.startup.phase = .join → s.startup.join = some d →
       ∃ t, exec .joinTimerExpiry s = .next t ∧ t.startup = { s.startup with phase := .run, join := none } ∧
         t.bus.firstStatus = some (max s.now d + s.address * 20000) ∧
         (s.bus.queue.length ≤ 2 →
           { frame := Frame.query, order := s.bus.nextOrder : QueueEntry } ∈ t.bus.queue) ∧
         (s.role = .release → s.NoStart → s.bus.queue.length ≤ 2 → NoticeWaits t) ∧
         (∀ l, (t.line l).apart = (s.line l).apart) ∧ t.peers = s.peers ∧ t.roster = s.roster ∧
         t.port = s.port ∧ t.pins = s.pins ∧ t.posture.view = s.posture.view)

/-! ## Detector lines (chapter 1) -/

/-- R1, R2, R6, R7: a rising edge on an enabled line starts a pulse, whose period is the time since the edge before
in whole milliseconds, and starts both timers; on any other line it changes the level alone. No other line changes.
R2: a falling edge with no pulse in progress stops the stuck timer, and on a line that is not measured changes the
level alone. R2, R3, R5: a line high for 4500 µs ends its pulse as long: a discard that ends both runs. R6 to R8: the
stuck timer of a high line detects LINE_STUCK and the open timer of a low one LINE_OPEN. The open timer of a high
line has no effect. Both stay stopped. -/
def Obligations.RisingEdgesAndLineTimers : Prop :=
  (∀ (s : State) (dt : Nat) (l : Fin 4), s.pins.det[l] = false →
       let u := (s.elapse dt).setPins { s.pins with det := s.pins.det.set l true }
       (s.running = true ∧ (s.lineCfg l).enable = true →
         exec (.detectorRisingEdge dt l) s = .next (u.setLine l { s.line l with
           pulse := some { rise := u.now, period := (s.line l).lastRise.map (fun r => (u.now - r) / 1000) }
           lastRise := some u.now, openTimer := some (u.now + 2000000), stuck := some (u.now + 50000) })) ∧
       (¬(s.running = true ∧ (s.lineCfg l).enable = true) → exec (.detectorRisingEdge dt l) s = .next u)) ∧
  (∀ (s : State) (dt : Nat) (l : Fin 4), s.pins.det[l] = true →
       let u := (s.elapse dt).setPins { s.pins with det := s.pins.det.set l false }
       (s.running = true ∧ (s.lineCfg l).enable = true → (s.line l).pulse = none →
         ∃ t, exec (.detectorFallingEdge dt l) s = .next t ∧ After (u.setLine l { s.line l with stuck := none }) t) ∧
       (¬(s.running = true ∧ (s.lineCfg l).enable = true) → exec (.detectorFallingEdge dt l) s = .next u)) ∧
  (∀ (s : State) (l : Fin 4) (p : Pulse), (s.line l).pulse = some p →
       ∃ t, exec (.longPulse l) s = .next t ∧
         let x := s.line l
         let y := t.line l
         y.pulse = none ∧ y.lastWidth = 4500 ∧ y.lastPeriod = min (p.period.getD 0) 65535 ∧ y.shortRun = 0 ∧
         y.noiseRun = 0 ∧ y.stage = x.stage ∧ y.fault = x.fault ∧ y.smooth = x.smooth ∧ y.ring = x.ring ∧
         y.lastReading = x.lastReading ∧ y.stuck = x.stuck ∧ y.openTimer = x.openTimer ∧
         (x.fault ≠ .noFault → y.clearing = 0) ∧
         Handed ((s.reach (p.rise + 4500)).setLine l y) t) ∧
  (∀ (s : State) (l : Fin 4) (d : Nat),
       let detected : FaultKind → Line → Line → Prop := fun k x y =>
         y.fault = k ∧ y.clearing = 0 ∧ y.smooth = x.smooth ∧ y.ring = x.ring ∧
         (x.fault = .noFault → y.entries = min (x.entries + 1) 255 ∧ y.count = 0 ∧
           y.stage = if x.stage = .alarm then .alarm else .fault) ∧
         (x.fault ≠ .noFault → y.entries = x.entries ∧ y.count = x.count ∧ y.stage = x.stage)
       ((s.line l).stuck = some d → s.pins.det[l] = true →
         ∃ t, exec (.stuckTimerExpiry l) s = .next t ∧ (t.line l).stuck = none ∧
           (t.line l).openTimer = (s.line l).openTimer ∧ detected .stuck (s.line l) (t.line l) ∧
           Handed ((s.reach d).setLine l (t.line l)) t) ∧
       ((s.line l).openTimer = some d → s.pins.det[l] = false →
         ∃ t, exec (.openTimerExpiry l) s = .next t ∧ (t.line l).openTimer = none ∧
           (t.line l).stuck = (s.line l).stuck ∧ detected .opened (s.line l) (t.line l) ∧
           Handed ((s.reach d).setLine l (t.line l)) t) ∧
       ((s.line l).openTimer = some d → s.pins.det[l] = true →
         exec (.openTimerExpiry l) s = .next ((s.reach d).setLine l { s.line l with openTimer := none })))

/-- R2 to R4, R11, R12, R14, R15: a falling edge ends a valid pulse on a seeded line that is not in fault: its width
becomes a reading, and S, the level, the rise, the ring, the count and the stage follow. No other line and nothing
that the hand-offs do not reach changes. R10: the first reading of an unseeded line seeds it and decides its stage
from QUIET. S moves by R11's formula at every distance; that R11's prose closes a distance of 2 or 3 in one step is
read otherwise by the model (log entry 25). -/
def Obligations.ValidPulses : Prop :=
  (∀ (s : State) (dt : Nat) (l : Fin 4) (p : Pulse), s.running = true → (s.lineCfg l).enable = true →
       s.pins.det[l] = true → (s.line l).pulse = some p → 60 ≤ s.now + dt - p.rise → s.now + dt - p.rise < 4500 →
       (∀ q, p.period = some q → 200 ≤ q) → (s.line l).fault = .noFault → (s.line l).seeded = true →
       ∃ t, exec (.detectorFallingEdge dt l) s = .next t ∧
         let x := s.line l
         let y := t.line l
         let w := s.now + dt - p.rise
         let r := if w ≤ 99 then 0 else if w ≤ 4100 then (w - 100) / 16 else 250
         y.pulse = none ∧ y.stuck = none ∧ y.lastWidth = w ∧ y.lastPeriod = min (p.period.getD 0) 65535 ∧
         y.lastReading = r ∧ y.shortRun = 0 ∧ y.noiseRun = 0 ∧ y.seeded = true ∧ y.fault = .noFault ∧
         (x.smooth ≤ 16 * r → y.smooth = x.smooth + (16 * r - x.smooth + 3) / 4) ∧
         (16 * r < x.smooth → y.smooth = x.smooth - (x.smooth - 16 * r + 3) / 4) ∧
         y.level = y.smooth / 16 ∧
         (x.refill = false → y.rise = (y.smooth : Int) - (x.ring.headD 0 : Int) ∧ y.ring = x.ring.drop 1 ++ [y.smooth]) ∧
         (x.refill = true → y.rise = (y.smooth : Int) - (x.smooth : Int) ∧
           y.ring = List.replicate 7 x.smooth ++ [y.smooth]) ∧
         y.refill = false ∧
         y.count = (if x.effAlarm ≤ y.level then min (x.count + 1) (s.lineCfg l).v else 0) ∧
         (x.stage = .alarm → y.stage = .alarm) ∧
         (x.stage = .quiet ∨ x.stage = .watch →
           y.stage =
             if x.effAlarm ≤ y.level then (if y.count = (s.lineCfg l).v then .alarm else .watch)
             else if (s.lineCfg l).wt ≤ y.level ∨ ((s.lineCfg l).qt ≠ 0 ∧ ((s.lineCfg l).qt : Int) ≤ y.rise) then .watch
             else .quiet) ∧
         Handed (((s.elapse dt).setPins { s.pins with det := s.pins.det.set l false }).setLine l y) t) ∧
  (∀ (s : State) (dt : Nat) (l : Fin 4) (p : Pulse), s.running = true → (s.lineCfg l).enable = true →
       s.pins.det[l] = true → (s.line l).pulse = some p → 60 ≤ s.now + dt - p.rise → s.now + dt - p.rise < 4500 →
       (∀ q, p.period = some q → 200 ≤ q) → (s.line l).fault = .noFault → (s.line l).seeded = false →
       (s.line l).stage = .quiet →
       ∃ t, exec (.detectorFallingEdge dt l) s = .next t ∧
         let x := s.line l
         let y := t.line l
         let w := s.now + dt - p.rise
         y.lastWidth = w ∧ y.lastReading = (if w ≤ 99 then 0 else if w ≤ 4100 then (w - 100) / 16 else 250) ∧
         y.smooth = 16 * y.lastReading ∧ y.ring = List.replicate 8 (16 * y.lastReading) ∧ y.level = y.lastReading ∧
         y.rise = 0 ∧ y.seeded = true ∧
         y.count = (if x.effAlarm ≤ y.level then min (x.count + 1) (s.lineCfg l).v else 0) ∧
         (x.effAlarm ≤ y.level → y.stage = if y.count = (s.lineCfg l).v then .alarm else .watch) ∧
         (y.level < x.effAlarm → y.stage = if (s.lineCfg l).wt ≤ y.level then .watch else .quiet) ∧
         Handed (((s.elapse dt).setPins { s.pins with det := s.pins.det.set l false }).setLine l y) t)

/-- R3, R5, R8, R9: short and noise discards count in runs of their own; the third in a row detects the fault, which
counts an entry and takes a line out of service unless it is in ALARM. A discard gives no reading. In fault a valid
pulse is counted and its reading recorded; the fourth in a row clears the fault, returns a FAULT stage by the held
level, and asks for a refill. -/
def Obligations.DiscardsAndFaults : Prop :=
  (∀ (s : State) (dt : Nat) (l : Fin 4) (p : Pulse), s.running = true → (s.lineCfg l).enable = true →
       s.pins.det[l] = true → (s.line l).pulse = some p → s.now + dt - p.rise < 4500 →
       ∃ t, exec (.detectorFallingEdge dt l) s = .next t ∧
         let x := s.line l
         let y := t.line l
         let w := s.now + dt - p.rise
         let detected : FaultKind → Prop := fun k =>
           y.fault = k ∧ y.clearing = 0 ∧
           (x.fault = .noFault → y.entries = min (x.entries + 1) 255 ∧ y.count = 0 ∧
             y.stage = if x.stage = .alarm then .alarm else .fault) ∧
           (x.fault ≠ .noFault → y.entries = x.entries ∧ y.stage = x.stage)
         let held : Prop :=
           y.fault = x.fault ∧ y.stage = x.stage ∧ y.count = x.count ∧ (x.fault ≠ .noFault → y.clearing = 0)
         let noise : Prop := ∃ q, p.period = some q ∧ q < 200
         (w < 60 → y.noiseRun = 0 ∧ (x.shortRun ≠ 2 → y.shortRun = x.shortRun + 1 ∧ held) ∧
           (x.shortRun = 2 → y.shortRun = 0 ∧ detected .short)) ∧
         (60 ≤ w → noise → y.shortRun = 0 ∧ (x.noiseRun ≠ 2 → y.noiseRun = x.noiseRun + 1 ∧ held) ∧
           (x.noiseRun = 2 → y.noiseRun = 0 ∧ detected .noisy)) ∧
         (w < 60 ∨ noise → y.lastWidth = w ∧ y.lastReading = x.lastReading ∧ y.smooth = x.smooth ∧ y.ring = x.ring ∧
           y.level = x.level ∧ y.rise = x.rise) ∧
         Handed (((s.elapse dt).setPins { s.pins with det := s.pins.det.set l false }).setLine l y) t) ∧
  (∀ (s : State) (dt : Nat) (l : Fin 4) (p : Pulse), s.running = true → (s.lineCfg l).enable = true →
       s.pins.det[l] = true → (s.line l).pulse = some p → 60 ≤ s.now + dt - p.rise → s.now + dt - p.rise < 4500 →
       (∀ q, p.period = some q → 200 ≤ q) → (s.line l).fault ≠ .noFault →
       ∃ t, exec (.detectorFallingEdge dt l) s = .next t ∧
         let x := s.line l
         let y := t.line l
         let w := s.now + dt - p.rise
         y.lastWidth = w ∧ y.lastReading = (if w ≤ 99 then 0 else if w ≤ 4100 then (w - 100) / 16 else 250) ∧
         y.smooth = x.smooth ∧ y.ring = x.ring ∧ y.rise = x.rise ∧ y.count = x.count ∧ y.level = x.level ∧
         y.entries = x.entries ∧
         (x.clearing ≠ 3 → y.clearing = x.clearing + 1 ∧ y.fault = x.fault ∧ y.stage = x.stage ∧ y.refill = x.refill) ∧
         (x.clearing = 3 → y.clearing = 0 ∧ y.fault = .noFault ∧ y.refill = (x.refill || x.seeded) ∧
           y.stage =
             if x.stage = .fault then (if x.seeded && (s.lineCfg l).wt ≤ x.level then .watch else .quiet) else x.stage) ∧
         Handed (((s.elapse dt).setPins { s.pins with det := s.pins.det.set l false }).setLine l y) t)

/-- R15, R18: ALARM is latched: no command but an accepted RESET_DETECTION and a reset takes a line out of it. R71,
R46, R63: while the own stage is ISOLATED no command but SUPPRESSION_ISOLATE and a reset leaves it. -/
def Obligations.AlarmAndIsolationHold : Prop :=
  (∀ (c : Instr) (s t : State) (l : Fin 4), exec c s = .next t → (s.line l).stage = .alarm →
    (t.line l).stage = .alarm ∨ c = .powerOnReset ∨ c = .pinReset ∨
      (∃ dt rest, c = .resetDetection dt rest ∧ (s.line l).level < (s.line l).effAlarm)) ∧
  (∀ (c : Instr) (s t : State), exec c s = .next t → s.seq.stage = .isolated →
    t.seq.stage = .isolated ∨ c = .powerOnReset ∨ c = .pinReset ∨ ∃ dt rest, c = .suppressionIsolate dt rest)

/-- R16: a line that becomes ALARM is a local detection, and a DETECT frame with the level that verified it waits, at
a member and at a release station, and neither with role NONE. R38, R40: the detection joins the list as its newest
entry. R45, R46, R54, R55: at a release station it brings NORMAL to FIRST_ALARM, or it completes coincidence, which
sets the latch and consumes the list: the stage is then INHIBITED in an occupied area, else COUNTDOWN, or HELD under
abort. In ISOLATED, and once the latch is set, it is recorded alone. -/
def Obligations.NewAlarmIsHandedOn : Prop :=
  ∀ (s t : State) (dt : Nat) (l : Fin 4), exec (.detectorFallingEdge dt l) s = .next t →
    (s.line l).stage ≠ .alarm → (t.line l).stage = .alarm →
    (s.role = .noArea → t.seq.list = s.seq.list ∧ ∀ e ∈ t.bus.queue, e.frame.kind = 3 → e ∈ s.bus.queue) ∧
    (s.role ≠ .noArea → (∀ e ∈ s.seq.list, ¬(e.station = s.address ∧ e.line = l)) → s.seq.list.length < 8 →
      s.areaOccupied = s.seq.occupied →
      let g := (s.lineCfg l).group
      let new : Detection := {
        station := s.address, line := l, group := g, arrival := s.now + dt, consumed := false
        window := some (s.now + dt + s.img.tc * 1000000) }
      let begun := s.seq.stage = .normal ∨ s.seq.stage = .firstAlarm
      (s.bus.queue.length ≤ 3 → ∃ e ∈ t.bus.queue, e.frame =
        .detect (BitVec.ofNat 4 s.area) l (byteOf g.num) true (byteOf (t.line l).level)) ∧
      (s.role = .member → t.seq.apart = { s.seq with list := s.seq.list ++ [new] }.apart) ∧
      (s.role = .release → s.seq.stage = .isolated ∨ (s.seq.latch = true ∧ s.seq.stage ≠ .normal) →
        t.seq.apart = { s.seq with list := s.seq.list ++ [new] }.apart) ∧
      (s.role = .release → begun → (∀ e ∈ s.seq.list, e.group = g) →
        t.seq.list = s.seq.list ++ [new] ∧ t.seq.latch = s.seq.latch ∧ t.seq.stage = .firstAlarm ∧
        (s.seq.stage = .normal → s.bus.queue.length ≤ 3 → NoticeWaits t)) ∧
      (s.role = .release → begun → s.seq.latch = false → (∃ e ∈ s.seq.list, e.group ≠ g) →
        t.seq.latch = true ∧ t.seq.list = (s.seq.list ++ [new]).map (fun e => { e with consumed := true, window := none }) ∧
        (s.areaOccupied = true → t.seq.stage = .inhibited) ∧
        (s.areaOccupied = false → s.seq.abortSet = [] → s.img.tpd ≠ 0 →
          t.seq.stage = .countdown ∧ t.seq.countdown = some (s.now + dt + s.img.tpd * 1000000)) ∧
        (s.areaOccupied = false → s.seq.abortSet = [] → s.img.tpd = 0 → t.seq.stage = .releasing) ∧
        (s.areaOccupied = false → s.seq.abortSet ≠ [] →
          t.seq.stage = .held ∧ t.seq.frozen = s.img.tpd * 1000000)))

/-- R18 to R20: RESET_DETECTION takes a line in ALARM whose level has fallen below its alarm level out of it, by
level or fault, and leaves every other line as it is. R20, R43: its unconsumed entry leaves the list, at a member and
at a release station, where R54 FIRST_ALARM ends with the last entry, told by a notice (R69), and any other stage
stays. R20: with a role other than NONE a DETECT frame with active clear and the line's level waits for each line
reset, and no other. A line that is not in ALARM is told so and left. For all lines the outcomes come line by line,
and a line still active does not keep another from its reset. In a reply the flags bits that the table of R188 gives
to no command are 0 by the model's choice (log entry 35). -/
def Obligations.DetectionResetReleasesALine : Prop :=
  let withdrawn : State → Fin 4 → Frame := fun s l =>
    .detect (BitVec.ofNat 4 s.area) l (byteOf (s.lineCfg l).group.num) false (byteOf (s.line l).level)
  let left : State → List Detection → Prop → State → Prop := fun s rest room t =>
    (s.role = .noArea → t.seq.list = s.seq.list) ∧ (s.role = .member → t.seq.list = rest) ∧
    (s.role = .release →
      s.seq.latch = true ∨ s.seq.stage = .isolated ∨ (∀ e ∈ s.seq.list, ∀ x ∈ s.seq.list, e.group = x.group) →
      t.seq.list = rest ∧ t.seq.latch = s.seq.latch ∧
      (s.seq.stage = .firstAlarm → rest ≠ s.seq.list →
        t.seq.stage = (if rest = [] then .normal else .firstAlarm) ∧ (rest = [] → room → NoticeWaits t)) ∧
      (s.seq.stage ≠ .firstAlarm → s.seq.stage ≠ .normal → s.NoStart → t.seq.stage = s.seq.stage))
  (∀ (s : State) (dt before : Nat) (b : Byte) (l : Fin 4), s.portTakes = true → s.startup.phase ≠ .configFault →
    s.port.state = .idle → b.toNat = l.val → (s.line l).stage = .alarm →
    ((s.line l).level < (s.line l).effAlarm →
      ∃ t, exec (.resetDetection dt ⟨[1, b], before⟩) s = .next t ∧
        t.port.reply = some [12, 0, byteOf (128 * s.port.overrun.toNat), 1, 0] ∧
        (t.line l).apart = { (s.line l).apart with
          count := 0
          stage := if (s.line l).fault = .noFault then
            (if (s.lineCfg l).wt ≤ (s.line l).level then .watch else .quiet) else .fault } ∧
        (∀ k, k ≠ l → (t.line k).apart = (s.line k).apart) ∧
        left s (s.seq.list.filter (fun e => !(e.station == s.address && e.line == l && !e.consumed)))
          (s.bus.queue.length ≤ 3) t ∧
        (s.role ≠ .noArea → s.bus.queue.length ≤ 3 → ∃ e ∈ t.bus.queue, e.frame = withdrawn s l) ∧
        (∀ e ∈ t.bus.queue, e.frame.kind = 3 → e ∈ s.bus.queue ∨ s.role ≠ .noArea ∧ e.frame = withdrawn s l) ∧
        t.peers = s.peers ∧ t.roster = s.roster ∧ t.posture.view = s.posture.view) ∧
    ((s.line l).effAlarm ≤ (s.line l).level →
      ∃ t, exec (.resetDetection dt ⟨[1, b], before⟩) s = .next t ∧
        t.port.reply = some [12, 19, byteOf (128 * s.port.overrun.toNat), 0] ∧
        { t with now := s.now, port := s.port } = s)) ∧
  (∀ (s : State) (dt before : Nat) (b : Byte) (l : Fin 4), s.AtPanel → b.toNat = l.val → (s.line l).stage ≠ .alarm →
    ∃ t, exec (.resetDetection dt ⟨[1, b], before⟩) s = .next t ∧
      After ((s.elapse dt).setPort (s.answered [1, b] 12 0 0 [2])) t) ∧
  (∀ (s : State) (dt before : Nat), s.AtPanel →
    let outcome : Fin 4 → Byte := fun l =>
      if (s.line l).stage ≠ .alarm then 2 else if (s.line l).level < (s.line l).effAlarm then 0 else 1
    ∃ t, exec (.resetDetection dt ⟨[1, 255], before⟩) s = .next t ∧
      t.port = s.answered [1, 255] 12 0 0 [outcome 0, outcome 1, outcome 2, outcome 3] ∧
      (∀ l, outcome l ≠ 0 → (t.line l).apart = (s.line l).apart) ∧
      (∀ l, outcome l = 0 → (t.line l).apart = { (s.line l).apart with
        count := 0
        stage := if (s.line l).fault = .noFault then
          (if (s.lineCfg l).wt ≤ (s.line l).level then .watch else .quiet) else .fault }) ∧
      left s (s.seq.list.filter (fun e => !(e.station == s.address && outcome e.line == 0 && !e.consumed)))
        (s.bus.queue = []) t ∧
      (∀ l, outcome l = 0 → s.role ≠ .noArea → s.bus.queue = [] → ∃ e ∈ t.bus.queue, e.frame = withdrawn s l) ∧
      (∀ e ∈ t.bus.queue, e.frame.kind = 3 → e ∈ s.bus.queue ∨
        s.role ≠ .noArea ∧ ∃ l, outcome l = 0 ∧ e.frame = withdrawn s l) ∧
      t.peers = s.peers ∧ t.roster = s.roster ∧ t.posture.view = s.posture.view)

/-! ## The Peer View (chapter 2) -/

/-- R24 to R26: a STATUS of another station refreshes the sender's entry whole, makes it LIVE, and restarts its
silence timer for three of the periods it announces. R24, R26: a good frame of any other kind makes its sender LIVE,
heard now, leaves what it announced as it was, and starts its silence timer when it was not LIVE. No other entry
changes. That a frame which began before JOIN and ends in it is taken is the model's choice (log entry 39). -/
def Obligations.FramesReachThePeerView : Prop :=
  (∀ (s : State) (dt a : Nat) (bits : List Bool) (c : Announcement),
       Reaches { kind := 6, dt := dt, bits := bits } s a (.status c) →
       ∃ t, exec (.statusFrame dt bits) s = .next t ∧
         t.peer a = {
           presence := .live, lastHeard := s.now + dt, statusHeard := true
           silence := some (s.now + dt + 750000 * c.period), said := c } ∧
         (∀ b, b ≠ a → t.peer b = s.peer b) ∧
         (∀ l, (t.line l).apart = (s.line l).apart) ∧ t.roster = s.roster ∧ t.port = s.port ∧ t.pins = s.pins ∧
         t.startup = s.startup ∧ t.entry.tag = s.entry.tag) ∧
  (∀ (i : Instr) (c : FrameCall) (s : State) (a : Nat) (f : Frame), frameCall i = some c → c.kind ≠ 6 →
       Reaches c s a f →
       ∃ t, exec i s = .next t ∧
         t.peer a = { s.peer a with
           presence := .live, lastHeard := s.now + c.dt
           silence := if (s.peer a).presence = .live then (s.peer a).silence
             else some (s.now + c.dt + 750000 * (s.peer a).said.period) } ∧
         (∀ b, b ≠ a → t.peer b = s.peer b) ∧ (∀ l, (t.line l).apart = (s.line l).apart) ∧
         t.port = s.port ∧ t.pins = s.pins ∧ t.startup = s.startup)

/-- R178 to R180, R192: what is no event of its row has no effect on any block but the time it took and, for the bus
being idle, the levels read (R169): bits that fail a receive check, a receiver that does not run, a stuck bus. The
model's choice: so does a frame of another kind than the row's (log entry 9), and whether the receiver runs is judged by
the phase at the last bit (log entry 39). R180: a good frame under the own address
puts the station in listen-only, which ADDRESS_CLASH tells, and is delivered to no block. -/
def Obligations.FramesWithoutEffect : Prop :=
  (∀ (i : Instr) (c : FrameCall) (s : State), frameCall i = some c →
       let v := (s.elapse c.dt).hear c.bits
       v = (s.elapse c.dt).setBus { s.bus with recessive := v.bus.recessive } ∧
       (s.receiving = false → v = s.elapse c.dt) ∧
       (s.receiving = false ∨ s.bus.stuck = true ∨ (∀ a f, acceptBits c.bits = some (a, f) → f.kind ≠ c.kind) →
         exec i s = .next v) ∧
       exec (.receiveDiscard c.dt c.bits) s = .next v) ∧
  (∀ (i : Instr) (c : FrameCall) (s : State) (f : Frame), frameCall i = some c → s.receiving = true →
       s.bus.stuck = false → acceptBits c.bits = some (s.address, f) → f.kind = c.kind →
       let v := (s.elapse c.dt).hear c.bits
       ∃ t, exec i s = .next t ∧ t.bus.listenOnly = true ∧ (t.source .addressClash).condition = true ∧
         t.peers = s.peers ∧ After (v.setBus { v.bus with listenOnly := true }) t)

/-- R26: the silence timer of a peer expires: it is SILENT, keeps what it announced and when it was heard, and its
timer stays stopped. R29: after every event that a running station settles, PEER_SILENT and RELEASE_STATION_LOST are
true as the presences of the area members say; stated for the expiry of a silence timer, as is the condition of every
other level source (R17, R49, R76). -/
def Obligations.SilenceIsMarkedAndTold : Prop :=
  (∀ (s : State) (a d : Nat), (s.peer a).silence = some d →
       ∃ t, exec (.silenceTimerExpiry a) s = .next t ∧
         t.peer a = { s.peer a with presence := .silent, silence := none } ∧ (∀ b, b ≠ a → t.peer b = s.peer b) ∧
         After ((s.reach d).setPeer a { s.peer a with presence := .silent, silence := none }) t) ∧
  (∀ (s t : State) (a d : Nat), (s.peer a).silence = some d → s.startup.phase = .run →
       exec (.silenceTimerExpiry a) s = .next t →
       ((t.source .peerSilent).condition = true ↔
         s.role ≠ .noArea ∧ ∃ m ∈ s.img.members, (t.peer m).presence ≠ .live) ∧
       ((t.source .releaseStationLost).condition = true ↔
         s.role = .member ∧ ∃ m, s.img.members.head? = some m ∧ (t.peer m).presence ≠ .live) ∧
       t.ConditionsFollow)

/-- R34: in RUN a QUERY is answered by a STATUS of this station, which is in the queue afterwards when places are
free and says what the state then is (R171); stated once the first-status delay has expired (R181). That the abort-held
flag of that STATUS is clear with role NONE, even while ABORT is made, is the model's reading of R73 against R77 (log
entry 20). R31: a STATUS brings the remote alarm list into line with what its sender announces; stated where the list
holds at most six entries. -/
def Obligations.QueriesAndRecovery : Prop :=
  (∀ (s : State) (dt a : Nat) (bits : List Bool), Reaches { kind := 7, dt := dt, bits := bits } s a .query →
       ∃ t, exec (.queryFrame dt bits) s = .next t ∧
         (s.startup.phase = .run → s.bus.announcing = true → s.bus.queue.length ≤ 2 → StatusWaits t) ∧
         t.roster = s.roster ∧ t.posture.view = s.posture.view ∧ t.ann.remote = s.ann.remote) ∧
  (∀ (s : State) (dt a : Nat) (bits : List Bool) (c : Announcement),
       Reaches { kind := 6, dt := dt, bits := bits } s a (.status c) → s.ann.remote.length ≤ 6 →
       ∃ t, exec (.statusFrame dt bits) s = .next t ∧
         ((∃ e ∈ t.ann.remote, e.station = a ∧ e.kind = .duress) ↔ c.duressActive = true) ∧
         (c.stage.ordinal < 2 → ∀ e ∈ t.ann.remote, ¬(e.station = a ∧ e.kind = .firstAlarm)) ∧
         (2 ≤ c.stage.ordinal → s.role = .noArea ∨ c.area ≠ s.area →
           ∃ e ∈ t.ann.remote, e.station = a ∧ e.kind = .firstAlarm) ∧
         (∀ e, e.station ≠ a → (e ∈ t.ann.remote ↔ e ∈ s.ann.remote)))

/-- R30: a STATUS of the own area from a peer enters each marked line that the list misses, arriving now, and leaves
an entry that is there as it is; line 0 comes first by the model's choice (log entry 21). Stated where the list has
room and no coincidence can come of it. R32: at a release station a sender that announces abort-held clear leaves the
abort set, which resumes a countdown that it alone held (R60). R33, R72, R76: the release station's STATUS moves a
member's mirror when no notice has come for 3 s, or none since reset; DISCHARGE is raised as it passes from ordinal 5
or below to 6 or above. Which of R72's and R78's wordings counts after a reset is the model's reading (log entry 16). -/
def Obligations.StatusMakesGoodWhatWasLost : Prop :=
  ∀ (s : State) (dt a : Nat) (bits : List Bool) (c : Announcement),
    Reaches { kind := 6, dt := dt, bits := bits } s a (.status c) →
    ∃ t, exec (.statusFrame dt bits) s = .next t ∧
      (s.role = .member ∨ s.role = .release ∧ s.seq.stage = .isolated → s.seq.list.length ≤ 4 →
        let missed : List (Fin 4) := [0, 1, 2, 3].filter (fun l =>
          c.alarmMask.getLsbD l.val && !s.seq.list.any (fun e => e.station == a && e.line == l))
        (c.area = s.area → t.seq.list = s.seq.list ++ missed.map (fun l => {
          station := a, line := l, group := if c.groupMask.getLsbD l.val then .g2 else .g1, arrival := s.now + dt
          consumed := false, window := some (s.now + dt + s.img.tc * 1000000) })) ∧
        (c.area ≠ s.area → t.seq.list = s.seq.list)) ∧
      (s.role = .noArea → t.seq.list = s.seq.list) ∧
      (s.role = .release → a ∈ s.seq.abortSet → c.abortHeld = false →
        t.seq.abortSet = s.seq.abortSet.filter (· != a) ∧
        (s.seq.stage ≠ .inhibited → s.seq.stage ≠ .normal → s.seq.stage ≠ .firstAlarm → s.seq.abortSet = [a] →
          LastAbort s t)) ∧
      (s.role ≠ .release ∨ a ∉ s.seq.abortSet ∨ c.abortHeld = true → t.seq.abortSet = s.seq.abortSet) ∧
      (let missing := ∀ n, s.seq.mirror.lastNotice = some n → n + 3000000 ≤ s.now + dt
       (s.role = .member → s.img.members.head? = some a → missing →
         t.seq.mirror = { s.seq.mirror with stage := c.stage, remaining := 0, setAt := s.now + dt } ∧
         (s.seq.mirror.stage.ordinal ≤ 5 → 6 ≤ c.stage.ordinal → (t.source .discharge).pending = true)) ∧
       (s.role ≠ .member ∨ s.img.members.head? ≠ some a ∨ ¬missing → t.seq.mirror = s.seq.mirror)) ∧
      t.roster = s.roster ∧ t.port = s.port

/-! ## Coincidence (chapter 3) -/

/-- R38, R40 to R42: a detection from the bus at a member. A new one joins as the newest entry with its window
running; a full list gives up its oldest unconsumed entry, or drops the detection; a repeat refreshes an unconsumed
entry and leaves a consumed one. A frame of another area, or with a group other than 1 and 2, leaves the list as it
is. -/
def Obligations.DetectionsJoinTheList : Prop :=
  ∀ (s : State) (dt a : Nat) (bits : List Bool) (area : BitVec 4) (line : Fin 4) (group level : Byte),
    Reaches { kind := 3, dt := dt, bits := bits } s a (.detect area line group true level) → s.role = .member →
    s.seq.stage = .normal →
    ∃ t, exec (.detectFrame dt bits) s = .next t ∧
      (area.toNat ≠ s.area ∨ Group.ofNat? group.toNat = none → t.seq.list = s.seq.list) ∧
      (∀ g, area.toNat = s.area → Group.ofNat? group.toNat = some g →
        let new : Detection := {
          station := a, line := line, group := g, arrival := s.now + dt, consumed := false
          window := some (s.now + dt + s.img.tc * 1000000) }
        match s.seq.list.find? (fun e => e.station == a && e.line == line) with
        | some e =>
          (e.consumed = true → t.seq.list = s.seq.list) ∧
          (e.consumed = false →
            t.seq.list = s.seq.list.filter (fun e => !(e.station == a && e.line == line)) ++ [new])
        | none =>
          (s.seq.list.length < 8 → t.seq.list = s.seq.list ++ [new]) ∧
          (8 ≤ s.seq.list.length → (∃ e ∈ s.seq.list, e.consumed = false) →
            t.seq.list = s.seq.list.eraseP (fun e => !e.consumed) ++ [new]) ∧
          (8 ≤ s.seq.list.length → (∀ e ∈ s.seq.list, e.consumed = true) → t.seq.list = s.seq.list)) ∧
      t.roster = s.roster ∧ t.port = s.port ∧ t.posture.view = s.posture.view ∧ t.ann.remote = s.ann.remote

/-- R43, R44: a withdrawal from the bus, and the expiry of a window, take an unconsumed entry out of a member's list
and leave every other entry, and every consumed one, in place. R54: at a release station in FIRST_ALARM the stage
becomes NORMAL when the last entry goes, which a notice tells (R69), and stays while another is there. -/
def Obligations.WithdrawalsAndWindowsEndEntries : Prop :=
  (∀ (s : State) (a : Nat) (line : Fin 4), s.role = .member → s.seq.stage = .normal →
    (∀ (dt : Nat) (bits : List Bool) (area : BitVec 4) (group level : Byte),
      Reaches { kind := 3, dt := dt, bits := bits } s a (.detect area line group false level) → area.toNat = s.area →
      (Group.ofNat? group.toNat).isSome = true →
      ∃ t, exec (.detectFrame dt bits) s = .next t ∧
        t.seq.list = s.seq.list.filter (fun e => !(e.station == a && e.line == line && !e.consumed))) ∧
    (∀ (e : Detection) (d : Nat),
      s.seq.list.find? (fun e => e.station == a && e.line == line && !e.consumed) = some e → e.window = some d →
      ∃ t, exec (.windowTimerExpiry a line) s = .next t ∧
        t.seq.list = s.seq.list.filter (fun e => !(e.station == a && e.line == line && !e.consumed)) ∧
        Handed (s.reach d) t ∧ (s.lockoutStage = s.doors.a.lockout → t.doors = s.doors))) ∧
  (∀ (s : State) (a : Nat) (line : Fin 4) (e : Detection), s.role = .release → s.seq.stage = .firstAlarm →
    s.seq.latch = true ∨ (∀ x ∈ s.seq.list, x.group = e.group) →
    s.seq.list.find? (fun e => e.station == a && e.line == line && !e.consumed) = some e →
    let rest := s.seq.list.filter (fun e => !(e.station == a && e.line == line && !e.consumed))
    let follows : State → Prop := fun t =>
      t.seq.list = rest ∧ t.seq.latch = s.seq.latch ∧ (rest = [] → s.bus.queue.length ≤ 3 → NoticeWaits t) ∧
      t.seq.stage = if rest = [] then .normal else .firstAlarm
    (∀ (dt : Nat) (bits : List Bool) (area : BitVec 4) (group level : Byte),
      Reaches { kind := 3, dt := dt, bits := bits } s a (.detect area line group false level) → area.toNat = s.area →
      (Group.ofNat? group.toNat).isSome = true → ∃ t, exec (.detectFrame dt bits) s = .next t ∧ follows t) ∧
    (∀ d, e.window = some d → ∃ t, exec (.windowTimerExpiry a line) s = .next t ∧ follows t ∧ Handed (s.reach d) t))

/-- R45, R46, R55, R57: the detection that completes coincidence at a release station sets the latch and consumes the
whole list. The stage becomes INHIBITED while the area is occupied; else COUNTDOWN, or HELD under abort, with
remaining Tpd. R54: a detection that completes none joins the list and brings NORMAL to FIRST_ALARM. In ISOLATED it
is recorded, whatever its group, and neither the stage nor the latch moves. R56: in INHIBITED an area that a sweep, a
passage or a STATUS leaves occupied holds the stage, and one that becomes clear starts COUNTDOWN, or HELD under
abort, with remaining Tpd; nothing left expires at once. R69: a notice tells each new stage. R28, R52, R78: while a
member of a release station's area is not LIVE or has sent no STATUS, as each is after reset, area occupied is set in
every start phase, and no command but a manual release starts a countdown; that it is not set beyond that in JOIN is
the model's reading of R78 (log entry 30). -/
def Obligations.CoincidenceStartsTheSequence : Prop :=
  (∀ (s : State) (dt a : Nat) (bits : List Bool) (area : BitVec 4) (line : Fin 4) (group level : Byte) (g : Group),
    Reaches { kind := 3, dt := dt, bits := bits } s a (.detect area line group true level) → s.role = .release →
    area.toNat = s.area → Group.ofNat? group.toNat = some g → s.seq.stage = .normal ∨ s.seq.stage = .firstAlarm →
    s.seq.latch = false → s.seq.list.length < 8 → (∀ e ∈ s.seq.list, ¬(e.station = a ∧ e.line = line)) →
    (∃ e ∈ s.seq.list, e.group ≠ g) →
    ∃ t, exec (.detectFrame dt bits) s = .next t ∧
      t.seq.latch = true ∧ t.seq.list.length = s.seq.list.length + 1 ∧
      (∀ e ∈ t.seq.list, e.consumed = true ∧ e.window = none) ∧ t.seq.abortSet = s.seq.abortSet ∧
      (t.areaOccupied = true → t.seq.stage = .inhibited ∧ t.seq.countdown = none ∧ t.seq.frozen = 0) ∧
      (t.areaOccupied = false → s.seq.abortSet = [] → s.img.tpd ≠ 0 →
        t.seq.stage = .countdown ∧ t.seq.countdown = some (s.now + dt + s.img.tpd * 1000000) ∧ t.seq.frozen = 0) ∧
      (t.areaOccupied = false → s.seq.abortSet ≠ [] →
        t.seq.stage = .held ∧ t.seq.countdown = none ∧ t.seq.frozen = s.img.tpd * 1000000) ∧
      (s.img.tpd ≠ 0 → s.bus.queue.length ≤ 3 → NoticeWaits t) ∧
      t.roster = s.roster ∧ t.port = s.port ∧ t.posture.view = s.posture.view) ∧
  (∀ (s : State) (dt a : Nat) (bits : List Bool) (area : BitVec 4) (line : Fin 4) (group level : Byte) (g : Group),
    Reaches { kind := 3, dt := dt, bits := bits } s a (.detect area line group true level) → s.role = .release →
    area.toNat = s.area → Group.ofNat? group.toNat = some g → s.seq.list.length < 8 →
    (∀ e ∈ s.seq.list, ¬(e.station = a ∧ e.line = line)) →
    (s.seq.stage = .normal ∨ s.seq.stage = .firstAlarm) ∧ (∀ e ∈ s.seq.list, e.group = g) ∨ s.seq.stage = .isolated →
    ∃ t, exec (.detectFrame dt bits) s = .next t ∧
      t.seq.list = s.seq.list ++ [{
        station := a, line := line, group := g, arrival := s.now + dt, consumed := false
        window := some (s.now + dt + s.img.tc * 1000000) }] ∧
      t.seq.stage = (if s.seq.stage = .isolated then .isolated else .firstAlarm) ∧
      (s.seq.stage = .normal → s.bus.queue.length ≤ 3 → NoticeWaits t) ∧
      t.seq.latch = s.seq.latch ∧ t.seq.abortSet = s.seq.abortSet ∧ t.roster = s.roster ∧ t.port = s.port ∧
      t.posture.view = s.posture.view) ∧
  (∀ (c : Instr) (s t : State), s.role = .release → s.seq.stage = .inhibited → s.seq.occupied = true →
    s.areaOccupied = true →
    (∃ dt before, c = .zoneSweep dt ⟨[0], before⟩ ∧ s.AtPanel) ∨ (∃ d, c = .doorContactCloses .held d) ∨
      (∃ dt bits a x, c = .statusFrame dt bits ∧ Reaches { kind := 6, dt := dt, bits := bits } s a (.status x) ∧
        (a ∉ s.seq.abortSet ∨ x.abortHeld = true)) →
    exec c s = .next t →
    (t.areaOccupied = true → t.seq.stage = .inhibited ∧ t.seq.occupied = true) ∧
    (t.areaOccupied = false → t.seq.occupied = false ∧ t.seq.abortSet = s.seq.abortSet ∧
      (s.seq.abortSet = [] → s.img.tpd ≠ 0 →
        t.seq.stage = .countdown ∧ t.seq.countdown = some (t.now + s.img.tpd * 1000000)) ∧
      (s.seq.abortSet = [] → s.img.tpd = 0 → t.seq.stage = .releasing) ∧
      (s.seq.abortSet ≠ [] → t.seq.stage = .held ∧ t.seq.countdown = none ∧ t.seq.frozen = s.img.tpd * 1000000) ∧
      (s.img.tpd ≠ 0 → s.bus.queue.length ≤ 3 → NoticeWaits t))) ∧
  (∀ (c : Instr) (s t : State) (m : Nat), exec c s = .next t → s.role = .release → s.running = true → t.running = true →
    m ∈ t.img.members → (t.peer m).presence ≠ .live ∨ (t.peer m).statusHeard = false →
    (∀ e made, c ≠ .manrelMade e made) → (∀ dt bits, c ≠ .releaseCallFrame dt bits) →
    s.seq.stage.ordinal ≤ 3 → s.seq.occupied = true → t.seq.stage.ordinal ≤ 3 ∧ t.seq.occupied = true)

/-! ## The discharge sequence (chapter 4) -/

/-- R58, R59, R60, R62: the own ABORT input at a release station, once its change is taken (R53). Made, the own
address joins the set; the first to join starts the stuck timer and freezes a countdown. Broken, it leaves; the last
to leave stops the timer and resumes a held countdown by the abort mode. In RELEASING and after it the stage is
unchanged. R73: a member sends its ABORT input to the release station; with role NONE the input has no effect. Either
way the own sequence does not move. R58, R59: in INHIBITED the set and its timer move and the stage does not; an
occupancy that waits to be handed on could end it, and is left out. -/
def Obligations.AbortInput : Prop :=
  (∀ (s : State) (f : Nat) (made : Bool), s.running = true → s.role = .release → s.pins.filter .abort = some f →
       s.pins.abort = !made → s.NoStart →
       ∃ t, exec (.abortInputChange .held made) s = .next t ∧
         Handed ((s.reach f).setPins (s.pins.take .abort made)) t ∧
         (made = true → s.seq.abortSet = [] → FirstAbort s.address s t) ∧
         (made = true → s.seq.abortSet ≠ [] →
           t.seq.stage = s.seq.stage ∧ t.seq.abortStuck = s.seq.abortStuck ∧
           t.seq.abortSet = if s.address ∈ s.seq.abortSet ∨ 4 ≤ s.seq.abortSet.length then s.seq.abortSet
             else s.seq.abortSet ++ [s.address]) ∧
         (made = false → s.seq.abortSet = [s.address] → LastAbort s t) ∧
         (made = false → t.seq.abortSet = s.seq.abortSet.filter (· != s.address)) ∧
         (t.source .abortHeld).condition = !t.seq.abortSet.isEmpty) ∧
  (∀ (s : State) (f : Nat) (made : Bool), s.running = true → s.role ≠ .release → s.pins.filter .abort = some f →
       s.pins.abort = !made →
       ∃ t, exec (.abortInputChange .held made) s = .next t ∧ t.seq.apart = s.seq.apart ∧
         Handed ((s.reach f).setPins (s.pins.take .abort made)) t ∧
         (s.role = .member → (t.source .abortHeld).condition = made) ∧
         (s.role = .member → s.bus.queue.length ≤ 3 →
           { frame := .releaseCall (byteOf s.area) (if made then 1 else 2), order := s.bus.nextOrder : QueueEntry } ∈
             t.bus.queue))

/-- R58, R59, R60, R63: a RELEASE_CALL of the own area at a release station: ABORT_ON puts its sender into the set,
and the first to join holds a countdown; ABORT_OFF takes it out, and the last to leave resumes it; MANUAL is a manual
release. Any other value, another area, or another role leaves the sequence as it is. INHIBITED itself ends where the
frame makes the area clear (R56). -/
def Obligations.CallsActOnTheSequence : Prop :=
  ∀ (s : State) (dt a : Nat) (bits : List Bool) (area call : Byte),
    Reaches { kind := 1, dt := dt, bits := bits } s a (.releaseCall area call) →
    ∃ t, exec (.releaseCallFrame dt bits) s = .next t ∧
      let own := s.role = .release ∧ area.toNat = s.area
      let still := s.seq.stage ≠ .inhibited ∨ t.areaOccupied = true
      (own → call = 1 →
        t.seq.abortSet = (if a ∈ s.seq.abortSet ∨ 4 ≤ s.seq.abortSet.length then s.seq.abortSet
          else s.seq.abortSet ++ [a]) ∧
        (still → s.seq.abortSet = [] → FirstAbort a s t) ∧
        (still → s.seq.abortSet ≠ [] → t.seq.stage = s.seq.stage)) ∧
      (own → call = 2 →
        t.seq.abortSet = s.seq.abortSet.filter (· != a) ∧ (still → s.seq.abortSet = [a] → LastAbort s t)) ∧
      (own → call = 0 → t.seq.abortSet = s.seq.abortSet ∧ (still → ManuallyReleased s t)) ∧
      (¬own ∨ 3 ≤ call.toNat → still → t.seq.apart = s.seq.apart) ∧
      t.seq.list = s.seq.list ∧ t.roster = s.roster ∧ t.port = s.port ∧ t.pins = s.pins

/-- R63, R64: MANREL is made, and its change taken (R53): MANUAL_RELEASE is raised in every role and stage; a release
station starts or shortens the countdown by its stage; a member asks its release station. Its breaking changes the
input's level alone. -/
def Obligations.ManualReleaseActsByStage : Prop :=
  (∀ (s : State) (f : Nat), s.running = true → s.pins.filter .manrel = some f → s.pins.manrel = false →
    ∃ t, exec (.manrelMade .held true) s = .next t ∧
      Handed ((s.reach f).setPins (s.pins.take .manrel true)) t ∧
      (t.source .manualRelease).pending = true ∧
      (s.role = .release → ManuallyReleased s t) ∧
      (s.role ≠ .release → t.seq.apart = s.seq.apart) ∧
      (s.role = .member → s.bus.queue.length ≤ 3 →
        { frame := .releaseCall (byteOf s.area) 0, order := s.bus.nextOrder : QueueEntry } ∈ t.bus.queue)) ∧
  (∀ (s : State) (f : Nat), s.pins.filter .manrel = some f → s.pins.manrel = true →
    exec (.manrelMade .held false) s = .next ((s.reach f).setPins (s.pins.take .manrel false)))

/-- R57, R65, R69: the countdown expires: RELEASING with no remaining, the notice timer stops, and the valve waits
for Dv, or is energised at once when Dv is 0. R65 to R67: the valve one-shot in RELEASING: after the delay the valve
is energised for Pv, DISCHARGE is raised and the flow is waited for, or found; after the pulse it is de-energised,
and DISCHARGED begins with its soak. R67, R61: the soak ends in VENTED; an abort set that stays filled for Tab raises
ABORT_STUCK and the stage is unchanged, the timer stopped. R69: a notice tells each new stage, and flow that is found
at the valve's start; that of RELEASING is said where flow confirmed is clear, as it is from a reset to the valve's
start. -/
def Obligations.DischargeRunsToVented : Prop :=
  (∀ (s : State) (d : Nat), s.seq.stage = .countdown → s.seq.countdown = some d →
       ∃ t, exec .countdownExpiry s = .next t ∧ t.seq.stage = .releasing ∧ t.seq.countdown = none ∧ t.seq.frozen = 0 ∧
         t.seq.notice = none ∧ t.seq.list = s.seq.list ∧ t.seq.abortSet = s.seq.abortSet ∧ t.seq.soak = s.seq.soak ∧
         (s.img.dv ≠ 0 → t.seq.valveDelay = some (max s.now d + s.img.dv * 1000) ∧ t.seq.valve = s.seq.valve ∧
           t.seq.valvePulse = s.seq.valvePulse) ∧
         (s.img.dv = 0 → t.seq.valve = true ∧ t.seq.valvePulse = some (max s.now d + s.img.pv * 1000) ∧
           (t.source .discharge).pending = true) ∧
         (s.seq.flowConfirmed = false → s.bus.queue.length ≤ 3 → NoticeWaits t) ∧
         Handed (s.reach d) t) ∧
  (∀ (s : State) (d : Nat), s.seq.stage = .releasing →
       (s.seq.valveDelay = some d →
         ∃ t, exec .valveDelayExpiry s = .next t ∧ t.seq.stage = .releasing ∧ t.seq.valve = true ∧
           t.seq.valveDelay = none ∧ t.seq.valvePulse = some (max s.now d + s.img.pv * 1000) ∧
           (t.source .discharge).pending = true ∧
           t.seq.flowConfirmed = s.pins.flow ∧
           t.seq.flowWait = (if s.pins.flow then none else some (max s.now d + s.img.tf * 1000000)) ∧
           (s.pins.flow = true → s.bus.queue.length ≤ 3 → NoticeWaits t) ∧
           t.seq.list = s.seq.list ∧ t.seq.abortSet = s.seq.abortSet ∧ Handed (s.reach d) t) ∧
       (s.seq.valvePulse = some d →
         ∃ t, exec .valvePulseExpiry s = .next t ∧ t.seq.stage = .discharged ∧ t.seq.valve = false ∧
           t.seq.valvePulse = none ∧ t.seq.soak = some (max s.now d + s.img.ts * 1000000) ∧
           t.seq.flowWait = s.seq.flowWait ∧ t.seq.flowConfirmed = s.seq.flowConfirmed ∧
           (s.bus.queue.length ≤ 3 → NoticeWaits t) ∧
           t.seq.list = s.seq.list ∧ t.seq.abortSet = s.seq.abortSet ∧ Handed (s.reach d) t)) ∧
  (∀ (s : State) (d : Nat),
       (s.seq.stage = .discharged → s.seq.soak = some d →
         ∃ t, exec .soakTimerExpiry s = .next t ∧ t.seq.stage = .vented ∧ t.seq.soak = none ∧
           t.seq.valve = s.seq.valve ∧ t.seq.list = s.seq.list ∧ t.seq.abortSet = s.seq.abortSet ∧
           (s.bus.queue.length ≤ 3 → NoticeWaits t) ∧ Handed (s.reach d) t) ∧
       (s.seq.abortStuck = some d → s.NoStart →
         ∃ t, exec .abortStuckExpiry s = .next t ∧ (t.source .abortStuck).pending = true ∧
           t.seq.apart = { s.seq with abortStuck := none }.apart ∧ Handed (s.reach d) t))

/-- R66: while the flow wait runs, FLOW made, its change taken (R53), confirms the flow, stops the wait and is told
by a notice with the flag (R69); the wait's expiry raises RELEASE_FAILURE and confirms nothing. With no wait running
FLOW changes nothing but its own level, and nor does its breaking at any time. R68: the valve circuit. At a running
release station RELEASE_CIRCUIT is true exactly while VSUP reads open, in every other role never, and the sequence
does not look at it. -/
def Obligations.FlowAndValveCircuit : Prop :=
  (∀ (s : State) (f : Nat), s.NoStart → s.running = true → s.pins.filter .flow = some f →
       s.pins.flow = false →
       let u := (s.reach f).setPins (s.pins.take .flow true)
       (s.seq.flowWait.isSome = true →
         ∃ t, exec (.flowMade .held true) s = .next t ∧ t.seq.flowConfirmed = true ∧ t.seq.flowWait = none ∧
           t.seq.stage = s.seq.stage ∧ t.seq.valve = s.seq.valve ∧
           (s.bus.queue.length ≤ 3 → NoticeWaits t) ∧ Handed u t) ∧
       (s.seq.flowWait = none → exec (.flowMade .held true) s = .next u)) ∧
  (∀ (s : State) (d : Nat), s.seq.flowWait = some d → s.NoStart →
       ∃ t, exec .flowWaitExpiry s = .next t ∧ (t.source .releaseFailure).pending = true ∧
         t.seq.apart = { s.seq with flowWait := none }.apart ∧ Handed (s.reach d) t) ∧
  (∀ (s : State) (f : Nat), s.pins.filter .flow = some f → s.pins.flow = true →
       exec (.flowMade .held false) s = .next ((s.reach f).setPins (s.pins.take .flow false))) ∧
  (∀ (s : State) (dt : Nat) (isOpen : Bool), s.running = true → s.NoStart →
       ∃ t, exec (.vsupChange dt isOpen) s = .next t ∧ t.pins = { s.pins with vsupOpen := isOpen } ∧
         (t.source .releaseCircuit).condition = (s.role == .release && isOpen) ∧
         (s.role = .release → isOpen = true → (s.source .releaseCircuit).condition = false →
           (t.source .releaseCircuit).pending = true ∨ (t.source .releaseCircuit).inService = true ∨
             (t.source .releaseCircuit).settled = true) ∧
         t.seq.apart = s.seq.apart ∧ Handed ((s.elapse dt).setPins { s.pins with vsupOpen := isOpen }) t)

/-- R69: the notice timer expires: a RELEASE_NOTICE waits with the own area, the stage ordinal, remaining in whole
seconds rounded up and the flow confirmed flag, and the timer runs for another second in COUNTDOWN and HELD and stops
in any other stage. R74: a phase of a repeating pattern ends: ON and GAP follow one another for one second or for 250
ms each. Nothing else changes. At any other event the sounder has the pattern of the stage then shown; the same
pattern runs on, and another starts at the beginning of its ON phase. SOUND is energised in phase ON alone. -/
def Obligations.NoticesAndCadence : Prop :=
  (∀ (s : State) (d : Nat), s.seq.notice = some d → s.NoStart →
       ∃ t, exec .noticeTimerExpiry s = .next t ∧
         t.seq.apart = { s.seq with
           notice := if s.seq.stage = Stage.countdown ∨ s.seq.stage = Stage.held then some (max s.now d + 1000000)
             else none }.apart ∧
         (s.bus.queue.length ≤ 3 → NoticeWaits t) ∧ Handed (s.reach d) t) ∧
  (∀ (s : State) (d : Nat), s.seq.phaseEnd = some d →
       ∃ t, exec .cadencePhaseExpiry s = .next t ∧
         (s.seq.cadence = .on → t.seq.cadence = .gap) ∧ (s.seq.cadence = .gap → t.seq.cadence = .on) ∧
         (s.seq.pattern = .slow → t.seq.phaseEnd = some (max s.now d + 1000000)) ∧
         (s.seq.pattern = .fast → t.seq.phaseEnd = some (max s.now d + 250000)) ∧
         t = (s.reach d).setSeq { s.seq with cadence := t.seq.cadence, phaseEnd := t.seq.phaseEnd }) ∧
  (∀ (c : Instr) (s t : State), exec c s = .next t → c ≠ .cadencePhaseExpiry → s.running = true → t.running = true →
       s.seq.pattern = soundOf s.shownStage → Sounds s t ∧ (t.sound = true ↔ t.seq.cadence = .on))

/-- R70: SUPPRESSION_RESET, decided in the order of the rule; accepted, it clears the list, the latch, the abort set,
the timers and the flow, and the stage is NORMAL. An own ABORT input still made joins the emptied set, and
ABORT_HELD, which its emptying ended, is raised anew (R58, R62, R154; the model's reading, log entry 34). A refusal
changes nothing but the port. R71: SUPPRESSION_ISOLATE at a release station, by argument and stage; elsewhere it is
refused. R69: a notice tells each new stage. In a reply the flags bits that the table of R188 gives to no command are
0 by the model's choice (log entry 35). -/
def Obligations.SuppressionCommands : Prop :=
  (∀ (s : State) (dt before : Nat), s.portTakes = true → s.startup.phase ≠ .configFault → s.port.state = .idle →
       ∃ t, exec (.suppressionReset dt ⟨[0], before⟩) s = .next t ∧
         let active := (∃ l, (s.line l).stage = .alarm) ∨
           ∃ m ∈ s.img.members, (s.peer m).presence = .live ∧ (s.peer m).said.alarmMask ≠ 0
         let refused : Byte → Prop := fun code =>
           t.port.reply = some [14, code, byteOf (128 * s.port.overrun.toNat), 0] ∧ { t with now := s.now, port := s.port } = s
         (s.role ≠ .release → refused 23) ∧
         (s.role = .release → s.seq.stage = .isolated ∨ s.seq.stage = .releasing ∨ s.seq.stage = .discharged →
           refused 22) ∧
         (s.role = .release → s.seq.stage ≠ .isolated → s.seq.stage ≠ .releasing → s.seq.stage ≠ .discharged → active →
           refused 21) ∧
         (s.role = .release → s.seq.stage ≠ .isolated → s.seq.stage ≠ .releasing → s.seq.stage ≠ .discharged → ¬active →
           t.port.reply = some [14, 0, byteOf (128 * s.port.overrun.toNat), 0] ∧
           t.seq.stage = .normal ∧ t.seq.list = [] ∧ t.seq.latch = false ∧ t.seq.countdown = none ∧ t.seq.frozen = 0 ∧
           t.seq.soak = none ∧ t.seq.flowWait = none ∧ t.seq.notice = none ∧ t.seq.flowConfirmed = false ∧
           t.seq.abortSet = (if s.pins.abort then [s.address] else []) ∧
           t.seq.abortStuck = (if s.pins.abort then some (s.now + dt + s.img.tab * 1000000) else none) ∧
           (let x := s.source .abortHeld
            s.pins.abort = true → x.condition = true →
              (x.pending = true → x.inService = false → x.settled = false →
                t.source .abortHeld = { x with raised := s.seconds (s.now + dt) }) ∧
              (x.pending = false → x.inService = true → t.source .abortHeld = x) ∧
              (x.pending = false → x.inService = false →
                t.source .abortHeld = { x with pending := true, settled := false, raised := s.seconds (s.now + dt) })) ∧
           (s.bus.queue.length ≤ 3 → NoticeWaits t) ∧
           (∀ l, (t.line l).apart = (s.line l).apart) ∧ t.peers = s.peers ∧ t.roster = s.roster ∧
           t.posture.view = s.posture.view ∧ t.pins = s.pins)) ∧
  (∀ (s : State) (dt before : Nat) (on : Bool), s.portTakes = true → s.startup.phase ≠ .configFault → s.port.state = .idle →
       s.role = .release →
       ∃ t, exec (.suppressionIsolate dt ⟨[1, byteOf on.toNat], before⟩) s = .next t ∧
         let answered : Byte → Prop := fun code =>
           t.port.reply = some [15, code, byteOf (128 * s.port.overrun.toNat), 0]
         let unchanged : Prop := { t with now := s.now, port := s.port } = s
         let told : Prop := s.bus.queue.length ≤ 3 → NoticeWaits t
         let both := (∃ e ∈ s.seq.list, e.group = .g1) ∧ ∃ e ∈ s.seq.list, e.group = .g2
         (s.seq.stage = .normal ∨ s.seq.stage = .firstAlarm →
           answered 0 ∧ (on = true → t.seq.stage = .isolated ∧ t.seq.list = s.seq.list ∧ told) ∧
           (on = false → unchanged)) ∧
         (s.seq.stage = .isolated →
           (on = true → answered 0 ∧ unchanged) ∧
           (on = false → both → answered 21 ∧ unchanged) ∧
           (on = false → ¬both → answered 0 ∧ t.seq.list = s.seq.list ∧ told ∧
             t.seq.stage = if s.seq.list = [] then .normal else .firstAlarm)) ∧
         (3 ≤ s.seq.stage.ordinal → answered 22 ∧ unchanged)) ∧
  (∀ (s : State) (dt before : Nat) (on : Bool), s.AtPanel → s.role ≠ .release →
     exec (.suppressionIsolate dt ⟨[1, byteOf on.toNat], before⟩) s =
       .next ((s.elapse dt).setPort (s.answered [1, byteOf on.toNat] 15 23 0 [])))

/-- R72, R76: a RELEASE_NOTICE of the area's release station moves a member's mirror; DISCHARGE is raised as it passes
from ordinal 5 or below to 6 or above. A notice of another station, another area or an ordinal above 8 leaves it. -/
def Obligations.NoticeMovesTheMirror : Prop :=
  ∀ (s : State) (dt a : Nat) (bits : List Bool) (area ordinal : BitVec 4) (remaining : Byte) (flow : Bool),
    Reaches { kind := 0, dt := dt, bits := bits } s a (.releaseNotice area ordinal remaining flow) →
    ∃ t, exec (.releaseNoticeFrame dt bits) s = .next t ∧
      (∀ st, s.role = .member → s.img.members.head? = some a → area.toNat = s.area →
        Stage.ofNat? ordinal.toNat = some st →
        t.seq.mirror = {
          stage := st, remaining := remaining.toNat * 1000000, setAt := s.now + dt, flow := flow
          lastNotice := some (s.now + dt) } ∧
        (s.seq.mirror.stage.ordinal ≤ 5 → 6 ≤ st.ordinal → (t.source .discharge).pending = true)) ∧
      (s.role ≠ .member ∨ s.img.members.head? ≠ some a ∨ area.toNat ≠ s.area ∨ 8 < ordinal.toNat →
        t.seq.mirror = s.seq.mirror) ∧
      (s.seq.stage ≠ .inhibited ∨ s.role ≠ .release ∨ t.areaOccupied = true → t.seq.stage = s.seq.stage) ∧
      t.seq.list = s.seq.list ∧ t.roster = s.roster ∧ t.port = s.port

/-! ## Doors (chapter 5) -/

/-- R80, R53, R156: the twenty milliseconds of a filtered input. A pin that leaves the level taken starts the filter;
a return within 20 ms stops it, and nothing is taken; when the pin has held the new level for 20 ms, that level is
taken and the filter is at rest. A pin that stays where it is, or a level that no filter waits on, changes nothing.
The model's choice (log entry 13): before the blocks run nothing is filtered, and a return told later than 20 ms is
that of a change that has been taken first. -/
def Obligations.InputsAreFiltered : Prop :=
  ∀ (i : Instr) (c : InputCall) (s : State), inputCall i = some c →
    (∀ dt, c.event = .moves dt →
      let u := s.elapse dt
      (s.pins.raw c.input = c.level → exec i s = .next u) ∧
      (s.pins.raw c.input ≠ c.level → s.running = false → exec i s = .next (u.setPins (s.pins.take c.input c.level))) ∧
      (s.pins.raw c.input ≠ c.level → s.running = true →
        (s.pins.filter c.input = none →
          exec i s = .next (u.setPins (s.pins.setFilter c.input (some (s.now + dt + 20000))))) ∧
        (∀ f, s.pins.filter c.input = some f → s.now + dt < f →
          exec i s = .next (u.setPins (s.pins.setFilter c.input none))) ∧
        (∀ f j t, s.pins.filter c.input = some f → f ≤ s.now + dt →
          inputCall j = some { input := c.input, level := !c.level, event := .held } → exec j u = .next t →
          exec i s = .next (t.setPins (t.pins.setFilter c.input (some (s.now + dt + 20000))))))) ∧
    (c.event = .held →
      (s.pins.filter c.input = none ∨ s.pins.level c.input = c.level → exec i s = .next s) ∧
      (∀ f, s.pins.filter c.input = some f → s.pins.level c.input ≠ c.level →
        ∃ t, exec i s = .next t ∧ t.pins = s.pins.take c.input c.level ∧ t.now = max s.now f))

/-- R84, R87, R80, R81: a contact opens, and the change is taken. A RELEASED door is OPEN, strike off, its held timer
running, its credit kept. A SECURE door is FORCED: its forced source is raised, the roster is in doubt, and every
reservation is broken, told by PAIR_BROKEN. Any other door takes the contact alone, and an absent door or a station
that does not run not even that. -/
def Obligations.ContactOpenings : Prop :=
  ∀ (s : State) (f : Nat) (d : DoorId), s.pins.filter (contactInput d) = some f →
    s.pins.level (contactInput d) = false →
    let u := (s.reach f).setPins (s.pins.take (contactInput d) true)
    (¬(s.running = true ∧ (s.door d).absent = false) → exec (.doorContactOpens .held d) s = .next u) ∧
    (s.running = true → (s.door d).absent = false → ∃ t, exec (.doorContactOpens .held d) s = .next t ∧
      ((s.door d).state = .released → After (u.setDoor d { s.door d with
        state := .opened, contactOpen := true, strike := false, window := none
        heldTimer := some (u.now + s.img.th * 1000000) }) t) ∧
      ((s.door d).state = .opened ∨ (s.door d).state = .heldOpen ∨ (s.door d).state = .forced →
        After (u.setDoor d { s.door d with contactOpen := true }) t) ∧
      ((s.door d).state = .secure →
        (s.lockoutStage = s.doors.a.lockout →
          t.doors = (u.setDoor d { s.door d with state := .forced, contactOpen := true }).doors) ∧
        (t.source (forcedSource d)).pending = true ∧
        (∀ e, t.reservation e = none) ∧
        (∀ e, (s.reservation e).isSome = true → t.broken e = true ∧ (t.source .pairBroken).pending = true) ∧
        t.seq.apart = s.seq.apart ∧
        Handed (u.setRoster { s.roster with
          doubtful := true, cause := if s.roster.doubtful then s.roster.cause else forcedCause d }) t))

/-- R85 to R88, R91, R92: a contact closes, and the change is taken. A door that was OPEN, HELD_OPEN or FORCED is
SECURE: strike off, no timer, no credit; and the interlock test is made, which may grant the request that waits at
this door or at its partner, and of two the earlier. A SECURE or RELEASED door takes the contact alone. -/
def Obligations.ContactClosings : Prop :=
  ∀ (s : State) (f : Nat) (d : DoorId), s.pins.filter (contactInput d) = some f →
    s.pins.level (contactInput d) = true →
    let u := (s.reach f).setPins (s.pins.take (contactInput d) false)
    let y := { s.door d with
      contactOpen := false, state := .secure, strike := false, window := none, heldTimer := none, credit := none }
    (¬(s.running = true ∧ (s.door d).absent = false) → exec (.doorContactCloses .held d) s = .next u) ∧
    (s.running = true → (s.door d).absent = false → ∃ t, exec (.doorContactCloses .held d) s = .next t ∧
      ((s.door d).state = .secure ∨ (s.door d).state = .released →
        After (u.setDoor d { s.door d with contactOpen := false }) t) ∧
      ((s.door d).state = .opened ∨ (s.door d).state = .heldOpen ∨ (s.door d).state = .forced →
        s.lockoutStage = s.doors.a.lockout →
        t.pins = u.pins ∧ t.port = s.port ∧ t.peers = s.peers ∧ t.doors.counter = s.doors.counter ∧
        Interlocked (fun e => if e = d then y else s.door e) s.doors.counter u.now s.img.tr t))

/-- R95, R123 to R126, R130: a passage through door A is consummated as it closes. An ENTRY appends each holder who
is not there yet, or puts the roster in doubt when it is full; an EGRESS removes its holder, or raises
ROSTER_MISMATCH, and the last escort to leave escortees raises ESCORT_LEFT; an EXIT_REQUEST empties a roster of one
and puts a larger one in doubt. Door B, and a door without a credit, changes no entry. -/
def Obligations.PassagesMoveTheRoster : Prop :=
  ∀ (s : State) (f : Nat) (d : DoorId), s.pins.filter (contactInput d) = some f →
    s.pins.level (contactInput d) = true → s.running = true → (s.door d).absent = false →
    (s.door d).state = .opened ∨ (s.door d).state = .heldOpen →
    ∃ t, exec (.doorContactCloses .held d) s = .next t ∧
      let here : Nat → Prop := fun id => ∃ e ∈ s.roster.entries, e.holder.id = id
      let time := s.seconds (max s.now f)
      let doubt : DoubtCause → Roster := fun c =>
        { s.roster with doubtful := true, cause := if s.roster.doubtful then s.roster.cause else c }
      (d = .b ∨ (s.door d).credit = none → t.roster = s.roster) ∧
      (∀ c h, d = .a → (s.door d).credit = some c → c.kind = .entry → c.holders = [h] →
        (here h.id → t.roster = s.roster) ∧
        (¬here h.id → s.roster.entries.length < 16 →
          t.roster = { s.roster with entries := s.roster.entries ++ [{ holder := h, time := time }] }) ∧
        (¬here h.id → 16 ≤ s.roster.entries.length → t.roster = doubt .overCapacity)) ∧
      (∀ c h k, d = .a → (s.door d).credit = some c → c.kind = .entry → c.holders = [h, k] → h.id ≠ k.id →
        ¬here h.id → ¬here k.id → s.roster.entries.length < 15 →
        t.roster = { s.roster with entries :=
          s.roster.entries ++ [{ holder := h, time := time }, { holder := k, time := time }] }) ∧
      (∀ c h hs, d = .a → (s.door d).credit = some c → c.kind = .egress → c.holders = h :: hs →
        (¬here h.id → t.roster = s.roster ∧ (t.source .rosterMismatch).pending = true) ∧
        (here h.id → t.roster = { s.roster with entries := s.roster.entries.filter (fun e => e.holder.id != h.id) }) ∧
        (∀ e, s.roster.entries.find? (fun e => e.holder.id == h.id) = some e → e.holder.escortCapable = true →
          (∃ x ∈ t.roster.entries, x.holder.escorted = true) → (∀ x ∈ t.roster.entries, x.holder.escortCapable = false) →
          (t.source .escortLeft).pending = true)) ∧
      (∀ c, d = .a → (s.door d).credit = some c → c.kind = .exitRequest →
        (s.roster.entries.length ≤ 1 → t.roster = { s.roster with entries := [] }) ∧
        (2 ≤ s.roster.entries.length → t.roster = doubt .anonymousExit)) ∧
      t.pins = s.pins.take (contactInput d) false ∧ t.port = s.port ∧ t.peers = s.peers

/-- R84, R88, R91, R92: the release window expires: the credit is discarded and the door is SECURE. The interlock
test then grants the eligible request, of two the one whose order lies further behind the counter; a door that is
granted is RELEASED under its credit, and the other request waits on. The interlock test of a closing door is stated
in ContactClosings, and that of a door which lockout withdraws in LockoutAtTheDoors. -/
def Obligations.WindowExpiryAndInterlock : Prop :=
  ∀ (s : State) (d : DoorId) (w : Nat), (s.door d).state = .released → (s.door d).window = some w →
    s.lockoutStage = s.doors.a.lockout →
    ∃ t, exec (.releaseWindowExpiry d) s = .next t ∧ Handed (s.reach w) t ∧
      let y := { s.door d with state := .secure, strike := false, window := none, heldTimer := none, credit := none }
      Interlocked (fun e => if e = d then y else s.door e) s.doors.counter (max s.now w) s.img.tr t

/-- R89: a request-to-exit press releases a SECURE door under an EXIT_REQUEST credit, whatever its partner, the stage
and the posture are, and leaves any other door as it is; the release of the button acts on no door. R85, R86: the held
timer of an OPEN door expires: HELD_OPEN with its credit, the held condition true, the roster in doubt, the
reservations broken. R91: a wait expires: the request is gone with outcome EXPIRED, and nothing else changes. -/
def Obligations.ExitPressesAndDoorTimers : Prop :=
  (∀ (s : State) (f : Nat) (d : DoorId) (made : Bool), s.pins.filter (exitInput d) = some f →
     s.pins.level (exitInput d) = !made →
     let u := (s.reach f).setPins (s.pins.take (exitInput d) made)
     (s.running = false ∨ (s.door d).absent = true → exec (.requestToExitPress .held d made) s = .next u) ∧
     (s.running = true → (s.door d).absent = false →
       (made = true → ∃ t, exec (.requestToExitPress .held d made) s = .next t ∧
         ((s.door d).state = .secure → After (u.setDoor d ({ s.door d with rex := true }.releasedUnder
           { kind := .exitRequest, holders := [], granted := 0 } u.now s.img.tr)) t) ∧
         ((s.door d).state ≠ .secure → After (u.setDoor d { s.door d with rex := true }) t)) ∧
       (made = false → exec (.requestToExitPress .held d made) s =
         .next (u.setDoor d { s.door d with rex := false })))) ∧
  (∀ (s : State) (d : DoorId) (h : Nat), (s.door d).state = .opened → (s.door d).heldTimer = some h →
     ∃ t, exec (.heldTimerExpiry d) s = .next t ∧
       (s.lockoutStage = s.doors.a.lockout → t.doors = ((s.reach h).setDoor d { s.door d with
         state := .heldOpen, strike := false, window := none, heldTimer := none }).doors) ∧
       (s.running = true → s.lockoutStage = s.doors.a.lockout →
         (t.source (match d with | .a => .doorAHeld | .b => .doorBHeld)).condition = true) ∧
       (∀ e, t.reservation e = none) ∧
       (∀ e, (s.reservation e).isSome = true → t.broken e = true ∧ (t.source .pairBroken).pending = true) ∧
       t.seq.apart = s.seq.apart ∧
       Handed ((s.reach h).setRoster { s.roster with
         doubtful := true, cause := if s.roster.doubtful then s.roster.cause else heldCause d }) t) ∧
  (∀ (s : State) (d : DoorId) (r : PendingRequest), (s.door d).request = some r →
     exec (.pendingWaitExpiry d) s =
       .next ((s.reach r.wait).setDoor d { s.door d with request := none, lastPending := .expired }))

/-- R75, R93, R112: lockout turns on and off at both doors as the area stage passes between ordinals 2 and 3: at a
member when a notice moves its mirror, and at a release station when its own stage does so, stated for a manual
release and for SUPPRESSION_RESET. A door withdrawn from an ENTRY is SECURE, and the interlock test is made (R92).
Below ordinal 3 lockout is recorded off and nothing is restored. That a pending ENTRY goes before the interlock test
is the model's reading (log entry 21). -/
def Obligations.LockoutAtTheDoors : Prop :=
  (∀ (s : State) (dt a : Nat) (bits : List Bool) (area ordinal : BitVec 4) (remaining : Byte) (flow : Bool) (st : Stage),
    Reaches { kind := 0, dt := dt, bits := bits } s a (.releaseNotice area ordinal remaining flow) →
    s.role = .member → s.img.members.head? = some a → area.toNat = s.area → Stage.ofNat? ordinal.toNat = some st →
    ∃ t, exec (.releaseNoticeFrame dt bits) s = .next t ∧
      (3 ≤ st.ordinal → s.doors.a.lockout = false → LockedOut s t) ∧
      (st.ordinal < 3 → s.doors.a.lockout = true → LockoutEnded s t) ∧
      (s.doors.a.lockout = decide (3 ≤ st.ordinal) → t.doors = s.doors) ∧
      t.roster = s.roster ∧ t.port = s.port) ∧
  (∀ (s : State) (f : Nat), s.running = true → s.role = .release → s.pins.filter .manrel = some f →
    s.pins.manrel = false → s.seq.stage = .normal ∨ s.seq.stage = .firstAlarm →
    ∃ t, exec (.manrelMade .held true) s = .next t ∧
      (s.doors.a.lockout = false → LockedOut s t) ∧ (s.doors.a.lockout = true → t.doors = s.doors) ∧
      t.roster = s.roster ∧ t.port = s.port) ∧
  (∀ (s : State) (dt before : Nat), s.AtPanel → s.role = .release → s.seq.stage ≠ .isolated → s.seq.stage ≠ .releasing →
    s.seq.stage ≠ .discharged → (∀ l, (s.line l).stage ≠ .alarm) →
    (∀ m ∈ s.img.members, (s.peer m).presence = .live → (s.peer m).said.alarmMask = 0) →
    ∃ t, exec (.suppressionReset dt ⟨[0], before⟩) s = .next t ∧
      (s.doors.a.lockout = true → LockoutEnded s t) ∧ (s.doors.a.lockout = false → t.doors = s.doors) ∧
      t.roster = s.roster)

/-! ## Entry rules (chapter 6) -/

/-- R101, R102, R114, R120: an INSIDE presentation is answered by the door alone: DOOR_BUSY, GRANTED_EGRESS with the
door released under an EGRESS credit of the one holder, or PENDING_INTERLOCK with the credit in the slot. The reply
carries the door and its previous broken mark, which is then clear. In a reply the flags bits that the table of R188
gives to no command are 0 by the model's choice (log entry 35). -/
def Obligations.InsidePresentations : Prop :=
  ∀ (s : State) (dt before : Nat) (bytes : List Byte) (p : Presentation), s.AtPanel → presentOperands s bytes = some p →
    p.side = .inside →
    ∃ t, exec (.presentCredential dt ⟨6 :: bytes, before⟩) s = .next t ∧
      let reply : Nat → Byte → Port := fun r holders =>
        s.answered (6 :: bytes) 7 r (s.broken p.door).toNat [byteOf (doorCode p.door), 0, holders]
      let credit : Credit := {
        kind := .egress, granted := 0
        holders := [{ id := p.id, cls := p.cls, escorted := false, escortCapable := false }] }
      (¬(s.door p.door).Free → After (((s.elapse dt).setBroken p.door false).setPort (reply 8 0)) t) ∧
      ((s.door p.door).Free → s.PartnerClear p.door → After ((((s.elapse dt).setDoor p.door
        ((s.door p.door).releasedUnder credit (s.now + dt) s.img.tr)).setBroken p.door false).setPort (reply 3 1)) t) ∧
      ((s.door p.door).Free → ¬s.PartnerClear p.door → After ((((s.elapse dt).pended p.door credit
        (s.now + dt)).setBroken p.door false).setPort (reply 4 1)) t)

/-- R103, R104, R106: an OUTSIDE presentation is refused by the first check that it fails, in the order of the table,
and changes nothing but the mark that its reply carries. In a reply the flags bits that the table of R188 gives to no
command are 0 by the model's choice (log entry 35). -/
def Obligations.OutsideRefusals : Prop :=
  ∀ (s : State) (dt before : Nat) (bytes : List Byte) (p : Presentation), s.AtPanel → presentOperands s bytes = some p →
    p.side = .outside →
    ∃ t, exec (.presentCredential dt ⟨6 :: bytes, before⟩) s = .next t ∧
      let refused : Nat → Prop := fun r => After (((s.elapse dt).setBroken p.door false).setPort
        (s.answered (6 :: bytes) 7 r (s.broken p.door).toNat [byteOf (doorCode p.door), 0, 0])) t
      let m := s.mode p.door
      let valid := (s.door p.door).Free ∧ p.verdict = .valid
      let unlocked := valid ∧ (s.door p.door).lockout = false
      let unbarred := unlocked ∧ m.mode ≠ .barred
      let ranked := unbarred ∧ ClassPasses m p.cls
      let new := ranked ∧ (PassbackFound s p → s.img.softPassback = true)
      (¬(s.door p.door).Free → refused 8) ∧
      ((s.door p.door).Free → p.verdict ≠ .valid → refused 9) ∧
      (valid → (s.door p.door).lockout = true → refused 10) ∧
      (unlocked → m.mode = .barred → refused 11) ∧
      (unbarred → ¬ClassPasses m p.cls → refused 12) ∧
      (ranked → PassbackFound s p → s.img.softPassback = false → refused 13) ∧
      (new → Overfull s p → refused 14) ∧
      (Admitted s p → m.mode = .escorted → p.cls < m.minClass →
        (∀ e ∈ s.roster.entries, e.holder.escortCapable = false) → refused 15)

/-- R105, R106, R120: under FREE, SINGLE and ESCORTED an admitted holder is granted: the door is released under an
ENTRY credit of the one holder, or the credit waits for the interlock. Only under ESCORTED is the holder an escort
(class at or above the minimum) or an escortee (below it, with an escort on the roster). A SOFT passback is noted in
the reply and raises PASSBACK. In a reply the flags bits that the table of R188 gives to no command are 0 by the
model's choice (log entry 35). -/
def Obligations.SinglesAndEscorts : Prop :=
  ∀ (s : State) (dt before : Nat) (bytes : List Byte) (p : Presentation) (hit : Bool), s.AtPanel →
    presentOperands s bytes = some p → p.side = .outside → Admitted s p → (hit = true ↔ PassbackFound s p) →
    let m := s.mode p.door
    m.mode = .free ∨ m.mode = .single ∨ m.mode = .escorted →
    (m.mode = .escorted → p.cls < m.minClass → ∃ e ∈ s.roster.entries, e.holder.escortCapable = true) →
    ∃ t, exec (.presentCredential dt ⟨6 :: bytes, before⟩) s = .next t ∧
      let credit : Credit := {
        kind := .entry, granted := 0
        holders := [{
          id := p.id, cls := p.cls, escorted := m.mode == .escorted && p.cls < m.minClass
          escortCapable := m.mode == .escorted && m.minClass ≤ p.cls }] }
      let reply : Nat → Port := fun r =>
        s.answered (6 :: bytes) 7 r ((s.broken p.door).toNat + 2 * hit.toNat) [byteOf (doorCode p.door), 0, 1]
      let noted : State → State := fun u => if hit then trigger .passback u else u
      (s.PartnerClear p.door → After (((noted ((s.elapse dt).setDoor p.door
        ((s.door p.door).releasedUnder credit (s.now + dt) s.img.tr))).setBroken p.door false).setPort (reply 1)) t) ∧
      (¬s.PartnerClear p.door → After (((noted ((s.elapse dt).pended p.door credit
        (s.now + dt))).setBroken p.door false).setPort (reply 4)) t)

/-- R108 to R110, R120: under PAIRED and PAIRED_REMOTE the first admitted holder makes a reservation with the next
tag and is answered PAIR_WAITING; the same holder again is answered SAME_HOLDER and renews nothing; another holder
completes the pair, whose ENTRY credit names the reserving holder first. In a reply the flags bits that the table of
R188 gives to no command are 0 by the model's choice (log entry 35). -/
def Obligations.PairReservations : Prop :=
  ∀ (s : State) (dt before : Nat) (bytes : List Byte) (p : Presentation), s.AtPanel → presentOperands s bytes = some p →
    p.side = .outside → Admitted s p →
    (s.mode p.door).mode = .paired ∨ (s.mode p.door).mode = .pairedRemote →
    ∃ t, exec (.presentCredential dt ⟨6 :: bytes, before⟩) s = .next t ∧
      let reply : Nat → Nat → Bool → Nat → Port := fun r tag hit holders =>
        s.answered (6 :: bytes) 7 r ((s.broken p.door).toNat + 2 * hit.toNat)
          [byteOf (doorCode p.door), byteOf tag, byteOf holders]
      (s.reservation p.door = none →
        let v := (s.elapse dt).setReservation p.door (some {
          holder := p.id, cls := p.cls, tag := s.entry.tag, start := s.now + dt
          window := s.now + dt + s.img.tp * 1000000 })
        After (((v.setEntry { v.entry with
          tag := if s.entry.tag = 255 then 1 else s.entry.tag + 1 }).setBroken p.door false).setPort
            (reply 5 s.entry.tag false 0)) t) ∧
      (∀ r, s.reservation p.door = some r → r.holder = p.id →
        After (((s.elapse dt).setBroken p.door false).setPort (reply 6 r.tag false 0)) t) ∧
      (∀ r (hit : Bool), s.reservation p.door = some r → r.holder ≠ p.id → (hit = true ↔ PassbackFound s p) →
        let credit : Credit := {
          kind := .entry, granted := 0
          holders := [{ id := r.holder, cls := r.cls, escorted := false, escortCapable := false },
            { id := p.id, cls := p.cls, escorted := false, escortCapable := false }] }
        let v := (s.elapse dt).setReservation p.door none
        let noted : State → State := fun u => if hit then trigger .passback u else u
        (s.PartnerClear p.door → After (((noted (v.setDoor p.door
          ((s.door p.door).releasedUnder credit (s.now + dt) s.img.tr))).setBroken p.door false).setPort
            (reply 2 r.tag hit 2)) t) ∧
        (¬s.PartnerClear p.door → After (((noted (v.pended p.door credit
          (s.now + dt))).setBroken p.door false).setPort (reply 4 r.tag hit 2)) t))

/-- R111: a pair window expires: the reservation is gone and the door's previous broken mark set; nothing else
changes. R115: CONFIRM_REMOTE in its ranges is answered CONFIRM_SENT, and its CONFIRM goes to the queue with the five
fields. R173: in a full queue the newest entry of least urgency gives way to it, or it is dropped, and
TRANSMIT_OVERRUN is raised. In a reply the flags bits that the table of R188 gives to no command are 0 by the model's
choice (log entry 35). -/
def Obligations.PairWindowsAndRemoteCalls : Prop :=
  (∀ (s : State) (d : DoorId) (r : Reservation), s.reservation d = some r →
     exec (.pairWindowExpiry d) s = .next (((s.reach r.window).setReservation d none).setBroken d true)) ∧
  (∀ (s : State) (dt before : Nat) (target door tag h l cls : Byte), s.AtPanel →
     argumentsOk s 8 [target, door, tag, h, l, cls] →
     ∃ t, exec (.confirmRemote dt ⟨[6, target, door, tag, h, l, cls], before⟩) s = .next t ∧
       t.port = s.answered [6, target, door, tag, h, l, cls] 8 7 0 [] ∧
       (s.bus.queue.length ≤ 3 →
         { frame := .confirm target door tag (h ++ l) cls, order := s.bus.nextOrder : QueueEntry } ∈ t.bus.queue) ∧
       (s.bus.Wf → s.bus.queue.length = 6 → s.NoStart →
         Overran { frame := .confirm target door tag (h ++ l) cls, order := s.bus.nextOrder } s t) ∧
       Handed ((s.elapse dt).setPort t.port) t ∧ (s.lockoutStage = s.doors.a.lockout → t.doors = s.doors) ∧
       (s.NoStart → t.seq.apart = s.seq.apart))

/-- R116 to R118: a CONFIRM for this station with its fields in range is judged by the tests in order, and the outcome
is recorded with its door and tag and announced. GRANTED completes the reservation: the door is released for the
reserving holder alone, or the credit waits. Any other outcome moves no door. A frame for another station, or with a
field out of range, is not judged. That a tag broken by a posture change is answered NOT_ALLOWED, and not TAG_STALE,
where the door's new mode is not PAIRED_REMOTE is the model's choice: it follows the order of R116's tests (log entry
31). That the confirmation is judged before a posture change which the hearing of its own sender brings is the model's
choice too (R113 allows either order, log entry 36). That the STATUS which announces the outcome has the abort-held flag
clear with role NONE, even while ABORT is made, is the model's reading of R73 against R77 (log entry 20). -/
def Obligations.ConfirmationsAreJudged : Prop :=
  ∀ (s : State) (dt a : Nat) (bits : List Bool) (target door tag : Byte) (holder : BitVec 16) (cls : Byte),
    Reaches { kind := 4, dt := dt, bits := bits } s a (.confirm target door tag holder cls) →
    ∃ t, exec (.confirmFrame dt bits) s = .next t ∧ t.roster = s.roster ∧ t.port = s.port ∧ t.entry.tag = s.entry.tag ∧
      (target.toNat ≠ s.address ∨ 1 < door.toNat ∨ tag = 0 ∨ holder = 0 ∨ 7 < cls.toNat →
        t.entry.outcome = s.entry.outcome ∧ (s.lockoutStage = s.doors.a.lockout → t.doors = s.doors)) ∧
      (∀ d, target.toNat = s.address → doorCode d = door.toNat → tag ≠ 0 → holder ≠ 0 → cls.toNat ≤ 7 →
        let o : ConfirmOutcome :=
          if (s.door d).absent = true ∨ (s.mode d).mode ≠ .pairedRemote then .notAllowed
          else match s.reservation d with
            | none => .tagStale
            | some r =>
              if r.tag ≠ tag.toNat then .tagStale
              else if r.holder = holder.toNat then .sameHolder
              else if cls.toNat < (s.mode d).minClass then .classLow
              else if (s.door d).Free ∧ (s.door d).lockout = false ∧ (d = .b ∨ s.roster.entries.length + 1 ≤ 16)
                then .granted
              else .notAllowed
        t.entry.outcome = some { door := d, tag := tag, outcome := o } ∧
        (s.bus.announcing = true → s.bus.queue.length ≤ 2 → StatusWaits t) ∧
        (o ≠ .granted → s.lockoutStage = s.doors.a.lockout → t.doors = s.doors) ∧
        (o ≠ .granted → t.reservation d = s.reservation d ∨ (t.reservation d = none ∧ t.broken d = true)) ∧
        (∀ r, o = .granted → s.reservation d = some r →
          let credit : Credit := {
            kind := .entry, granted := 0
            holders := [{ id := r.holder, cls := r.cls, escorted := false, escortCapable := false }] }
          t.reservation d = none ∧ t.broken d = s.broken d ∧
          (s.lockoutStage = s.doors.a.lockout → s.PartnerClear d →
            t.door d = (s.door d).releasedUnder credit (s.now + dt) s.img.tr ∧
            t.door (partner d) = s.door (partner d)) ∧
          (s.lockoutStage = s.doors.a.lockout → ¬s.PartnerClear d →
            t.doors = (s.pended d credit (s.now + dt)).doors) ∧
          (d = .a → s.img.softPassback = true → (∃ e ∈ s.roster.entries, e.holder.id = r.holder) →
            (t.source .passback).pending = true)))

/-! ## Roster, postures and outputs (chapters 7 and 8) -/

/-- R128: ZONE_SWEEP is refused DOOR_NOT_SECURE while door A, or a present door B, is not SECURE, and then changes
nothing but the port; otherwise the roster is empty and not in doubt, and the reply says how many entries there were
and whether it was doubtful. In a reply the flags bits that the table of R188 gives to no command are 0 by the
model's choice (log entry 35). -/
def Obligations.ZoneSweeps : Prop :=
  ∀ (s : State) (dt before : Nat), s.AtPanel →
    let secure := s.doors.a.state = .secure ∧ (s.doors.b.absent = true ∨ s.doors.b.state = .secure)
    (¬secure → exec (.zoneSweep dt ⟨[0], before⟩) s = .next ((s.elapse dt).setPort (s.answered [0] 10 20 0 []))) ∧
    (secure → ∃ t, exec (.zoneSweep dt ⟨[0], before⟩) s = .next t ∧
      After (((s.elapse dt).setRoster { entries := [], doubtful := false, cause := .noCause }).setPort
        (s.answered [0] 10 0 s.roster.doubtful.toNat [byteOf s.roster.entries.length])) t)

/-- R137, R139, R141, R13: SET_POSTURE at an authority station in RUN: the view takes the posture, the next epoch and
the own address; a POSTURE frame is queued, and a STATUS; with no overlay it is the effective posture, by which every
line's alarm level is set. Elsewhere it is refused NOT_AUTHORITY or WRONG_STATE. R138: an announced posture, of an
authority's POSTURE or of any STATUS, is adopted when the view has no source, when its epoch is 1 to 127 ahead, or
when it is higher under the same epoch. R141: either way the effective posture is then the view's, or LOCKDOWN under
the overlay. R112, R131: a new value breaks every reservation, which PAIR_BROKEN tells, and a change from OPEN or
STAFFED to CLOSED or above raises OCCUPIED_AT_CLOSE where the roster is occupied or doubtful, and any other change
does not. In a reply the flags bits that the table of R188 gives to no command are 0 by the model's choice (log entry
35). That the STATUS of an accepted SET_POSTURE has the abort-held flag clear with role NONE, even while ABORT is made, is
the model's reading of R73 against R77 (log entry 20). -/
def Obligations.PosturesPrevail : Prop :=
  (∀ (s : State) (dt before : Nat) (p : Posture), s.AtPanel →
     let rest := [1, byteOf p.num]
     (s.address ∉ s.img.authorities →
       exec (.setPosture dt ⟨rest, before⟩) s = .next ((s.elapse dt).setPort (s.answered rest 9 17 0 []))) ∧
     (s.address ∈ s.img.authorities → s.startup.phase ≠ .run →
       exec (.setPosture dt ⟨rest, before⟩) s = .next ((s.elapse dt).setPort (s.answered rest 9 22 0 []))) ∧
     (s.address ∈ s.img.authorities → s.startup.phase = .run → ∃ t, exec (.setPosture dt ⟨rest, before⟩) s = .next t ∧
       let e := s.posture.view.epoch + 1
       Handed (((s.elapse dt).setPosture { s.posture with
         view := { posture := p, epoch := e, source := s.address } }).setPort (s.answered rest 9 0 0 [e])) t ∧
       (s.bus.queue.length ≤ 2 →
         { frame := .posture (byteOf p.num) e, order := s.bus.nextOrder : QueueEntry } ∈ t.bus.queue ∧
         (s.bus.announcing = true → StatusWaits t)) ∧
       PostureHanded s t ∧ t.PostureFollows ∧
       ((∀ x, s.lockdownFlag x = false) → s.ann.remote = [] →
         t.posture.effective = p ∧
         (p ≠ s.posture.effective → ∀ l, (t.line l).effAlarm =
           if 2 ≤ p.num then max ((s.lineCfg l).at_ - s.img.ko) ((s.lineCfg l).wt + 1)
           else (s.lineCfg l).at_)))) ∧
  (∀ (s : State) (a : Nat) (q : Posture) (e : Byte) (t : State),
     (∃ dt bits p, Reaches { kind := 5, dt := dt, bits := bits } s a (.posture p e) ∧ a ∈ s.img.authorities ∧
       Posture.ofNat? p.toNat = some q ∧ exec (.postureFrame dt bits) s = .next t) ∨
     (∃ dt bits c, Reaches { kind := 6, dt := dt, bits := bits } s a (.status c) ∧ c.posture = q ∧ c.epoch = e ∧
       exec (.statusFrame dt bits) s = .next t) →
     let v := s.posture.view
     let adopted := v.source = 0 ∨ (e ≠ v.epoch ∧ (e - v.epoch).toNat ≤ 127) ∨ (e = v.epoch ∧ v.posture.num < q.num)
     (adopted → t.posture.view = { posture := q, epoch := e, source := a }) ∧
     (¬adopted → t.posture.view = v) ∧ t.PostureFollows ∧
     (t.posture.effective ≠ s.posture.effective → ∀ d, t.reservation d = none)) ∧
  (∀ (s : State) (dt a : Nat) (bits : List Bool) (p e : Byte),
     Reaches { kind := 5, dt := dt, bits := bits } s a (.posture p e) →
     ∃ t, exec (.postureFrame dt bits) s = .next t ∧
       t.roster = s.roster ∧ t.port = s.port ∧ t.pins = s.pins ∧ t.ann.remote = s.ann.remote ∧ PostureHanded s t ∧
       (a ∉ s.img.authorities ∨ 4 < p.toNat → t.posture.view = s.posture.view))

/-- R144 to R147: FORCE_OUTPUT drives a line at the commanded level, but a line that follows STAGE is refused
PROTECTED; RELEASE_OUTPUT lets the line follow its source's present value again: the stage ordinal, the effective
posture, the alarm level, the area's count, or none. A sense input that disagrees with the driven level starts the
mismatch timer, one that agrees stops it and clears the mark; so does a change of the driven level, whatever event
makes it; the timer's expiry sets the mark, which OUTPUT_FAULT follows. In a reply the flags bits that the table of
R188 gives to no command are 0 by the model's choice (log entry 35). -/
def Obligations.OutputLines : Prop :=
  (∀ (s : State) (dt before : Nat) (l : Fin 12) (high : Bool), s.AtPanel →
     let rest := [2, byteOf l.val, byteOf high.toNat]
     (s.img.outputs[l].source = .stage →
       exec (.forceOutput dt ⟨rest, before⟩) s = .next ((s.elapse dt).setPort (s.answered rest 18 18 0 []))) ∧
     (s.img.outputs[l].source ≠ .stage → ∃ t, exec (.forceOutput dt ⟨rest, before⟩) s = .next t ∧
       (t.output l).driven = high ∧
       ((s.output l).driven = high → t.output l = { s.output l with forced := some high }) ∧
       ((s.output l).driven ≠ high → Compared t l) ∧
       After (((s.elapse dt).setOutput l { s.output l with forced := some high }).setPort
         (s.answered rest 18 0 0 [])) t)) ∧
  (∀ (c : Instr) (s t : State) (l : Fin 12), exec c s = .next t → s.running = true → t.running = true →
     (t.output l).driven ≠ (s.output l).driven → Compared t l) ∧
  (∀ (s : State) (dt before : Nat) (l : Fin 12), s.AtPanel →
     let rest := [1, byteOf l.val]
     ∃ t, exec (.releaseOutput dt ⟨rest, before⟩) s = .next t ∧
       After (((s.elapse dt).setOutput l { s.output l with forced := none }).setPort (s.answered rest 19 0 0 [])) t ∧
       Unforced t l) ∧
  (∀ (s : State) (dt : Nat) (l : Fin 12) (high : Bool), s.pins.sense[l] = !high →
     let u := (s.elapse dt).setPins { s.pins with sense := s.pins.sense.set l high }
     ∃ t, exec (.senseInputChange dt l high) s = .next t ∧
       (s.running = false → t = u) ∧
       (s.running = true → (s.output l).driven = high →
         After (u.setOutput l { s.output l with mismatch := none, mark := false }) t) ∧
       (s.running = true → (s.output l).driven ≠ high →
         After (u.setOutput l { s.output l with mismatch := some (s.now + dt + 500000) }) t)) ∧
  (∀ (s : State) (l : Fin 12) (d : Nat), (s.output l).mismatch = some d →
     ∃ t, exec (.mismatchTimerExpiry l) s = .next t ∧
       After ((s.reach d).setOutput l { s.output l with mismatch := none, mark := true }) t ∧
       (s.running = true → (t.output l).mark = true → (t.source .outputFault).condition = true))

/-! ## Alarms (chapter 9) -/

/-- R153, R156, R164, R140, R141: a duress button made, its change taken, raises its source, which a DURESS frame
tells when it was not pending; with its lockdown flag set the effective posture is LOCKDOWN, and R112, R131: the
change is handed on to the reservations, the lines and the roster. The tamper loop opening raises TAMPER. Broken, or
closed, each changes its level alone. -/
def Obligations.DuressAndTamper : Prop :=
  (∀ (s : State) (f : Nat) (i : DuressInput), s.pins.filter (duressPin i) = some f →
     s.pins.level (duressPin i) = false → s.running = true →
     ∃ t, exec (.duressInputChange .held i true) s = .next t ∧
       (t.source (duressSource i)).pending = true ∧
       ((s.source (duressSource i)).pending = false → s.bus.queue.length ≤ 3 →
         { frame := .duress (byteOf (duressSource i).num.val) true (BitVec.ofNat 4 s.area)
           order := s.bus.nextOrder : QueueEntry } ∈ t.bus.queue) ∧
       (s.lockdownFlag (duressSource i) = true → t.posture.effective = .lockdown) ∧ PostureHanded s t ∧ t.PostureFollows ∧
       (s.lockoutStage = s.doors.a.lockout → t.doors = s.doors) ∧
       (s.NoStart → t.seq.apart = s.seq.apart) ∧
       Handed ((s.reach f).setPins (s.pins.take (duressPin i) true)) t) ∧
  (∀ (s : State) (f : Nat), s.pins.filter .tamper = some f → s.pins.tamperOpen = false → s.running = true →
     let u := (s.reach f).setPins (s.pins.take .tamper true)
     ∃ t, exec (.tamperInputChange .held true) s = .next t ∧ (t.source .tamper).pending = true ∧
       ((s.source .tamper).pending = true → After u t) ∧
       ((s.source .tamper).pending = false → After (u.setSource .tamper { s.source .tamper with
         pending := true, raised := s.seconds u.now }) t)) ∧
  (∀ (s : State) (f : Nat) (i : DuressInput), s.pins.filter (duressPin i) = some f →
     s.pins.level (duressPin i) = true →
     exec (.duressInputChange .held i false) s = .next ((s.reach f).setPins (s.pins.take (duressPin i) false))) ∧
  (∀ (s : State) (f : Nat), s.pins.filter .tamper = some f → s.pins.tamperOpen = true →
     exec (.tamperInputChange .held false) s = .next ((s.reach f).setPins (s.pins.take .tamper false)))

/-- R157, R158: NEXT_ALARM takes the candidate that stands first in the rotation order of the most urgent class that
has one. Acknowledged, it is in-service, or auto-restored in class 5 and, by the image, class 4; in class 0 and 2 it
goes to the end of its order. The model's choice: an auto-restored source keeps an in-service mark (log entry 24).
PEER_DURESS acknowledges the oldest unacknowledged DURESS entry. With no candidate the source number is 255, and
nothing but the port and the model's count of free values changes; the other six bytes are free values, and so many
are counted, by the model's choice (log entry 5). In a reply the flags bits that the table of R188 gives to no
command are 0 by the model's choice (log entry 35). -/
def Obligations.NextAlarmAcknowledges : Prop :=
  (∀ (s : State) (dt before : Nat) (x : Source), s.AtPanel → s.ann.rotation[x.cls].find? s.isCandidate = some x →
     (∀ c : Fin 6, c < x.cls → ∀ y ∈ s.ann.rotation[c], s.isCandidate y = false) →
     ∃ t, exec (.nextAlarm dt ⟨[0], before⟩) s = .next t ∧
       let reply : Nat → Port := fun station => s.answered [0] 2 0 0
         ([byteOf x.num.val, byteOf x.cls.val] ++ num4 (s.raisedTime x) ++ [byteOf station])
       let rotation := if x.cls = 0 ∨ x.cls = 2 then
         s.ann.rotation.set x.cls (s.ann.rotation[x.cls].filter (fun y => y != x) ++ [x]) else s.ann.rotation
       let y := s.source x
       let acked : SourceState :=
         if x.cls = 5 ∨ (x.cls = 4 ∧ s.img.autoRestore4 = true) then
           { y with pending := false, settled := y.settled || (x.kind == .level && y.condition) }
         else { y with pending := false, inService := true }
       (x ≠ .peerDuress → After (((s.elapse dt).setAnn { s.ann with
         sources := s.ann.sources.set x.num acked, rotation := rotation }).setPort (reply 0)) t) ∧
       (∀ before e after, x = .peerDuress → s.ann.remote = before ++ e :: after → e.kind = .duress → e.acked = false →
         (∀ z ∈ before, z.kind ≠ .duress ∨ z.acked = true) →
         After (((s.elapse dt).setAnn { s.ann with
           remote := before ++ { e with acked := true } :: after, rotation := rotation }).setPort (reply e.station)) t)) ∧
  (∀ (s : State) (dt before : Nat), s.AtPanel → (∀ x, s.isCandidate x = false) →
     ∃ data, data.length = 6 ∧ exec (.nextAlarm dt ⟨[0], before⟩) s =
       .next { (s.elapse dt).setPort (s.answered [0] 2 0 0 (255 :: data)) with free := s.free + 6 })

/-- R159: RESTORE_ALARM, case by case: STILL_ACTIVE, WRONG_STATE, or in-service clears, which a DURESS frame tells
for a duress source, and by which the overlay ends where nothing else holds it (R140, R141). R160: MASK_ALARM sets or
clears the mask and is refused PROTECTED for masking class 0. A refusal changes nothing but the port. In a reply the
flags bits that the table of R188 gives to no command are 0 by the model's choice (log entry 35). -/
def Obligations.RestoringAndMasking : Prop :=
  (∀ (s : State) (dt before : Nat) (x : Source), s.AtPanel →
     let rest := [1, byteOf x.num.val]
     let refused : Nat → Prop := fun r =>
       exec (.restoreAlarm dt ⟨rest, before⟩) s = .next ((s.elapse dt).setPort (s.answered rest 3 r 0 []))
     let held := (x = .duress1 ∧ s.pins.dur1 = true) ∨ (x = .duress2 ∧ s.pins.dur2 = true)
     let condition := x.kind = .level ∧ (s.source x).condition = true
     let v := ((s.elapse dt).setSource x { s.source x with inService := false }).setPort (s.answered rest 3 0 0 [])
     (s.isInService x = false → refused 22) ∧
     (s.isInService x = true → x = .peerDuress ∨ condition ∨ held → refused 19) ∧
     (s.isInService x = true → x ≠ .peerDuress → ¬condition → ¬held → ∃ t, exec (.restoreAlarm dt ⟨rest, before⟩) s = .next t ∧
       (x ≠ .duress1 → x ≠ .duress2 → After v t) ∧
       (x = .duress1 ∨ x = .duress2 → Handed v t ∧ PostureHanded s t ∧ t.PostureFollows ∧ (s.bus.queue.length ≤ 3 →
         { frame := .duress (byteOf x.num.val) v.duressActive (BitVec.ofNat 4 s.area)
           order := s.bus.nextOrder : QueueEntry } ∈ t.bus.queue)))) ∧
  (∀ (s : State) (dt before : Nat) (x : Source) (on : Bool), s.AtPanel →
     let rest := [2, byteOf x.num.val, byteOf on.toNat]
     (on = true → x.cls = 0 →
       exec (.maskAlarm dt ⟨rest, before⟩) s = .next ((s.elapse dt).setPort (s.answered rest 4 18 0 []))) ∧
     (on = false ∨ x.cls ≠ 0 → ∃ t, exec (.maskAlarm dt ⟨rest, before⟩) s = .next t ∧
       After (((s.elapse dt).setSource x { s.source x with masked := on }).setPort (s.answered rest 4 0 0 [])) t))

/-- R166, R167: a DURESS frame of DURESS_1 or DURESS_2 adds its sender as a DURESS entry, the newest, unless it is
there already, and takes it out with the active flag clear; a full list loses its oldest entry and the overflow mark
is set. A DURESS of any other source leaves the list. R140, R141: an entry within the duress scope makes the
effective posture LOCKDOWN, and the removal of the last returns it to the view's when nothing else holds the overlay.
READ_REMOTE_LIST gives the list as it stood, then clears the mark and acknowledges the FIRST_ALARM entries. That an
overlay which the DURESS begins and the hearing of its sender would end stands throughout is the model's choice (log
entry 36). In a reply the flags bits that the table of R188 gives to no command are 0 by the model's choice (log entry
35). -/
def Obligations.RemoteAlarmList : Prop :=
  (∀ (s : State) (dt a : Nat) (bits : List Bool) (source : Byte) (active : Bool) (area : BitVec 4),
     Reaches { kind := 2, dt := dt, bits := bits } s a (.duress source active area) →
     ∃ t, exec (.duressFrame dt bits) s = .next t ∧
       let new : RemoteEntry := { station := a, kind := .duress, arrival := s.seconds (s.now + dt), acked := false }
       let there := ∃ e ∈ s.ann.remote, e.station = a ∧ e.kind = .duress
       (source ≠ 4 → source ≠ 5 → t.ann.remote = s.ann.remote ∧ t.ann.overflow = s.ann.overflow) ∧
       (source = 4 ∨ source = 5 →
         (active = false → t.ann.overflow = s.ann.overflow ∧
           t.ann.remote = s.ann.remote.filter (fun e => !(e.station == a && e.kind == .duress))) ∧
         (active = true → there → t.ann.remote = s.ann.remote ∧ t.ann.overflow = s.ann.overflow) ∧
         (active = true → ¬there → s.ann.remote.length < 8 →
           t.ann.remote = s.ann.remote ++ [new] ∧ t.ann.overflow = s.ann.overflow) ∧
         (active = true → ¬there → 8 ≤ s.ann.remote.length →
           t.ann.remote = s.ann.remote.drop 1 ++ [new] ∧ t.ann.overflow = true) ∧
         let counts : Nat → Prop := fun station =>
           s.img.scope = .all ∨ s.img.scope = .sameArea ∧ station ∈ s.img.members
         (active = true → counts a → t.posture.effective = .lockdown) ∧
         (active = false → (∀ x, s.lockdownFlag x = false) →
           (∀ e ∈ s.ann.remote, e.kind = .duress → e.station ≠ a → ¬counts e.station) →
           t.posture.effective = s.posture.view.posture)) ∧
       t.PostureFollows ∧ (s.ann.remote.length < 8 ∨ active = false → PostureHanded s t) ∧
       t.roster = s.roster ∧ t.port = s.port ∧ t.posture.view = s.posture.view ∧
       (s.lockoutStage = s.doors.a.lockout → t.doors = s.doors)) ∧
  (∀ (s : State) (dt before : Nat), s.AtPanel →
     exec (.readRemoteList dt ⟨[0], before⟩) s = .next (((s.elapse dt).setAnn { s.ann with
       overflow := false
       remote := s.ann.remote.map (fun e => if e.kind = .firstAlarm then { e with acked := true } else e) }).setPort
         (s.answered [0] 6 0 0 ([byteOf s.ann.overflow.toNat] ++ num4 (s.seconds (s.now + dt)) ++
           [byteOf s.ann.remote.length] ++ s.ann.remote.flatMap (fun e =>
             [byteOf e.station, byteOf e.kind.code] ++ num4 e.arrival ++ [byteOf e.acked.toNat])))))

/-! ## The zone bus (chapter 10) -/

/-- R174: in RUN, once eleven recessive bits in a row have been read, with the transmitter empty and the quiet, stuck
and listen-only conditions off, the head of the queue goes into the transmitter; else nothing begins. R177: a
complete frame leaves the transmitter and the abandonment count is 0; nothing else changes, the peer table included.
Either way the levels read count toward the bus being idle (R169). That a beginning sets that count to 0, and that a
complete frame is read back as it was sent, is the model's choice (log entry 14). -/
def Obligations.SendingAndCompleting : Prop :=
  (∀ (s : State) (dt : Nat) (levels : List Bool),
     let v := (s.elapse dt).hear levels
     let may := s.startup.phase = .run ∧ 11 ≤ v.bus.recessive ∧ s.bus.inFlight = none ∧ s.bus.quiet = none ∧
       s.bus.stuck = false ∧ s.bus.listenOnly = false
     v = (s.elapse dt).setBus { s.bus with recessive := v.bus.recessive } ∧
     (∀ e q, s.bus.queue = e :: q → may → exec (.beginTransmission dt levels) s =
       .next ((s.elapse dt).setBus { s.bus with queue := q, inFlight := some e, recessive := 0 })) ∧
     (s.bus.queue = [] ∨ ¬may → exec (.beginTransmission dt levels) s = .next v)) ∧
  (∀ (s : State) (dt : Nat) (e : QueueEntry), s.bus.inFlight = some e →
     let v := (s.elapse dt).hear (e.frame.lineBits s.address)
     v = (s.elapse dt).setBus { s.bus with recessive := v.bus.recessive } ∧
     exec (.transmissionComplete dt) s = .next (v.setBus { v.bus with inFlight := none, abandoned := 0 }))

/-- R169: the count of recessive bits toward the bus being idle starts at the last dominant one, goes on from the
bits before when none is dominant, holds at 11, and is 0 after reset. R175: a frame that loses arbitration returns to
the queue with its order, not counted, unless a newer one of its superseding kind is there; into a full queue it goes
by R173, and the frame lost is told by TRANSMIT_OVERRUN. R176: an own-bit error abandons the frame and counts it; the
eighth in a row begins a quiet spell of 2000 ms, told by BUS_FAULT, which ends with it. R178: a stuck bus is marked
and told; at its end the bus is idle. That this is so in CLOCK, and not before the end of LOAD, is the model's
reading (log entry 23). -/
def Obligations.BusTrouble : Prop :=
  (∀ (s : State) (dt k : Nat) (before : List Bool), s.receiving = true → s.bus.recessive ≤ 11 →
     (∃ t, exec (.receiveDiscard dt (before ++ false :: List.replicate k true)) s = .next t ∧
       t.bus.recessive = min k 11) ∧
     (∃ t, exec (.receiveDiscard dt (List.replicate k true)) s = .next t ∧
       t.bus.recessive = min (s.bus.recessive + k) 11)) ∧
  State.reset.bus.recessive = 0 ∧
  (∀ (s : State) (dt : Nat) (e : QueueEntry), s.bus.inFlight = some e →
     let u := (s.elapse dt).setBus { s.bus with inFlight := none, recessive := 0 }
     ∃ t, exec (.arbitrationLoss dt) s = .next t ∧ Handed u t ∧
       (e.frame.supersedes = true → (∃ q ∈ s.bus.queue, q.frame.kind = e.frame.kind) → After u t) ∧
       ((e.frame.supersedes = true → ∀ q ∈ s.bus.queue, q.frame.kind ≠ e.frame.kind) → s.bus.Wf →
         s.bus.queue.length = 6 → s.NoStart → Overran e s t) ∧
       ((e.frame.supersedes = true → ∀ q ∈ s.bus.queue, q.frame.kind ≠ e.frame.kind) → s.bus.queue.length ≤ 3 →
         ∃ x ∈ t.bus.queue, x.order = e.order ∧ x.frame.kind = e.frame.kind ∧
           (e.frame.supersedes = false → x = e))) ∧
  (∀ (s : State) (dt : Nat) (bits : List Bool) (e : QueueEntry), s.bus.inFlight = some e →
     let v := (s.elapse dt).hear bits
     ∃ t, exec (.ownBitError ⟨dt, bits⟩) s = .next t ∧
       v = (s.elapse dt).setBus { s.bus with recessive := v.bus.recessive } ∧
       (s.bus.abandoned ≠ 7 → After (v.setBus { v.bus with
         inFlight := none, abandoned := s.bus.abandoned + 1 }) t) ∧
       (s.bus.abandoned = 7 → After (v.setBus { v.bus with
         inFlight := none, abandoned := 0, quiet := some (s.now + dt + 2000000) }) t ∧
         (s.running = true → (t.source .busFault).condition = true))) ∧
  (∀ (s : State) (d : Nat), s.bus.quiet = some d →
     ∃ t, exec .quietSpellExpiry s = .next t ∧ After ((s.reach d).setBus { s.bus with quiet := none }) t ∧
       (s.running = true → (t.source .busFault).condition = s.bus.stuck)) ∧
  (∀ (s : State) (dt : Nat) (c : Instr) (stuck : Bool),
     c = .busStuck dt ∧ stuck = true ∨ c = .busStuckEnd dt ∧ stuck = false →
     (s.running = false → exec c s = .next (s.elapse dt)) ∧
     (s.running = true → ∃ t, exec c s = .next t ∧ After ((s.elapse dt).setBus { s.bus with
         stuck := stuck, recessive := if stuck then 0 else 11 }) t ∧
       (t.source .busFault).condition = (stuck || s.bus.quiet.isSome)))

/-- R181: the first-status delay, and each expiry of the status timer, in every role: the timer runs for the period,
and a STATUS waits that says what the state then is: role, area, posture and epoch of the view (R139), stage and
abort-held flag (R77), roster count and doubt (R132), detector masks (R17), duress-active flag and alarm level
(R163), period and pair outcome (R171). That the abort-held flag is clear with role NONE, even while ABORT is made,
is the model's reading (log entry 20). R45: at the status timer an own line in ALARM that the list misses is entered,
arriving now, at a member and at a release station, where it brings FIRST_ALARM or completes coincidence (R46, R54,
R55); line 0 comes first by the model's choice (log entry 21). -/
def Obligations.StatusTiming : Prop :=
  (∀ (s : State) (d : Nat),
     (s.bus.firstStatus = some d → ∃ t, exec .firstStatusDelayExpiry s = .next t ∧
       t.bus.announcing = true ∧ t.bus.firstStatus = none ∧
       t.bus.statusTimer = some (max s.now d + s.img.period * 250000) ∧
       (s.bus.queue.length ≤ 3 → StatusWaits t) ∧
       (s.NoStart → t.seq.apart = s.seq.apart) ∧ (s.lockoutStage = s.doors.a.lockout → t.doors = s.doors) ∧
       Handed ((s.reach d).setBus t.bus) t) ∧
     (s.bus.statusTimer = some d → ∃ t, exec .statusTimerExpiry s = .next t ∧
       t.bus.announcing = true ∧ t.bus.statusTimer = some (max s.now d + s.img.period * 250000) ∧
       (s.bus.queue.length ≤ 3 → StatusWaits t) ∧
       (s.seq.list.length ≤ 4 → OwnChecked (max s.now d) s t) ∧
       Handed ((s.reach d).setBus t.bus) t))

/-- R169 to R171, R179: what a station sends is received as it was sent: the receiver reads the sender's address and
the frame from the levels on the line, for every frame in its ranges and every address, and the command that it is
has the frame's kind. Levels that are no good frame are discarded. -/
def Obligations.FramesSurviveTheLine : Prop :=
  (∀ (a : Nat) (f : Frame), 1 ≤ a → a ≤ 48 → f.Wf →
    acceptBits (f.lineBits a) = some (a, f) ∧
    ∀ dt, frameCall (decodeBusFrame dt (f.lineBits a)) = some { kind := f.kind, dt := dt, bits := f.lineBits a }) ∧
  (∀ (dt : Nat) (bits : List Bool), acceptBits bits = none → decodeBusFrame dt bits = .receiveDiscard dt bits)

/-! ## The panel port (chapter 11) -/

/-- R183 to R185, R187: every command frame, by the port and the phase. Before the end of LOAD it is not taken. In
BUSY it is discarded and the overrun mark set. In REPLY it runs as in IDLE with the waiting reply lost and the mark
set; PSDO sends that reply meanwhile, with 0x00 for the bytes begun before it was formed and past its end (R184),
else 0x00 alone. Refused: in CONFIG_FAULT any code but 1, NOT_CONFIGURED; a wrong length, or fewer bytes than it,
BAD_ARGUMENT; an argument out of its range, BAD_ARGUMENT; a code of 22 to 255, BAD_ARGUMENT. A refused command
changes nothing but the port. R184, R188: the command is chosen by the first whole byte of what was sampled, most
significant bit first: 0 a reply read, 1 to 21 the command of that code, any other an unknown code; a part of a byte
at the end is discarded, and a frame without a whole byte is ignored. R184: bytes clocked after the last parameter
byte are ignored: with them the command does what it does without them, in every way but the length of what PSDO
sends. R183: PSDO's bits are its bytes', each most significant bit first. In a reply the flags bits that the table of
R188 gives to no command are 0 by the model's choice (log entry 35). The phase is that at the frame's end, whatever it was
when the frame began, by the model's choice (log entry 37). -/
def Obligations.PanelFrames : Prop :=
  (∀ (i : Instr) (c : PanelCall) (s : State), panelCall i = some c →
     let refused : Nat → Prop := fun r =>
       exec i s = .next ((s.elapse c.dt).setPort (s.answered c.rest.bytes c.code r 0 []))
     let n := 1 + c.rest.bytes.length
     (s.portTakes = false →
       exec i s = .next ((s.elapse c.dt).setPort { s.port with psdo := List.replicate n 0 })) ∧
     (s.portTakes = true → s.port.state = .busy → exec i s = .next ((s.elapse c.dt).setPort { s.port with
       overrun := true, psdo := List.replicate n 0 })) ∧
     (s.portTakes = true → s.port.state = .reply → SentOver i n c.rest.before s) ∧
     (s.startup.phase = .configFault → s.port.state = .idle → c.code ≠ 1 → refused 16) ∧
     (s.AtPanel → (c.rest.bytes.head?.map BitVec.toNat).getD 0 ≠ c.length ∨
       (c.rest.bytes.drop 1).length < c.length → refused 24) ∧
     (∀ bytes, s.AtPanel → bytes.length = c.length → c.rest.bytes = byteOf c.length :: bytes →
       ¬argumentsOk s c.code bytes → refused 24)) ∧
  (∀ (i j : Instr) (c : PanelCall) (extra : List Byte) (s : State), panelCall i = some c →
     panelCall j = some { c with rest := { c.rest with bytes := c.rest.bytes ++ extra } } →
     (∃ n bytes, c.rest.bytes = n :: bytes ∧ n.toNat ≤ bytes.length) → s.portTakes = true → s.port.state = .idle →
     ∃ t, exec i s = .next t ∧ exec j s = .next (t.setPort { t.port with
       psdo := List.replicate (1 + c.rest.bytes.length + extra.length) 0 })) ∧
  (∀ (s : State) (dt code : Nat) (rest : PanelRest), 22 ≤ code → code ≤ 255 → s.portTakes = true →
     (s.port.state = .idle → exec (.unknownCommand dt code rest) s =
       .next ((s.elapse dt).setPort (s.answered rest.bytes code 24 0 []))) ∧
     (s.port.state = .reply → SentOver (.unknownCommand dt code rest) (1 + rest.bytes.length) rest.before s)) ∧
  (∀ (dt before : Nat) (bytes : List Byte) (part : List Bool), part.length < 8 →
     let bits := bitsOfBytes bytes ++ part
     (bytes = [] → decodePanelFrame dt before bits = none) ∧
     (∀ code rest, bytes = code :: rest → ∃ i, decodePanelFrame dt before bits = some i ∧
       (code = 0 → i = .replyRead dt bytes.length before) ∧
       (1 ≤ code.toNat → code.toNat ≤ 21 → ∃ n, panelCall i = some {
         code := code.toNat, length := n, dt := dt, rest := { bytes := rest, before := before } }) ∧
       (22 ≤ code.toNat → i = .unknownCommand dt code.toNat { bytes := rest, before := before }))) ∧
  (∀ (p : Port) (k i : Nat), k < p.psdo.length → i < 8 →
     p.psdoBits[8 * k + i]? = (p.psdo[k]?).map (fun b => b.getLsbD (7 - i)))

/-- R21, R35, R133, R148, R165, R188 to R190: the commands that report change nothing but the port: READ_DETECTOR,
READ_PEER, READ_ROSTER, READ_OUTPUTS and READ_SOURCES answer with their block's data, a number in one, two or four
bytes, high first, and a mark in one. The own address reads as after reset. LATCH_TIMES holds the six values with
their running marks, or keeps a held snapshot. GET_STATUS, which is answered in CONFIG_FAULT too, sends its nine
sections and also clears the cold-start flag. The model's choices: a mask sends a byte for each mark, the abort-held
flag stands in the suppression section, and the notice age reads 65535 with no notice taken (log entry 18); an age in
milliseconds is rounded down and a remaining time up (log entry 19); without an image the modes and the rate are free
values, and the model's count of free values may move (log entry 5); bits that no rule gives, of the flags byte, of
the first two bytes of a source and of a status byte, are 0 (log entry 35). The model's reading: GET_STATUS's
abort-held flag is that of R77, which is clear with role NONE even while ABORT is made (log entry 20). -/
def Obligations.ReportingCommands : Prop :=
  let b : Nat → List Byte := fun n => [byteOf n]
  let f : Bool → List Byte := fun x => [byteOf x.toNat]
  let marks : BitVec 4 → List Byte := fun m => f (m.getLsbD 0) ++ f (m.getLsbD 1) ++ f (m.getLsbD 2) ++ f (m.getLsbD 3)
  let age : State → Nat → Nat := fun v a => min ((v.now - a) / 1000) 65535
  let left : State → Nat → Nat := fun v a => (a - v.now + 999) / 1000
  let result : Option PairOutcome → List Byte := fun o => match o with
    | some o => f true ++ b (doorCode o.door) ++ [o.tag] ++ b o.outcome.code
    | none => [0, 0, 0, 0]
  (∀ (s : State) (dt before : Nat), s.AtPanel →
     let v := s.elapse dt
     let answers : (Nat → PanelRest → Instr) → List Byte → Nat → List Byte → Prop := fun c rest code data =>
       exec (c dt ⟨rest, before⟩) s = .next (v.setPort (s.answered rest code 0 0 data))
     (∀ l : Fin 4,
       let x := s.line l
       answers .readDetector [1, byteOf l.val] 13
         (f (s.lineCfg l).enable ++ b (s.lineCfg l).group.num ++ b x.stage.code ++ b x.fault.code ++ f x.seeded ++
           num2 x.lastWidth ++ num2 x.lastPeriod ++ b x.lastReading ++ num2 x.smooth ++ b x.level ++
           num2 (x.rise % 65536).toNat ++ b x.count ++ b x.effAlarm ++ b x.entries ++ x.ring.flatMap num2)) ∧
     (∀ a : Nat, 1 ≤ a → a ≤ 48 →
       let own := a = s.address
       let y := if own then Peer.reset else s.peer a
       answers .readPeer [1, byteOf a] 21
         (f (decide own) ++ b y.presence.code ++ num2 (if y.presence = .neverHeard then 0 else age v y.lastHeard) ++
           f (decide (¬own ∧ a ∈ s.img.members)) ++
           f (decide (¬own ∧ s.role = .member ∧ s.img.members.head? = some a)) ++ f y.statusHeard ++ b y.said.period ++
           b y.said.role.code ++ b y.said.area ++ b y.said.posture.num ++ [y.said.epoch] ++ b y.said.stage.ordinal ++
           b y.said.count ++ f y.said.doubtful ++ marks y.said.alarmMask ++ marks y.said.groupMask ++
           f y.said.abortHeld ++ f y.said.duressActive ++ b y.said.alarmLevel ++ result y.said.outcome)) ∧
     answers .readRoster [0] 11
       (b s.roster.entries.length ++ f s.roster.doubtful ++ b s.roster.cause.code ++ num4 v.presentTime ++
         s.roster.entries.flatMap (fun e => num2 e.holder.id ++ b e.holder.cls ++ num4 e.time ++ f e.holder.escorted ++
           f e.holder.escortCapable)) ∧
     answers .readOutputs [0] 20 ((List.finRange 12).flatMap (fun l =>
       let o := s.img.outputs[l]
       let value := match o.source with
         | .noSource => 0
         | .effectivePosture => s.posture.effective.num
         | .stage => s.stage.ordinal
         | .alarmLevel => s.alarmLevel
         | .areaOccupancy => if s.role = .noArea then s.roster.entries.length else s.areaCount
       b o.source.code ++ b o.threshold ++ f o.activeHigh ++ b value ++ f (s.output l).driven ++ f s.pins.sense[l] ++
         f (s.output l).forced.isSome ++ f (s.output l).mark)) ∧
     answers .readSources [0] 5 (Source.all.flatMap (fun x =>
         b (16 * x.kind.code + x.cls.val) ++
           b ((s.isPending x).toNat + 2 * (s.isInService x).toNat + 4 * (s.source x).masked.toNat +
             8 * (s.source x).settled.toNat + 16 * (x.kind == .level && (s.source x).condition).toNat +
             32 * (s.lockdownFlag x).toNat) ++ num4 (s.raisedTime x)) ++
       num4 v.presentTime ++ s.ann.rotation.toList.flatMap (fun order => order.map (fun x => byteOf x.num.val)) ++
       b s.alarmLevel ++ f s.duressActive ++ f s.alert) ∧
     (∀ x, s.port.snapshot = some x →
       exec (.latchTimes dt ⟨[0], before⟩) s = .next (v.setPort (s.answered [0] 16 0 1 []))) ∧
     (s.port.snapshot = none → exec (.latchTimes dt ⟨[0], before⟩) s = .next (v.setPort
       { s.answered [0] 16 0 0 [] with snapshot := some {
           running := (s.stage == .countdown && 0 < v.countdownMs).toNat +
             2 * (s.role == .release && s.seq.soak.isSome).toNat +
             4 * (s.doors.a.state == .released || s.doors.a.state == .opened).toNat +
             8 * (s.doors.b.state == .released || s.doors.b.state == .opened).toNat +
             16 * s.entry.resA.isSome.toNat + 32 * s.entry.resB.isSome.toNat
           countdown := v.countdownMs, soak := v.soakSec, doorA := v.doorTimer .a, doorB := v.doorTimer .b
           pairA := v.pairWindow .a, pairB := v.pairWindow .b } }))) ∧
  (∀ (s : State) (dt before : Nat), s.portTakes = true → s.port.state = .idle →
     let v := s.elapse dt
     let startup := b s.startup.phase.code ++ b s.startup.clock.code ++ f s.startup.coldStart ++ b s.address ++
       b s.role.code ++ b s.area ++ b s.startup.loadResult.code ++ b s.startup.loadResult.offset
     let suppression := b s.stage.ordinal ++ f (decide (s.role ≠ .noArea) && s.pins.abort) ++ num4 v.countdownMs ++
       num2 v.soakSec ++ b s.seq.abortSet.length ++ padded 4 (s.seq.abortSet.map b) [0] ++
       f (if s.role = .member then s.seq.mirror.flow else s.seq.flowConfirmed) ++
       num2 (match s.seq.mirror.lastNotice with | some n => age v n | none => 65535)
     let coincidence := b s.seq.list.length ++ b (s.seq.list.countP (fun e => e.consumed)) ++
       f (s.seq.list.any (fun e => e.group == .g1)) ++ f (s.seq.list.any (fun e => e.group == .g2)) ++
       f (s.seq.list.any (fun e => e.group == .g1) && s.seq.list.any (fun e => e.group == .g2)) ++ f s.seq.latch ++
       num2 (match s.seq.list.find? (fun e => !e.consumed) with
         | some e => (e.window.map (fun w => (w - v.now + 999999) / 1000000)).getD 0
         | none => 0)
     let door : Door → List Byte := fun x =>
       f x.absent ++ b x.state.code ++ f x.contactOpen ++ f x.rex ++ f x.strike ++
       (match x.credit with
         | some c => f true ++ b c.kind.code ++ b c.kind.direction.code ++ b c.holders.length ++
           padded 2 (c.holders.map (fun h => num2 h.id)) [0, 0] ++ num2 (age v c.granted)
         | none => List.replicate 10 0) ++
       (match x.request with
         | some r => f true ++ b r.credit.kind.code ++ b r.credit.holders.length ++
           num2 (min ((v.now - r.since) / 1000) 30000)
         | none => List.replicate 5 0) ++ b x.lastPending.code ++ f x.lockout
     let reserved : Option Reservation → List Byte := fun x => match x with
       | some r => f true ++ num2 r.holder ++ b r.cls ++ b r.tag ++ num4 (left v r.window)
       | none => List.replicate 9 0
     let mode : ModeEntry → List Byte := fun m => b m.mode.code ++ b m.minClass ++ b m.floor
     let freed : Nat → List Byte := fun n => [Config.freeByte (s.free + n)]
     let entry := reserved s.entry.resA ++ reserved s.entry.resB ++ f s.entry.brokenA ++ f s.entry.brokenB ++
       b s.entry.tag ++ result s.entry.outcome ++
       if s.image.isSome then mode (s.mode .a) ++ mode (s.mode .b) else (List.range 6).flatMap freed
     let roster := b s.roster.entries.length ++ f s.roster.doubtful ++ b s.roster.cause.code ++
       b (s.roster.entries.countP (fun e => e.holder.escorted)) ++
       b (s.roster.entries.countP (fun e => e.holder.escortCapable))
     let posture := b s.posture.view.posture.num ++ [s.posture.view.epoch] ++ b s.posture.view.source ++
       f (s.img.authorities.contains s.address) ++ f s.overlay ++ f s.localRequest ++
       b (s.ann.remote.countP s.inScope) ++ b s.posture.effective.num ++
       f ((List.finRange 12).any (fun l => (s.output l).mark))
     let annunciation := f s.alert ++ b s.alarmLevel ++ b (Source.all.countP s.isCandidate) ++
       b (Source.all.countP s.isInService) ++ f s.duressActive ++ b s.ann.remote.length ++ f s.ann.overflow
     let bus := b s.bus.queue.length ++ padded 6 (s.bus.queue.map (fun e => b e.frame.kind)) [0] ++
       f s.bus.inFlight.isSome ++ b s.bus.abandoned ++ f s.bus.quiet.isSome ++
       num4 ((s.bus.quiet.map (left v)).getD 0) ++ f s.bus.stuck ++ f s.bus.listenOnly ++
       if s.image.isSome then b s.img.rate else freed 6
     ∃ t, exec (.getStatus dt ⟨[0], before⟩) s = .next t ∧
       t.port = s.answered [0] 1 0 0 (startup ++ suppression ++ coincidence ++ door s.doors.a ++ door s.doors.b ++
         entry ++ roster ++ posture ++ annunciation ++ bus) ∧
       t.startup = { s.startup with coldStart := false } ∧
       { t with now := s.now, port := s.port, startup := s.startup, free := s.free } = s)

/-- R191: READ_TIMES answers with the held snapshot, bit 7 of the status byte set, and releases it; with none held it
answers with the live values, bit 7 clear, and holds nothing. A reset empties the snapshot. Bits 6 to 0 of the reply's
flags byte, which R188 gives no value (log entry 35), are left open. -/
def Obligations.ReadTimesReleasesTheSnapshot : Prop :=
  (∀ (s : State) (dt before : Nat), s.AtPanel →
     let data : Snapshot → Nat → List Byte := fun x mark =>
       [byteOf (x.running + mark)] ++ num4 x.countdown ++ num2 x.soak ++ num4 x.doorA ++ num4 x.doorB ++ num4 x.pairA ++
         num4 x.pairB
     (∀ x, s.port.snapshot = some x → ∃ flags, flags < 128 ∧ exec (.readTimes dt ⟨[0], before⟩) s =
       .next ((s.elapse dt).setPort { s.answered [0] 17 0 flags (data x 128) with snapshot := none })) ∧
     (s.port.snapshot = none → ∃ flags x t, flags < 128 ∧ exec (.readTimes dt ⟨[0], before⟩) s =
         .next ((s.elapse dt).setPort (s.answered [0] 17 0 flags (data x 0))) ∧
       exec (.latchTimes dt ⟨[0], before⟩) s = .next t ∧ t.port.snapshot = some x)) ∧
  (∀ s t : State, exec .powerOnReset s = .next t ∨ exec .pinReset s = .next t → t.port.snapshot = none)

/-- R186: a reply read in REPLY sends the reply from its first byte, then 0x00; whole, it consumes the reply and the
port is IDLE; short, the reply stays. In IDLE and BUSY it sends 0x00 and changes nothing. A read under way when the
reply was formed has sent 0x00 first and consumes nothing. -/
def Obligations.ReplyReads : Prop :=
  ∀ (s : State) (dt n before : Nat), 1 ≤ n → s.portTakes = true →
    (∀ reply, s.port.state = .reply → s.port.reply = some reply →
      (before = 0 → reply.length ≤ n → exec (.replyRead dt n before) s = .next ((s.elapse dt).setPort { s.port with
        state := .idle, reply := none, psdo := reply ++ List.replicate (n - reply.length) 0 })) ∧
      (before = 0 → n < reply.length → exec (.replyRead dt n before) s = .next ((s.elapse dt).setPort { s.port with
        psdo := reply.take n })) ∧
      (1 ≤ before → before ≤ n → ∃ sent, sent.length = n ∧ sent.take before = List.replicate before 0 ∧
        exec (.replyRead dt n before) s = .next ((s.elapse dt).setPort { s.port with psdo := sent }))) ∧
    (s.port.state = .idle ∨ s.port.state = .busy → exec (.replyRead dt n before) s =
      .next ((s.elapse dt).setPort { s.port with psdo := List.replicate n 0 }))

/-! ## What every step keeps -/

/-- R52, R65: no step of a station whose valve output is energised in RELEASING only leaves it energised in any other
stage. -/
def Obligations.ValveIsEnergisedInReleasingOnly : Prop :=
  ∀ s t : State, s.ValveSafe → step s = .next t → t.ValveSafe

/-- R79, R83, R84, R88, R93: every step keeps each strike on exactly while its door is RELEASED, and keeps a door
under lockout from being released for ENTRY and from holding an ENTRY request. -/
def Obligations.DoorsStaySafe : Prop :=
  ∀ s t : State, s.DoorsSafe → step s = .next t → t.DoorsSafe

/-- R122, R58, R166, R107, R108, R172, R173 and section 3.2: every step keeps the roster within 16 holders, each once;
the coincidence list within 8 lines, each once; the abort set within 4 addresses, each once; the remote alarm list
within 8 entries, one per station and kind; the tags within 1 to 255; and the transmit queue within 6 frames, with at
most one STATUS and one RELEASE_NOTICE, in order of urgency and then of enqueueing. -/
def Obligations.TablesStayInBounds : Prop :=
  ∀ s t : State, step s = .next t →
    (s.roster.Wf → t.roster.Wf) ∧ (s.seq.ListWf → t.seq.ListWf) ∧ (s.seq.AbortWf → t.seq.AbortWf) ∧
    (s.ann.RemoteWf → t.ann.RemoteWf) ∧ (s.entry.TagWf → t.entry.TagWf) ∧ (s.bus.Wf → t.bus.Wf)

/-- What follows the state does so in the very step in which the state changes. R79, R93: every step keeps one
lockout at both doors. R74: the cadence fits the pattern. R162: ALERT is asserted exactly while an unmasked source is
pending. While the blocks run: R28: the Sequencer holds the area occupancy as roster and members give it, in a
station with an area; that this is so in JOIN too is the model's reading of R78 (log entry 30). R75: lockout is as
the area stage gives it. R74: so is the sounder's pattern. R145, R146: every output line is at the level of its force
or, unforced, of its source's present value. R140, R141, R13: the effective posture is LOCKDOWN while a flagged
source of the station is pending or in-service or the remote list holds a DURESS in scope, and the view's otherwise;
it sets every line's alarm level. R17: DETECTOR_WATCH and DETECTOR_FAULT are true while an enabled line is in WATCH,
or in fault. R49: FIRST_ALARM while the list holds an entry. R76: COUNTDOWN in COUNTDOWN and HELD, INHIBITED and
ISOLATED in their stages. R29, R58, R68, R73, R86, R147, R176, R178, R180, R196, R197: so with every other level
source. -/
def Obligations.OutputsAndConditionsFollow : Prop :=
  ∀ s t : State, s.Following → step s = .next t → t.Following

/-- The station after reset is safe: the valve and the strikes are off, every table is within its bounds, and nothing
is left that a door or a line should follow. -/
def Obligations.ResetIsSafe : Prop := State.reset.Safe ∧ State.reset.Following
end

