-- ==== Sys2Proof/Laws/State.lean ====
section
/-! SUPPORT. One lemma per field per update of the state, so that no proof unfolds a record update. -/

namespace Sys2Proof.Machine

variable (s : State)

/-! ## setPins -/

@[simp] theorem State.setPins_now (x : Pins) : (s.setPins x).now = s.now := rfl
@[simp] theorem State.setPins_loadEnd (x : Pins) : (s.setPins x).loadEnd = s.loadEnd := rfl
@[simp] theorem State.setPins_pins (x : Pins) : (s.setPins x).pins = x := rfl
@[simp] theorem State.setPins_startup (x : Pins) : (s.setPins x).startup = s.startup := rfl
@[simp] theorem State.setPins_image (x : Pins) : (s.setPins x).image = s.image := rfl
@[simp] theorem State.setPins_lines (x : Pins) : (s.setPins x).lines = s.lines := rfl
@[simp] theorem State.setPins_peers (x : Pins) : (s.setPins x).peers = s.peers := rfl
@[simp] theorem State.setPins_seq (x : Pins) : (s.setPins x).seq = s.seq := rfl
@[simp] theorem State.setPins_doors (x : Pins) : (s.setPins x).doors = s.doors := rfl
@[simp] theorem State.setPins_entry (x : Pins) : (s.setPins x).entry = s.entry := rfl
@[simp] theorem State.setPins_roster (x : Pins) : (s.setPins x).roster = s.roster := rfl
@[simp] theorem State.setPins_posture (x : Pins) : (s.setPins x).posture = s.posture := rfl
@[simp] theorem State.setPins_ann (x : Pins) : (s.setPins x).ann = s.ann := rfl
@[simp] theorem State.setPins_bus (x : Pins) : (s.setPins x).bus = s.bus := rfl
@[simp] theorem State.setPins_port (x : Pins) : (s.setPins x).port = s.port := rfl
@[simp] theorem State.setPins_free (x : Pins) : (s.setPins x).free = s.free := rfl
@[simp] theorem State.setPins_pending (x : Pins) : (s.setPins x).pending = s.pending := rfl

/-! ## setStartup -/

@[simp] theorem State.setStartup_now (x : Startup) : (s.setStartup x).now = s.now := rfl
@[simp] theorem State.setStartup_loadEnd (x : Startup) : (s.setStartup x).loadEnd = s.loadEnd := rfl
@[simp] theorem State.setStartup_pins (x : Startup) : (s.setStartup x).pins = s.pins := rfl
@[simp] theorem State.setStartup_startup (x : Startup) : (s.setStartup x).startup = x := rfl
@[simp] theorem State.setStartup_image (x : Startup) : (s.setStartup x).image = s.image := rfl
@[simp] theorem State.setStartup_lines (x : Startup) : (s.setStartup x).lines = s.lines := rfl
@[simp] theorem State.setStartup_peers (x : Startup) : (s.setStartup x).peers = s.peers := rfl
@[simp] theorem State.setStartup_seq (x : Startup) : (s.setStartup x).seq = s.seq := rfl
@[simp] theorem State.setStartup_doors (x : Startup) : (s.setStartup x).doors = s.doors := rfl
@[simp] theorem State.setStartup_entry (x : Startup) : (s.setStartup x).entry = s.entry := rfl
@[simp] theorem State.setStartup_roster (x : Startup) : (s.setStartup x).roster = s.roster := rfl
@[simp] theorem State.setStartup_posture (x : Startup) : (s.setStartup x).posture = s.posture := rfl
@[simp] theorem State.setStartup_ann (x : Startup) : (s.setStartup x).ann = s.ann := rfl
@[simp] theorem State.setStartup_bus (x : Startup) : (s.setStartup x).bus = s.bus := rfl
@[simp] theorem State.setStartup_port (x : Startup) : (s.setStartup x).port = s.port := rfl
@[simp] theorem State.setStartup_free (x : Startup) : (s.setStartup x).free = s.free := rfl
@[simp] theorem State.setStartup_pending (x : Startup) : (s.setStartup x).pending = s.pending := rfl

/-! ## setLines -/

@[simp] theorem State.setLines_now (x : Vector Line 4) : (s.setLines x).now = s.now := rfl
@[simp] theorem State.setLines_loadEnd (x : Vector Line 4) : (s.setLines x).loadEnd = s.loadEnd := rfl
@[simp] theorem State.setLines_pins (x : Vector Line 4) : (s.setLines x).pins = s.pins := rfl
@[simp] theorem State.setLines_startup (x : Vector Line 4) : (s.setLines x).startup = s.startup := rfl
@[simp] theorem State.setLines_image (x : Vector Line 4) : (s.setLines x).image = s.image := rfl
@[simp] theorem State.setLines_lines (x : Vector Line 4) : (s.setLines x).lines = x := rfl
@[simp] theorem State.setLines_peers (x : Vector Line 4) : (s.setLines x).peers = s.peers := rfl
@[simp] theorem State.setLines_seq (x : Vector Line 4) : (s.setLines x).seq = s.seq := rfl
@[simp] theorem State.setLines_doors (x : Vector Line 4) : (s.setLines x).doors = s.doors := rfl
@[simp] theorem State.setLines_entry (x : Vector Line 4) : (s.setLines x).entry = s.entry := rfl
@[simp] theorem State.setLines_roster (x : Vector Line 4) : (s.setLines x).roster = s.roster := rfl
@[simp] theorem State.setLines_posture (x : Vector Line 4) : (s.setLines x).posture = s.posture := rfl
@[simp] theorem State.setLines_ann (x : Vector Line 4) : (s.setLines x).ann = s.ann := rfl
@[simp] theorem State.setLines_bus (x : Vector Line 4) : (s.setLines x).bus = s.bus := rfl
@[simp] theorem State.setLines_port (x : Vector Line 4) : (s.setLines x).port = s.port := rfl
@[simp] theorem State.setLines_free (x : Vector Line 4) : (s.setLines x).free = s.free := rfl
@[simp] theorem State.setLines_pending (x : Vector Line 4) : (s.setLines x).pending = s.pending := rfl

/-! ## setPeers -/

@[simp] theorem State.setPeers_now (x : Vector Peer 48) : (s.setPeers x).now = s.now := rfl
@[simp] theorem State.setPeers_loadEnd (x : Vector Peer 48) : (s.setPeers x).loadEnd = s.loadEnd := rfl
@[simp] theorem State.setPeers_pins (x : Vector Peer 48) : (s.setPeers x).pins = s.pins := rfl
@[simp] theorem State.setPeers_startup (x : Vector Peer 48) : (s.setPeers x).startup = s.startup := rfl
@[simp] theorem State.setPeers_image (x : Vector Peer 48) : (s.setPeers x).image = s.image := rfl
@[simp] theorem State.setPeers_lines (x : Vector Peer 48) : (s.setPeers x).lines = s.lines := rfl
@[simp] theorem State.setPeers_peers (x : Vector Peer 48) : (s.setPeers x).peers = x := rfl
@[simp] theorem State.setPeers_seq (x : Vector Peer 48) : (s.setPeers x).seq = s.seq := rfl
@[simp] theorem State.setPeers_doors (x : Vector Peer 48) : (s.setPeers x).doors = s.doors := rfl
@[simp] theorem State.setPeers_entry (x : Vector Peer 48) : (s.setPeers x).entry = s.entry := rfl
@[simp] theorem State.setPeers_roster (x : Vector Peer 48) : (s.setPeers x).roster = s.roster := rfl
@[simp] theorem State.setPeers_posture (x : Vector Peer 48) : (s.setPeers x).posture = s.posture := rfl
@[simp] theorem State.setPeers_ann (x : Vector Peer 48) : (s.setPeers x).ann = s.ann := rfl
@[simp] theorem State.setPeers_bus (x : Vector Peer 48) : (s.setPeers x).bus = s.bus := rfl
@[simp] theorem State.setPeers_port (x : Vector Peer 48) : (s.setPeers x).port = s.port := rfl
@[simp] theorem State.setPeers_free (x : Vector Peer 48) : (s.setPeers x).free = s.free := rfl
@[simp] theorem State.setPeers_pending (x : Vector Peer 48) : (s.setPeers x).pending = s.pending := rfl

/-! ## setSeq -/

@[simp] theorem State.setSeq_now (x : Sequencer) : (s.setSeq x).now = s.now := rfl
@[simp] theorem State.setSeq_loadEnd (x : Sequencer) : (s.setSeq x).loadEnd = s.loadEnd := rfl
@[simp] theorem State.setSeq_pins (x : Sequencer) : (s.setSeq x).pins = s.pins := rfl
@[simp] theorem State.setSeq_startup (x : Sequencer) : (s.setSeq x).startup = s.startup := rfl
@[simp] theorem State.setSeq_image (x : Sequencer) : (s.setSeq x).image = s.image := rfl
@[simp] theorem State.setSeq_lines (x : Sequencer) : (s.setSeq x).lines = s.lines := rfl
@[simp] theorem State.setSeq_peers (x : Sequencer) : (s.setSeq x).peers = s.peers := rfl
@[simp] theorem State.setSeq_seq (x : Sequencer) : (s.setSeq x).seq = x := rfl
@[simp] theorem State.setSeq_doors (x : Sequencer) : (s.setSeq x).doors = s.doors := rfl
@[simp] theorem State.setSeq_entry (x : Sequencer) : (s.setSeq x).entry = s.entry := rfl
@[simp] theorem State.setSeq_roster (x : Sequencer) : (s.setSeq x).roster = s.roster := rfl
@[simp] theorem State.setSeq_posture (x : Sequencer) : (s.setSeq x).posture = s.posture := rfl
@[simp] theorem State.setSeq_ann (x : Sequencer) : (s.setSeq x).ann = s.ann := rfl
@[simp] theorem State.setSeq_bus (x : Sequencer) : (s.setSeq x).bus = s.bus := rfl
@[simp] theorem State.setSeq_port (x : Sequencer) : (s.setSeq x).port = s.port := rfl
@[simp] theorem State.setSeq_free (x : Sequencer) : (s.setSeq x).free = s.free := rfl
@[simp] theorem State.setSeq_pending (x : Sequencer) : (s.setSeq x).pending = s.pending := rfl

/-! ## setDoors -/

@[simp] theorem State.setDoors_now (x : DoorCtl) : (s.setDoors x).now = s.now := rfl
@[simp] theorem State.setDoors_loadEnd (x : DoorCtl) : (s.setDoors x).loadEnd = s.loadEnd := rfl
@[simp] theorem State.setDoors_pins (x : DoorCtl) : (s.setDoors x).pins = s.pins := rfl
@[simp] theorem State.setDoors_startup (x : DoorCtl) : (s.setDoors x).startup = s.startup := rfl
@[simp] theorem State.setDoors_image (x : DoorCtl) : (s.setDoors x).image = s.image := rfl
@[simp] theorem State.setDoors_lines (x : DoorCtl) : (s.setDoors x).lines = s.lines := rfl
@[simp] theorem State.setDoors_peers (x : DoorCtl) : (s.setDoors x).peers = s.peers := rfl
@[simp] theorem State.setDoors_seq (x : DoorCtl) : (s.setDoors x).seq = s.seq := rfl
@[simp] theorem State.setDoors_doors (x : DoorCtl) : (s.setDoors x).doors = x := rfl
@[simp] theorem State.setDoors_entry (x : DoorCtl) : (s.setDoors x).entry = s.entry := rfl
@[simp] theorem State.setDoors_roster (x : DoorCtl) : (s.setDoors x).roster = s.roster := rfl
@[simp] theorem State.setDoors_posture (x : DoorCtl) : (s.setDoors x).posture = s.posture := rfl
@[simp] theorem State.setDoors_ann (x : DoorCtl) : (s.setDoors x).ann = s.ann := rfl
@[simp] theorem State.setDoors_bus (x : DoorCtl) : (s.setDoors x).bus = s.bus := rfl
@[simp] theorem State.setDoors_port (x : DoorCtl) : (s.setDoors x).port = s.port := rfl
@[simp] theorem State.setDoors_free (x : DoorCtl) : (s.setDoors x).free = s.free := rfl
@[simp] theorem State.setDoors_pending (x : DoorCtl) : (s.setDoors x).pending = s.pending := rfl

/-! ## setEntry -/

@[simp] theorem State.setEntry_now (x : EntryUnit) : (s.setEntry x).now = s.now := rfl
@[simp] theorem State.setEntry_loadEnd (x : EntryUnit) : (s.setEntry x).loadEnd = s.loadEnd := rfl
@[simp] theorem State.setEntry_pins (x : EntryUnit) : (s.setEntry x).pins = s.pins := rfl
@[simp] theorem State.setEntry_startup (x : EntryUnit) : (s.setEntry x).startup = s.startup := rfl
@[simp] theorem State.setEntry_image (x : EntryUnit) : (s.setEntry x).image = s.image := rfl
@[simp] theorem State.setEntry_lines (x : EntryUnit) : (s.setEntry x).lines = s.lines := rfl
@[simp] theorem State.setEntry_peers (x : EntryUnit) : (s.setEntry x).peers = s.peers := rfl
@[simp] theorem State.setEntry_seq (x : EntryUnit) : (s.setEntry x).seq = s.seq := rfl
@[simp] theorem State.setEntry_doors (x : EntryUnit) : (s.setEntry x).doors = s.doors := rfl
@[simp] theorem State.setEntry_entry (x : EntryUnit) : (s.setEntry x).entry = x := rfl
@[simp] theorem State.setEntry_roster (x : EntryUnit) : (s.setEntry x).roster = s.roster := rfl
@[simp] theorem State.setEntry_posture (x : EntryUnit) : (s.setEntry x).posture = s.posture := rfl
@[simp] theorem State.setEntry_ann (x : EntryUnit) : (s.setEntry x).ann = s.ann := rfl
@[simp] theorem State.setEntry_bus (x : EntryUnit) : (s.setEntry x).bus = s.bus := rfl
@[simp] theorem State.setEntry_port (x : EntryUnit) : (s.setEntry x).port = s.port := rfl
@[simp] theorem State.setEntry_free (x : EntryUnit) : (s.setEntry x).free = s.free := rfl
@[simp] theorem State.setEntry_pending (x : EntryUnit) : (s.setEntry x).pending = s.pending := rfl

/-! ## setRoster -/

@[simp] theorem State.setRoster_now (x : Roster) : (s.setRoster x).now = s.now := rfl
@[simp] theorem State.setRoster_loadEnd (x : Roster) : (s.setRoster x).loadEnd = s.loadEnd := rfl
@[simp] theorem State.setRoster_pins (x : Roster) : (s.setRoster x).pins = s.pins := rfl
@[simp] theorem State.setRoster_startup (x : Roster) : (s.setRoster x).startup = s.startup := rfl
@[simp] theorem State.setRoster_image (x : Roster) : (s.setRoster x).image = s.image := rfl
@[simp] theorem State.setRoster_lines (x : Roster) : (s.setRoster x).lines = s.lines := rfl
@[simp] theorem State.setRoster_peers (x : Roster) : (s.setRoster x).peers = s.peers := rfl
@[simp] theorem State.setRoster_seq (x : Roster) : (s.setRoster x).seq = s.seq := rfl
@[simp] theorem State.setRoster_doors (x : Roster) : (s.setRoster x).doors = s.doors := rfl
@[simp] theorem State.setRoster_entry (x : Roster) : (s.setRoster x).entry = s.entry := rfl
@[simp] theorem State.setRoster_roster (x : Roster) : (s.setRoster x).roster = x := rfl
@[simp] theorem State.setRoster_posture (x : Roster) : (s.setRoster x).posture = s.posture := rfl
@[simp] theorem State.setRoster_ann (x : Roster) : (s.setRoster x).ann = s.ann := rfl
@[simp] theorem State.setRoster_bus (x : Roster) : (s.setRoster x).bus = s.bus := rfl
@[simp] theorem State.setRoster_port (x : Roster) : (s.setRoster x).port = s.port := rfl
@[simp] theorem State.setRoster_free (x : Roster) : (s.setRoster x).free = s.free := rfl
@[simp] theorem State.setRoster_pending (x : Roster) : (s.setRoster x).pending = s.pending := rfl

/-! ## setPosture -/

@[simp] theorem State.setPosture_now (x : PostureUnit) : (s.setPosture x).now = s.now := rfl
@[simp] theorem State.setPosture_loadEnd (x : PostureUnit) : (s.setPosture x).loadEnd = s.loadEnd := rfl
@[simp] theorem State.setPosture_pins (x : PostureUnit) : (s.setPosture x).pins = s.pins := rfl
@[simp] theorem State.setPosture_startup (x : PostureUnit) : (s.setPosture x).startup = s.startup := rfl
@[simp] theorem State.setPosture_image (x : PostureUnit) : (s.setPosture x).image = s.image := rfl
@[simp] theorem State.setPosture_lines (x : PostureUnit) : (s.setPosture x).lines = s.lines := rfl
@[simp] theorem State.setPosture_peers (x : PostureUnit) : (s.setPosture x).peers = s.peers := rfl
@[simp] theorem State.setPosture_seq (x : PostureUnit) : (s.setPosture x).seq = s.seq := rfl
@[simp] theorem State.setPosture_doors (x : PostureUnit) : (s.setPosture x).doors = s.doors := rfl
@[simp] theorem State.setPosture_entry (x : PostureUnit) : (s.setPosture x).entry = s.entry := rfl
@[simp] theorem State.setPosture_roster (x : PostureUnit) : (s.setPosture x).roster = s.roster := rfl
@[simp] theorem State.setPosture_posture (x : PostureUnit) : (s.setPosture x).posture = x := rfl
@[simp] theorem State.setPosture_ann (x : PostureUnit) : (s.setPosture x).ann = s.ann := rfl
@[simp] theorem State.setPosture_bus (x : PostureUnit) : (s.setPosture x).bus = s.bus := rfl
@[simp] theorem State.setPosture_port (x : PostureUnit) : (s.setPosture x).port = s.port := rfl
@[simp] theorem State.setPosture_free (x : PostureUnit) : (s.setPosture x).free = s.free := rfl
@[simp] theorem State.setPosture_pending (x : PostureUnit) : (s.setPosture x).pending = s.pending := rfl

/-! ## setAnn -/

@[simp] theorem State.setAnn_now (x : Annunciator) : (s.setAnn x).now = s.now := rfl
@[simp] theorem State.setAnn_loadEnd (x : Annunciator) : (s.setAnn x).loadEnd = s.loadEnd := rfl
@[simp] theorem State.setAnn_pins (x : Annunciator) : (s.setAnn x).pins = s.pins := rfl
@[simp] theorem State.setAnn_startup (x : Annunciator) : (s.setAnn x).startup = s.startup := rfl
@[simp] theorem State.setAnn_image (x : Annunciator) : (s.setAnn x).image = s.image := rfl
@[simp] theorem State.setAnn_lines (x : Annunciator) : (s.setAnn x).lines = s.lines := rfl
@[simp] theorem State.setAnn_peers (x : Annunciator) : (s.setAnn x).peers = s.peers := rfl
@[simp] theorem State.setAnn_seq (x : Annunciator) : (s.setAnn x).seq = s.seq := rfl
@[simp] theorem State.setAnn_doors (x : Annunciator) : (s.setAnn x).doors = s.doors := rfl
@[simp] theorem State.setAnn_entry (x : Annunciator) : (s.setAnn x).entry = s.entry := rfl
@[simp] theorem State.setAnn_roster (x : Annunciator) : (s.setAnn x).roster = s.roster := rfl
@[simp] theorem State.setAnn_posture (x : Annunciator) : (s.setAnn x).posture = s.posture := rfl
@[simp] theorem State.setAnn_ann (x : Annunciator) : (s.setAnn x).ann = x := rfl
@[simp] theorem State.setAnn_bus (x : Annunciator) : (s.setAnn x).bus = s.bus := rfl
@[simp] theorem State.setAnn_port (x : Annunciator) : (s.setAnn x).port = s.port := rfl
@[simp] theorem State.setAnn_free (x : Annunciator) : (s.setAnn x).free = s.free := rfl
@[simp] theorem State.setAnn_pending (x : Annunciator) : (s.setAnn x).pending = s.pending := rfl

/-! ## setBus -/

@[simp] theorem State.setBus_now (x : Bus) : (s.setBus x).now = s.now := rfl
@[simp] theorem State.setBus_loadEnd (x : Bus) : (s.setBus x).loadEnd = s.loadEnd := rfl
@[simp] theorem State.setBus_pins (x : Bus) : (s.setBus x).pins = s.pins := rfl
@[simp] theorem State.setBus_startup (x : Bus) : (s.setBus x).startup = s.startup := rfl
@[simp] theorem State.setBus_image (x : Bus) : (s.setBus x).image = s.image := rfl
@[simp] theorem State.setBus_lines (x : Bus) : (s.setBus x).lines = s.lines := rfl
@[simp] theorem State.setBus_peers (x : Bus) : (s.setBus x).peers = s.peers := rfl
@[simp] theorem State.setBus_seq (x : Bus) : (s.setBus x).seq = s.seq := rfl
@[simp] theorem State.setBus_doors (x : Bus) : (s.setBus x).doors = s.doors := rfl
@[simp] theorem State.setBus_entry (x : Bus) : (s.setBus x).entry = s.entry := rfl
@[simp] theorem State.setBus_roster (x : Bus) : (s.setBus x).roster = s.roster := rfl
@[simp] theorem State.setBus_posture (x : Bus) : (s.setBus x).posture = s.posture := rfl
@[simp] theorem State.setBus_ann (x : Bus) : (s.setBus x).ann = s.ann := rfl
@[simp] theorem State.setBus_bus (x : Bus) : (s.setBus x).bus = x := rfl
@[simp] theorem State.setBus_port (x : Bus) : (s.setBus x).port = s.port := rfl
@[simp] theorem State.setBus_free (x : Bus) : (s.setBus x).free = s.free := rfl
@[simp] theorem State.setBus_pending (x : Bus) : (s.setBus x).pending = s.pending := rfl

/-! ## setPort -/

@[simp] theorem State.setPort_now (x : Port) : (s.setPort x).now = s.now := rfl
@[simp] theorem State.setPort_loadEnd (x : Port) : (s.setPort x).loadEnd = s.loadEnd := rfl
@[simp] theorem State.setPort_pins (x : Port) : (s.setPort x).pins = s.pins := rfl
@[simp] theorem State.setPort_startup (x : Port) : (s.setPort x).startup = s.startup := rfl
@[simp] theorem State.setPort_image (x : Port) : (s.setPort x).image = s.image := rfl
@[simp] theorem State.setPort_lines (x : Port) : (s.setPort x).lines = s.lines := rfl
@[simp] theorem State.setPort_peers (x : Port) : (s.setPort x).peers = s.peers := rfl
@[simp] theorem State.setPort_seq (x : Port) : (s.setPort x).seq = s.seq := rfl
@[simp] theorem State.setPort_doors (x : Port) : (s.setPort x).doors = s.doors := rfl
@[simp] theorem State.setPort_entry (x : Port) : (s.setPort x).entry = s.entry := rfl
@[simp] theorem State.setPort_roster (x : Port) : (s.setPort x).roster = s.roster := rfl
@[simp] theorem State.setPort_posture (x : Port) : (s.setPort x).posture = s.posture := rfl
@[simp] theorem State.setPort_ann (x : Port) : (s.setPort x).ann = s.ann := rfl
@[simp] theorem State.setPort_bus (x : Port) : (s.setPort x).bus = s.bus := rfl
@[simp] theorem State.setPort_port (x : Port) : (s.setPort x).port = x := rfl
@[simp] theorem State.setPort_free (x : Port) : (s.setPort x).free = s.free := rfl
@[simp] theorem State.setPort_pending (x : Port) : (s.setPort x).pending = s.pending := rfl

/-! ## elapse -/

@[simp] theorem State.elapse_now (n : Nat) : (s.elapse n).now = s.now + n := rfl
@[simp] theorem State.elapse_loadEnd (n : Nat) : (s.elapse n).loadEnd = s.loadEnd := rfl
@[simp] theorem State.elapse_pins (n : Nat) : (s.elapse n).pins = s.pins := rfl
@[simp] theorem State.elapse_startup (n : Nat) : (s.elapse n).startup = s.startup := rfl
@[simp] theorem State.elapse_image (n : Nat) : (s.elapse n).image = s.image := rfl
@[simp] theorem State.elapse_lines (n : Nat) : (s.elapse n).lines = s.lines := rfl
@[simp] theorem State.elapse_peers (n : Nat) : (s.elapse n).peers = s.peers := rfl
@[simp] theorem State.elapse_seq (n : Nat) : (s.elapse n).seq = s.seq := rfl
@[simp] theorem State.elapse_doors (n : Nat) : (s.elapse n).doors = s.doors := rfl
@[simp] theorem State.elapse_entry (n : Nat) : (s.elapse n).entry = s.entry := rfl
@[simp] theorem State.elapse_roster (n : Nat) : (s.elapse n).roster = s.roster := rfl
@[simp] theorem State.elapse_posture (n : Nat) : (s.elapse n).posture = s.posture := rfl
@[simp] theorem State.elapse_ann (n : Nat) : (s.elapse n).ann = s.ann := rfl
@[simp] theorem State.elapse_bus (n : Nat) : (s.elapse n).bus = s.bus := rfl
@[simp] theorem State.elapse_port (n : Nat) : (s.elapse n).port = s.port := rfl
@[simp] theorem State.elapse_free (n : Nat) : (s.elapse n).free = s.free := rfl
@[simp] theorem State.elapse_pending (n : Nat) : (s.elapse n).pending = s.pending := rfl

/-! ## reach -/

@[simp] theorem State.reach_now (n : Nat) : (s.reach n).now = max s.now n := rfl
@[simp] theorem State.reach_loadEnd (n : Nat) : (s.reach n).loadEnd = s.loadEnd := rfl
@[simp] theorem State.reach_pins (n : Nat) : (s.reach n).pins = s.pins := rfl
@[simp] theorem State.reach_startup (n : Nat) : (s.reach n).startup = s.startup := rfl
@[simp] theorem State.reach_image (n : Nat) : (s.reach n).image = s.image := rfl
@[simp] theorem State.reach_lines (n : Nat) : (s.reach n).lines = s.lines := rfl
@[simp] theorem State.reach_peers (n : Nat) : (s.reach n).peers = s.peers := rfl
@[simp] theorem State.reach_seq (n : Nat) : (s.reach n).seq = s.seq := rfl
@[simp] theorem State.reach_doors (n : Nat) : (s.reach n).doors = s.doors := rfl
@[simp] theorem State.reach_entry (n : Nat) : (s.reach n).entry = s.entry := rfl
@[simp] theorem State.reach_roster (n : Nat) : (s.reach n).roster = s.roster := rfl
@[simp] theorem State.reach_posture (n : Nat) : (s.reach n).posture = s.posture := rfl
@[simp] theorem State.reach_ann (n : Nat) : (s.reach n).ann = s.ann := rfl
@[simp] theorem State.reach_bus (n : Nat) : (s.reach n).bus = s.bus := rfl
@[simp] theorem State.reach_port (n : Nat) : (s.reach n).port = s.port := rfl
@[simp] theorem State.reach_free (n : Nat) : (s.reach n).free = s.free := rfl
@[simp] theorem State.reach_pending (n : Nat) : (s.reach n).pending = s.pending := rfl

/-! ## setLine -/

@[simp] theorem State.setLine_now (l : Fin 4) (x : Line) : (s.setLine l x).now = s.now := rfl
@[simp] theorem State.setLine_loadEnd (l : Fin 4) (x : Line) : (s.setLine l x).loadEnd = s.loadEnd := rfl
@[simp] theorem State.setLine_pins (l : Fin 4) (x : Line) : (s.setLine l x).pins = s.pins := rfl
@[simp] theorem State.setLine_startup (l : Fin 4) (x : Line) : (s.setLine l x).startup = s.startup := rfl
@[simp] theorem State.setLine_image (l : Fin 4) (x : Line) : (s.setLine l x).image = s.image := rfl
@[simp] theorem State.setLine_peers (l : Fin 4) (x : Line) : (s.setLine l x).peers = s.peers := rfl
@[simp] theorem State.setLine_seq (l : Fin 4) (x : Line) : (s.setLine l x).seq = s.seq := rfl
@[simp] theorem State.setLine_doors (l : Fin 4) (x : Line) : (s.setLine l x).doors = s.doors := rfl
@[simp] theorem State.setLine_entry (l : Fin 4) (x : Line) : (s.setLine l x).entry = s.entry := rfl
@[simp] theorem State.setLine_roster (l : Fin 4) (x : Line) : (s.setLine l x).roster = s.roster := rfl
@[simp] theorem State.setLine_posture (l : Fin 4) (x : Line) : (s.setLine l x).posture = s.posture := rfl
@[simp] theorem State.setLine_ann (l : Fin 4) (x : Line) : (s.setLine l x).ann = s.ann := rfl
@[simp] theorem State.setLine_bus (l : Fin 4) (x : Line) : (s.setLine l x).bus = s.bus := rfl
@[simp] theorem State.setLine_port (l : Fin 4) (x : Line) : (s.setLine l x).port = s.port := rfl
@[simp] theorem State.setLine_free (l : Fin 4) (x : Line) : (s.setLine l x).free = s.free := rfl
@[simp] theorem State.setLine_pending (l : Fin 4) (x : Line) : (s.setLine l x).pending = s.pending := rfl

/-! ## setSource -/

@[simp] theorem State.setSource_now (x : Source) (y : SourceState) : (s.setSource x y).now = s.now := rfl
@[simp] theorem State.setSource_loadEnd (x : Source) (y : SourceState) : (s.setSource x y).loadEnd = s.loadEnd := rfl
@[simp] theorem State.setSource_pins (x : Source) (y : SourceState) : (s.setSource x y).pins = s.pins := rfl
@[simp] theorem State.setSource_startup (x : Source) (y : SourceState) : (s.setSource x y).startup = s.startup := rfl
@[simp] theorem State.setSource_image (x : Source) (y : SourceState) : (s.setSource x y).image = s.image := rfl
@[simp] theorem State.setSource_lines (x : Source) (y : SourceState) : (s.setSource x y).lines = s.lines := rfl
@[simp] theorem State.setSource_peers (x : Source) (y : SourceState) : (s.setSource x y).peers = s.peers := rfl
@[simp] theorem State.setSource_seq (x : Source) (y : SourceState) : (s.setSource x y).seq = s.seq := rfl
@[simp] theorem State.setSource_doors (x : Source) (y : SourceState) : (s.setSource x y).doors = s.doors := rfl
@[simp] theorem State.setSource_entry (x : Source) (y : SourceState) : (s.setSource x y).entry = s.entry := rfl
@[simp] theorem State.setSource_roster (x : Source) (y : SourceState) : (s.setSource x y).roster = s.roster := rfl
@[simp] theorem State.setSource_posture (x : Source) (y : SourceState) : (s.setSource x y).posture = s.posture := rfl
@[simp] theorem State.setSource_bus (x : Source) (y : SourceState) : (s.setSource x y).bus = s.bus := rfl
@[simp] theorem State.setSource_port (x : Source) (y : SourceState) : (s.setSource x y).port = s.port := rfl
@[simp] theorem State.setSource_free (x : Source) (y : SourceState) : (s.setSource x y).free = s.free := rfl
@[simp] theorem State.setSource_pending (x : Source) (y : SourceState) : (s.setSource x y).pending = s.pending := rfl

/-! ## setOutput -/

@[simp] theorem State.setOutput_now (l : Fin 12) (x : OutLine) : (s.setOutput l x).now = s.now := rfl
@[simp] theorem State.setOutput_loadEnd (l : Fin 12) (x : OutLine) : (s.setOutput l x).loadEnd = s.loadEnd := rfl
@[simp] theorem State.setOutput_pins (l : Fin 12) (x : OutLine) : (s.setOutput l x).pins = s.pins := rfl
@[simp] theorem State.setOutput_startup (l : Fin 12) (x : OutLine) : (s.setOutput l x).startup = s.startup := rfl
@[simp] theorem State.setOutput_image (l : Fin 12) (x : OutLine) : (s.setOutput l x).image = s.image := rfl
@[simp] theorem State.setOutput_lines (l : Fin 12) (x : OutLine) : (s.setOutput l x).lines = s.lines := rfl
@[simp] theorem State.setOutput_peers (l : Fin 12) (x : OutLine) : (s.setOutput l x).peers = s.peers := rfl
@[simp] theorem State.setOutput_seq (l : Fin 12) (x : OutLine) : (s.setOutput l x).seq = s.seq := rfl
@[simp] theorem State.setOutput_doors (l : Fin 12) (x : OutLine) : (s.setOutput l x).doors = s.doors := rfl
@[simp] theorem State.setOutput_entry (l : Fin 12) (x : OutLine) : (s.setOutput l x).entry = s.entry := rfl
@[simp] theorem State.setOutput_roster (l : Fin 12) (x : OutLine) : (s.setOutput l x).roster = s.roster := rfl
@[simp] theorem State.setOutput_ann (l : Fin 12) (x : OutLine) : (s.setOutput l x).ann = s.ann := rfl
@[simp] theorem State.setOutput_bus (l : Fin 12) (x : OutLine) : (s.setOutput l x).bus = s.bus := rfl
@[simp] theorem State.setOutput_port (l : Fin 12) (x : OutLine) : (s.setOutput l x).port = s.port := rfl
@[simp] theorem State.setOutput_free (l : Fin 12) (x : OutLine) : (s.setOutput l x).free = s.free := rfl
@[simp] theorem State.setOutput_pending (l : Fin 12) (x : OutLine) : (s.setOutput l x).pending = s.pending := rfl

/-! ## setDoor -/

@[simp] theorem State.setDoor_now (d : DoorId) (x : Door) : (s.setDoor d x).now = s.now := by cases d <;> rfl
@[simp] theorem State.setDoor_loadEnd (d : DoorId) (x : Door) : (s.setDoor d x).loadEnd = s.loadEnd := by cases d <;> rfl
@[simp] theorem State.setDoor_pins (d : DoorId) (x : Door) : (s.setDoor d x).pins = s.pins := by cases d <;> rfl
@[simp] theorem State.setDoor_startup (d : DoorId) (x : Door) : (s.setDoor d x).startup = s.startup := by cases d <;> rfl
@[simp] theorem State.setDoor_image (d : DoorId) (x : Door) : (s.setDoor d x).image = s.image := by cases d <;> rfl
@[simp] theorem State.setDoor_lines (d : DoorId) (x : Door) : (s.setDoor d x).lines = s.lines := by cases d <;> rfl
@[simp] theorem State.setDoor_peers (d : DoorId) (x : Door) : (s.setDoor d x).peers = s.peers := by cases d <;> rfl
@[simp] theorem State.setDoor_seq (d : DoorId) (x : Door) : (s.setDoor d x).seq = s.seq := by cases d <;> rfl
@[simp] theorem State.setDoor_entry (d : DoorId) (x : Door) : (s.setDoor d x).entry = s.entry := by cases d <;> rfl
@[simp] theorem State.setDoor_roster (d : DoorId) (x : Door) : (s.setDoor d x).roster = s.roster := by cases d <;> rfl
@[simp] theorem State.setDoor_posture (d : DoorId) (x : Door) : (s.setDoor d x).posture = s.posture := by cases d <;> rfl
@[simp] theorem State.setDoor_ann (d : DoorId) (x : Door) : (s.setDoor d x).ann = s.ann := by cases d <;> rfl
@[simp] theorem State.setDoor_bus (d : DoorId) (x : Door) : (s.setDoor d x).bus = s.bus := by cases d <;> rfl
@[simp] theorem State.setDoor_port (d : DoorId) (x : Door) : (s.setDoor d x).port = s.port := by cases d <;> rfl
@[simp] theorem State.setDoor_free (d : DoorId) (x : Door) : (s.setDoor d x).free = s.free := by cases d <;> rfl
@[simp] theorem State.setDoor_pending (d : DoorId) (x : Door) : (s.setDoor d x).pending = s.pending := by cases d <;> rfl

/-! ## setReservation -/

@[simp] theorem State.setReservation_now (d : DoorId) (x : Option Reservation) : (s.setReservation d x).now = s.now := by cases d <;> rfl
@[simp] theorem State.setReservation_loadEnd (d : DoorId) (x : Option Reservation) : (s.setReservation d x).loadEnd = s.loadEnd := by cases d <;> rfl
@[simp] theorem State.setReservation_pins (d : DoorId) (x : Option Reservation) : (s.setReservation d x).pins = s.pins := by cases d <;> rfl
@[simp] theorem State.setReservation_startup (d : DoorId) (x : Option Reservation) : (s.setReservation d x).startup = s.startup := by cases d <;> rfl
@[simp] theorem State.setReservation_image (d : DoorId) (x : Option Reservation) : (s.setReservation d x).image = s.image := by cases d <;> rfl
@[simp] theorem State.setReservation_lines (d : DoorId) (x : Option Reservation) : (s.setReservation d x).lines = s.lines := by cases d <;> rfl
@[simp] theorem State.setReservation_peers (d : DoorId) (x : Option Reservation) : (s.setReservation d x).peers = s.peers := by cases d <;> rfl
@[simp] theorem State.setReservation_seq (d : DoorId) (x : Option Reservation) : (s.setReservation d x).seq = s.seq := by cases d <;> rfl
@[simp] theorem State.setReservation_doors (d : DoorId) (x : Option Reservation) : (s.setReservation d x).doors = s.doors := by cases d <;> rfl
@[simp] theorem State.setReservation_roster (d : DoorId) (x : Option Reservation) : (s.setReservation d x).roster = s.roster := by cases d <;> rfl
@[simp] theorem State.setReservation_posture (d : DoorId) (x : Option Reservation) : (s.setReservation d x).posture = s.posture := by cases d <;> rfl
@[simp] theorem State.setReservation_ann (d : DoorId) (x : Option Reservation) : (s.setReservation d x).ann = s.ann := by cases d <;> rfl
@[simp] theorem State.setReservation_bus (d : DoorId) (x : Option Reservation) : (s.setReservation d x).bus = s.bus := by cases d <;> rfl
@[simp] theorem State.setReservation_port (d : DoorId) (x : Option Reservation) : (s.setReservation d x).port = s.port := by cases d <;> rfl
@[simp] theorem State.setReservation_free (d : DoorId) (x : Option Reservation) : (s.setReservation d x).free = s.free := by cases d <;> rfl
@[simp] theorem State.setReservation_pending (d : DoorId) (x : Option Reservation) : (s.setReservation d x).pending = s.pending := by cases d <;> rfl

/-! ## setBroken -/

@[simp] theorem State.setBroken_now (d : DoorId) (x : Bool) : (s.setBroken d x).now = s.now := by cases d <;> rfl
@[simp] theorem State.setBroken_loadEnd (d : DoorId) (x : Bool) : (s.setBroken d x).loadEnd = s.loadEnd := by cases d <;> rfl
@[simp] theorem State.setBroken_pins (d : DoorId) (x : Bool) : (s.setBroken d x).pins = s.pins := by cases d <;> rfl
@[simp] theorem State.setBroken_startup (d : DoorId) (x : Bool) : (s.setBroken d x).startup = s.startup := by cases d <;> rfl
@[simp] theorem State.setBroken_image (d : DoorId) (x : Bool) : (s.setBroken d x).image = s.image := by cases d <;> rfl
@[simp] theorem State.setBroken_lines (d : DoorId) (x : Bool) : (s.setBroken d x).lines = s.lines := by cases d <;> rfl
@[simp] theorem State.setBroken_peers (d : DoorId) (x : Bool) : (s.setBroken d x).peers = s.peers := by cases d <;> rfl
@[simp] theorem State.setBroken_seq (d : DoorId) (x : Bool) : (s.setBroken d x).seq = s.seq := by cases d <;> rfl
@[simp] theorem State.setBroken_doors (d : DoorId) (x : Bool) : (s.setBroken d x).doors = s.doors := by cases d <;> rfl
@[simp] theorem State.setBroken_roster (d : DoorId) (x : Bool) : (s.setBroken d x).roster = s.roster := by cases d <;> rfl
@[simp] theorem State.setBroken_posture (d : DoorId) (x : Bool) : (s.setBroken d x).posture = s.posture := by cases d <;> rfl
@[simp] theorem State.setBroken_ann (d : DoorId) (x : Bool) : (s.setBroken d x).ann = s.ann := by cases d <;> rfl
@[simp] theorem State.setBroken_bus (d : DoorId) (x : Bool) : (s.setBroken d x).bus = s.bus := by cases d <;> rfl
@[simp] theorem State.setBroken_port (d : DoorId) (x : Bool) : (s.setBroken d x).port = s.port := by cases d <;> rfl
@[simp] theorem State.setBroken_free (d : DoorId) (x : Bool) : (s.setBroken d x).free = s.free := by cases d <;> rfl
@[simp] theorem State.setBroken_pending (d : DoorId) (x : Bool) : (s.setBroken d x).pending = s.pending := by cases d <;> rfl

/-! ## setPeer -/

@[simp] theorem State.setPeer_now (a : Nat) (x : Peer) : (s.setPeer a x).now = s.now := by
  unfold State.setPeer; split <;> rfl
@[simp] theorem State.setPeer_loadEnd (a : Nat) (x : Peer) : (s.setPeer a x).loadEnd = s.loadEnd := by
  unfold State.setPeer; split <;> rfl
@[simp] theorem State.setPeer_pins (a : Nat) (x : Peer) : (s.setPeer a x).pins = s.pins := by
  unfold State.setPeer; split <;> rfl
@[simp] theorem State.setPeer_startup (a : Nat) (x : Peer) : (s.setPeer a x).startup = s.startup := by
  unfold State.setPeer; split <;> rfl
@[simp] theorem State.setPeer_image (a : Nat) (x : Peer) : (s.setPeer a x).image = s.image := by
  unfold State.setPeer; split <;> rfl
@[simp] theorem State.setPeer_lines (a : Nat) (x : Peer) : (s.setPeer a x).lines = s.lines := by
  unfold State.setPeer; split <;> rfl
@[simp] theorem State.setPeer_seq (a : Nat) (x : Peer) : (s.setPeer a x).seq = s.seq := by
  unfold State.setPeer; split <;> rfl
@[simp] theorem State.setPeer_doors (a : Nat) (x : Peer) : (s.setPeer a x).doors = s.doors := by
  unfold State.setPeer; split <;> rfl
@[simp] theorem State.setPeer_entry (a : Nat) (x : Peer) : (s.setPeer a x).entry = s.entry := by
  unfold State.setPeer; split <;> rfl
@[simp] theorem State.setPeer_roster (a : Nat) (x : Peer) : (s.setPeer a x).roster = s.roster := by
  unfold State.setPeer; split <;> rfl
@[simp] theorem State.setPeer_posture (a : Nat) (x : Peer) : (s.setPeer a x).posture = s.posture := by
  unfold State.setPeer; split <;> rfl
@[simp] theorem State.setPeer_ann (a : Nat) (x : Peer) : (s.setPeer a x).ann = s.ann := by
  unfold State.setPeer; split <;> rfl
@[simp] theorem State.setPeer_bus (a : Nat) (x : Peer) : (s.setPeer a x).bus = s.bus := by
  unfold State.setPeer; split <;> rfl
@[simp] theorem State.setPeer_port (a : Nat) (x : Peer) : (s.setPeer a x).port = s.port := by
  unfold State.setPeer; split <;> rfl
@[simp] theorem State.setPeer_free (a : Nat) (x : Peer) : (s.setPeer a x).free = s.free := by
  unfold State.setPeer; split <;> rfl
@[simp] theorem State.setPeer_pending (a : Nat) (x : Peer) : (s.setPeer a x).pending = s.pending := by
  unfold State.setPeer; split <;> rfl

/-! ## hear -/

@[simp] theorem State.hear_now (levels : List Bool) : (s.hear levels).now = s.now := by
  unfold State.hear; split <;> rfl
@[simp] theorem State.hear_loadEnd (levels : List Bool) : (s.hear levels).loadEnd = s.loadEnd := by
  unfold State.hear; split <;> rfl
@[simp] theorem State.hear_pins (levels : List Bool) : (s.hear levels).pins = s.pins := by
  unfold State.hear; split <;> rfl
@[simp] theorem State.hear_startup (levels : List Bool) : (s.hear levels).startup = s.startup := by
  unfold State.hear; split <;> rfl
@[simp] theorem State.hear_image (levels : List Bool) : (s.hear levels).image = s.image := by
  unfold State.hear; split <;> rfl
@[simp] theorem State.hear_lines (levels : List Bool) : (s.hear levels).lines = s.lines := by
  unfold State.hear; split <;> rfl
@[simp] theorem State.hear_peers (levels : List Bool) : (s.hear levels).peers = s.peers := by
  unfold State.hear; split <;> rfl
@[simp] theorem State.hear_seq (levels : List Bool) : (s.hear levels).seq = s.seq := by
  unfold State.hear; split <;> rfl
@[simp] theorem State.hear_doors (levels : List Bool) : (s.hear levels).doors = s.doors := by
  unfold State.hear; split <;> rfl
@[simp] theorem State.hear_entry (levels : List Bool) : (s.hear levels).entry = s.entry := by
  unfold State.hear; split <;> rfl
@[simp] theorem State.hear_roster (levels : List Bool) : (s.hear levels).roster = s.roster := by
  unfold State.hear; split <;> rfl
@[simp] theorem State.hear_posture (levels : List Bool) : (s.hear levels).posture = s.posture := by
  unfold State.hear; split <;> rfl
@[simp] theorem State.hear_ann (levels : List Bool) : (s.hear levels).ann = s.ann := by
  unfold State.hear; split <;> rfl
@[simp] theorem State.hear_port (levels : List Bool) : (s.hear levels).port = s.port := by
  unfold State.hear; split <;> rfl
@[simp] theorem State.hear_free (levels : List Bool) : (s.hear levels).free = s.free := by
  unfold State.hear; split <;> rfl
@[simp] theorem State.hear_pending (levels : List Bool) : (s.hear levels).pending = s.pending := by
  unfold State.hear; split <;> rfl

/-! ## Filtered inputs -/

theorem Input.num_injective {i j : Input} (h : i.num = j.num) : i = j := by
  cases i <;> cases j <;> first | rfl | (exact absurd h (by decide))

@[simp] theorem Pins.setLevel_level (p : Pins) (i j : Input) (x : Bool) :
    (p.setLevel i x).level j = if j = i then x else p.level j := by
  cases i <;> cases j <;> rfl

@[simp] theorem Pins.setLevel_filter (p : Pins) (i j : Input) (x : Bool) : (p.setLevel i x).filter j = p.filter j := by
  cases i <;> rfl

@[simp] theorem Pins.setFilter_level (p : Pins) (i j : Input) (x : Option Nat) :
    (p.setFilter i x).level j = p.level j := by
  cases j <;> rfl

@[simp] theorem Pins.setFilter_filter (p : Pins) (i j : Input) (x : Option Nat) :
    (p.setFilter i x).filter j = if j = i then x else p.filter j := by
  simp only [Pins.setFilter, Pins.filter, Fin.getElem_fin, Vector.getElem_set]
  by_cases h : j = i
  · simp [h]
  · have : ¬ (i.num : Nat) = j.num := fun e => h (Input.num_injective (Fin.ext e.symm))
    simp [h, this]

@[simp] theorem Pins.take_level (p : Pins) (i j : Input) (x : Bool) :
    (p.take i x).level j = if j = i then x else p.level j := by simp [Pins.take]

@[simp] theorem Pins.take_filter (p : Pins) (i j : Input) (x : Bool) :
    (p.take i x).filter j = if j = i then none else p.filter j := by simp [Pins.take]

@[simp] theorem Pins.standing_level (p : Pins) (i : Input) : p.standing.level i = p.raw i := by cases i <;> rfl

@[simp] theorem Pins.standing_filter (p : Pins) (i : Input) : p.standing.filter i = none := by cases i <;> rfl

/-- Once the inputs are taken as they stand, they stand so. -/
theorem Pins.standing_standing (p : Pins) : p.standing.standing = p.standing := by
  simp [Pins.standing, Pins.raw, Pins.level, Pins.filter]

/-! ## Reading what was written -/

@[simp] theorem State.setLine_line (l k : Fin 4) (x : Line) :
    (s.setLine l x).line k = if k = l then x else s.line k := by
  simp only [State.setLine, State.line, State.setLines, Fin.getElem_fin, Vector.getElem_set]
  by_cases h : k = l
  · simp [h]
  · simp [h, Ne.symm (Fin.val_ne_of_ne h)]

@[simp] theorem State.setOutput_output (l k : Fin 12) (x : OutLine) :
    (s.setOutput l x).output k = if k = l then x else s.output k := by
  simp only [State.setOutput, State.output, State.setPosture, Fin.getElem_fin, Vector.getElem_set]
  by_cases h : k = l
  · simp [h]
  · simp [h, Ne.symm (Fin.val_ne_of_ne h)]

theorem Source.num_injective {x y : Source} (h : x.num = y.num) : x = y := by
  cases x <;> cases y <;> first | rfl | (exact absurd h (by decide))

@[simp] theorem State.setSource_source (x k : Source) (y : SourceState) :
    (s.setSource x y).source k = if k = x then y else s.source k := by
  simp only [State.setSource, State.source, State.setAnn, Fin.getElem_fin, Vector.getElem_set]
  by_cases h : k = x
  · simp [h]
  · have : ¬ (x.num : Nat) = k.num := fun e => h (Source.num_injective (Fin.ext e.symm))
    simp [h, this]

@[simp] theorem State.setDoor_door (d k : DoorId) (x : Door) :
    (s.setDoor d x).door k = if k = d then x else s.door k := by
  cases d <;> cases k <;> rfl

@[simp] theorem State.setReservation_reservation (d k : DoorId) (x : Option Reservation) :
    (s.setReservation d x).reservation k = if k = d then x else s.reservation k := by
  cases d <;> cases k <;> rfl

@[simp] theorem State.setBroken_broken (d k : DoorId) (x : Bool) :
    (s.setBroken d x).broken k = if k = d then x else s.broken k := by
  cases d <;> cases k <;> rfl

@[simp] theorem State.setReservation_broken (d k : DoorId) (x : Option Reservation) :
    (s.setReservation d x).broken k = s.broken k := by
  cases d <;> cases k <;> rfl

@[simp] theorem State.setBroken_reservation (d k : DoorId) (x : Bool) :
    (s.setBroken d x).reservation k = s.reservation k := by
  cases d <;> cases k <;> rfl

/-- A peer's entry after a write: of the address written, where it is 1 to 48. -/
theorem State.setPeer_peer (a b : Nat) (x : Peer) :
    (s.setPeer a x).peer b = if b = a ∧ 1 ≤ a ∧ a ≤ 48 then x else s.peer b := by
  unfold State.setPeer State.peer
  by_cases ha : a = 0
  · simp [ha]
  · by_cases hb : b = 0
    · subst hb
      have : ¬ 0 = a := fun h => ha h.symm
      simp [this]
    · simp only [ha, hb, if_false, State.setPeers, Vector.getElem?_setIfInBounds]
      by_cases he : b = a
      · subst he
        by_cases h48 : b ≤ 48
        · have h1 : b - 1 < 48 := by omega
          have h2 : 1 ≤ b := by omega
          simp [h1, h2, h48]
        · have : ¬ b - 1 < 48 := by omega
          simp [this, h48]
      · have : ¬ a - 1 = b - 1 := by omega
        simp [this, he]

end Sys2Proof.Machine
end

