-- ==== Sys2Proof/Laws/Frames.lean ====
section
/-! SUPPORT. What the shared operations leave alone. `Handed s t` says everything that a hand-off can do to the state, by
saying all that it cannot; `SeqOnly` and `BusOnly` are narrower. Each shared operation has one lemma here that says which
of the three it is, so that a proof about a command cites it and does not unfold the operation. -/

namespace Sys2Proof.Machine

/-- A hand-off that leaves the level sources alone. -/
structure Pushed (s t : State) : Prop extends Handed s t where
  levelStay : ∀ x, x.kind = .level → t.source x = s.source x

/-- A hand-off that leaves the lines, the doors, the reservations and the Posture and Output Unit alone. -/
structure SeqOnly (s t : State) : Prop extends Pushed s t where
  lines_eq : t.lines = s.lines
  doors_eq : t.doors = s.doors
  entry_eq : t.entry = s.entry
  posture_eq : t.posture = s.posture

/-- A hand-off to the transmit queue and the Annunciator alone. -/
structure BusOnly (s t : State) : Prop extends SeqOnly s t where
  seq_eq : t.seq = s.seq

/-! ## Reflexivity and composition -/

theorem Handed.refl (s : State) : Handed s s := by constructor <;> intros <;> first | rfl | assumption

theorem Pushed.refl (s : State) : Pushed s s := ⟨Handed.refl s, fun _ _ => rfl⟩

theorem SeqOnly.refl (s : State) : SeqOnly s s := ⟨Pushed.refl s, rfl, rfl, rfl, rfl⟩

theorem BusOnly.refl (s : State) : BusOnly s s := ⟨SeqOnly.refl s, rfl⟩

theorem Handed.trans {s t u : State} (h : Handed s t) (k : Handed t u) : Handed s u where
  now := k.now.trans h.now
  loadEnd := k.loadEnd.trans h.loadEnd
  pins := k.pins.trans h.pins
  startup := k.startup.trans h.startup
  image := k.image.trans h.image
  peers := k.peers.trans h.peers
  roster := k.roster.trans h.roster
  port := k.port.trans h.port
  free := k.free.trans h.free
  pending := k.pending.trans h.pending
  lines l := (k.lines l).trans (h.lines l)
  view := k.view.trans h.view
  forced l := (k.forced l).trans (h.forced l)
  tag := k.tag.trans h.tag
  outcome := k.outcome.trans h.outcome
  counter := k.counter.trans h.counter
  inFlight := k.inFlight.trans h.inFlight
  abandoned := k.abandoned.trans h.abandoned
  quiet := k.quiet.trans h.quiet
  stuck := k.stuck.trans h.stuck
  recessive := k.recessive.trans h.recessive
  listenOnly := k.listenOnly.trans h.listenOnly
  firstStatus := k.firstStatus.trans h.firstStatus
  statusTimer := k.statusTimer.trans h.statusTimer
  announcing := k.announcing.trans h.announcing
  rotation := k.rotation.trans h.rotation
  remote := k.remote.trans h.remote
  overflow := k.overflow.trans h.overflow
  masked x := (k.masked x).trans (h.masked x)
  inService x := (k.inService x).trans (h.inService x)
  raisedStay x hx hp := k.raisedStay x hx (h.raisedStay x hx hp)

theorem Pushed.trans {s t u : State} (h : Pushed s t) (k : Pushed t u) : Pushed s u :=
  ⟨h.toHanded.trans k.toHanded, fun x hx => (k.levelStay x hx).trans (h.levelStay x hx)⟩

theorem SeqOnly.trans {s t u : State} (h : SeqOnly s t) (k : SeqOnly t u) : SeqOnly s u :=
  ⟨h.toPushed.trans k.toPushed, k.lines_eq.trans h.lines_eq, k.doors_eq.trans h.doors_eq, k.entry_eq.trans h.entry_eq,
    k.posture_eq.trans h.posture_eq⟩

theorem BusOnly.trans {s t u : State} (h : BusOnly s t) (k : BusOnly t u) : BusOnly s u :=
  ⟨h.toSeqOnly.trans k.toSeqOnly, k.seq_eq.trans h.seq_eq⟩

/-! ## The image and what is read from it -/

theorem Handed.img {s t : State} (h : Handed s t) : t.img = s.img := by unfold State.img; rw [h.image]

theorem Handed.role {s t : State} (h : Handed s t) : t.role = s.role := by unfold State.role; rw [h.img]

theorem Handed.address {s t : State} (h : Handed s t) : t.address = s.address := by unfold State.address; rw [h.img]

theorem Handed.area {s t : State} (h : Handed s t) : t.area = s.area := by unfold State.area; rw [h.img]

theorem Handed.running {s t : State} (h : Handed s t) : t.running = s.running := by
  unfold State.running; rw [h.startup]

theorem Handed.peer {s t : State} (h : Handed s t) (a : Nat) : t.peer a = s.peer a := by
  unfold State.peer; rw [h.peers]

theorem Handed.lineCfg {s t : State} (h : Handed s t) (l : Fin 4) : t.lineCfg l = s.lineCfg l := by
  unfold State.lineCfg; rw [h.img]

/-- R28: hand-offs do not change the area occupancy. -/
theorem Handed.areaOccupied {s t : State} (h : Handed s t) : t.areaOccupied = s.areaOccupied := by
  unfold State.areaOccupied State.areaCount State.areaDoubt
  simp only [h.roster, h.img, h.peer]

/-- A line's fields other than its effective alarm level. -/
theorem Handed.line_stage {s t : State} (h : Handed s t) (l : Fin 4) : (t.line l).stage = (s.line l).stage :=
  by simpa [Line.apart] using congrArg Line.stage (h.lines l)

/-! ## Sources -/

theorem setSource_handed (s : State) (x : Source) (y : SourceState) (hm : y.masked = (s.source x).masked)
    (hi : y.inService = (s.source x).inService)
    (hp : x.kind ≠ .level → (s.source x).pending = true → y.pending = true) : Handed s (s.setSource x y) := by
  constructor <;> intros <;> try rfl
  · rw [State.setSource_source]; split
    · next h => subst h; exact hm
    · rfl
  · rw [State.setSource_source]; split
    · next h => subst h; exact hi
    · rfl
  · next z hz hp' =>
    rw [State.setSource_source]; split
    · next h => subst h; exact hp hz hp'
    · exact hp'

/-- R153: an edge source takes a trigger; no other rows of the source table change. -/
theorem raise_only (x : Source) (s : State) (hx : x.kind ≠ .level) : BusOnly s (raise x s) := by
  unfold raise
  split
  · exact BusOnly.refl s
  · refine ⟨⟨⟨setSource_handed s x _ rfl rfl (fun _ _ => rfl), fun y hy => ?_⟩, rfl, rfl, rfl, rfl⟩, rfl⟩
    rw [State.setSource_source, if_neg]
    intro h
    exact hx (h ▸ hy)

theorem raise_pending (x : Source) (s : State) : ((raise x s).source x).pending = true := by
  unfold raise
  split
  · assumption
  · simp

theorem SourceState.take_kept (c : Bool) (n : Nat) (y : SourceState) :
    (y.take c n).masked = y.masked ∧ (y.take c n).inService = y.inService ∧ (y.take c n).condition = c := by
  unfold SourceState.take
  cases c <;> (repeat' split) <;> simp_all

theorem SourceState.follow_condition (c : Bool) (n : Nat) (y : SourceState) : (y.follow c n).condition = c := by
  unfold SourceState.follow
  split
  · next h => exact h.symm
  · exact (y.take_kept c n).2.2

theorem SourceState.follow_follow (c : Bool) (n : Nat) (y : SourceState) : (y.follow c n).follow c n = y.follow c n := by
  show (if c = (y.follow c n).condition then y.follow c n else (y.follow c n).take c n) = y.follow c n
  rw [if_pos (y.follow_condition c n).symm]

theorem takeCondition_handed (x : Source) (c : Bool) (s : State) (hx : x.kind = .level) :
    Handed s (takeCondition x c s) :=
  setSource_handed s x _ ((s.source x).take_kept c _).1 ((s.source x).take_kept c _).2.1 (fun h => absurd hx h)

/-! ## The transmit queue -/

/-- A change of the queue, the next order and the announced fields. -/
theorem setBus_pushed (s : State) (b : Bus) (h1 : b.inFlight = s.bus.inFlight) (h2 : b.abandoned = s.bus.abandoned)
    (h3 : b.quiet = s.bus.quiet) (h4 : b.stuck = s.bus.stuck) (h5 : b.listenOnly = s.bus.listenOnly)
    (h6 : b.firstStatus = s.bus.firstStatus) (h7 : b.statusTimer = s.bus.statusTimer)
    (h8 : b.announcing = s.bus.announcing) (h9 : b.recessive = s.bus.recessive) : BusOnly s (s.setBus b) := by
  refine ⟨⟨⟨?_, fun _ _ => rfl⟩, rfl, rfl, rfl, rfl⟩, rfl⟩
  constructor <;> intros <;> first | rfl | assumption

theorem overrunIf_only (lost : Bool) (s : State) : BusOnly s (overrunIf lost s) := by
  unfold overrunIf
  split
  · exact raise_only _ s (by decide)
  · exact BusOnly.refl s

theorem overrunIf_queue (lost : Bool) (s : State) : (overrunIf lost s).bus = s.bus := by
  unfold overrunIf raise
  split
  · split <;> rfl
  · rfl

theorem enqueue_only (f : Frame) (s : State) : BusOnly s (enqueue f s) := by
  unfold enqueue
  split
  · exact setBus_pushed s _ rfl rfl rfl rfl rfl rfl rfl rfl rfl
  · refine BusOnly.trans ?_ (overrunIf_only _ _)
    exact setBus_pushed s _ rfl rfl rfl rfl rfl rfl rfl rfl rfl

theorem requestStatus_only (s : State) : BusOnly s (requestStatus s) := by
  unfold requestStatus
  split
  · exact enqueue_only _ s
  · exact BusOnly.refl s

theorem askStatus_only (s : State) : BusOnly s (askStatus s) := by
  refine BusOnly.trans ?_ (requestStatus_only _)
  exact setBus_pushed s _ rfl rfl rfl rfl rfl rfl rfl rfl rfl

theorem settleStatus_only (s : State) : BusOnly s (settleStatus s) := by
  unfold settleStatus
  split
  · exact BusOnly.refl s
  · refine BusOnly.trans ?_ (requestStatus_only _)
    exact setBus_pushed s _ rfl rfl rfl rfl rfl rfl rfl rfl rfl

theorem trigger_only (x : Source) (s : State) (hx : x.kind ≠ .level) : BusOnly s (trigger x s) := by
  unfold trigger
  split
  · exact (raise_only x s hx).trans (enqueue_only _ _)
  · exact raise_only x s hx

theorem raise_kind {x : Source} (s t : State) (h : Pushed s t) (hx : x.kind ≠ .level)
    (hp : (s.source x).pending = true) : (t.source x).pending = true := h.raisedStay x hx hp

/-- R153: an edge source that takes a trigger is pending. -/
theorem trigger_pending (x : Source) (s : State) (hx : x.kind ≠ .level) :
    ((trigger x s).source x).pending = true := by
  unfold trigger
  split
  · exact (enqueue_only _ _).raisedStay x hx (raise_pending x s)
  · exact raise_pending x s

/-! ## The Sequencer -/

theorem setSeq_only (s : State) (q : Sequencer) : SeqOnly s (s.setSeq q) := by
  refine ⟨⟨?_, fun _ _ => rfl⟩, rfl, rfl, rfl, rfl⟩
  constructor <;> intros <;> first | rfl | assumption

theorem sendNotice_only (s : State) : SeqOnly s (sendNotice s) :=
  (setSeq_only s _).trans (enqueue_only _ _).toSeqOnly

theorem enterStage_only (st : Stage) (s : State) : SeqOnly s (enterStage st s) :=
  (setSeq_only s _).trans (sendNotice_only _)

theorem confirmFlow_only (s : State) : SeqOnly s (confirmFlow s) := (setSeq_only s _).trans (sendNotice_only _)

theorem energiseValve_only (s : State) : SeqOnly s (energiseValve s) := by
  unfold energiseValve
  have h := (setSeq_only s { s.seq with
      valve := true, valveDelay := none, valvePulse := some (s.now + Config.ms s.img.pv),
      flowWait := some (s.now + Config.sec s.img.tf), flowConfirmed := false }).trans (trigger_only .discharge _ (by decide)).toSeqOnly
  dsimp only
  split
  · exact h.trans (confirmFlow_only _)
  · exact h

theorem enterReleasing_only (s : State) : SeqOnly s (enterReleasing s) := by
  unfold enterReleasing
  dsimp only
  split
  · exact (enterStage_only _ s).trans (energiseValve_only _)
  · exact (enterStage_only _ s).trans (setSeq_only _ _)

theorem enterCountdown_only (r : Nat) (s : State) : SeqOnly s (enterCountdown r s) := by
  unfold enterCountdown
  split
  · exact enterReleasing_only s
  · exact (setSeq_only s _).trans (sendNotice_only _)

theorem enterHeld_only (r : Nat) (s : State) : SeqOnly s (enterHeld r s) :=
  (setSeq_only s _).trans (sendNotice_only _)

theorem startCountdown_only (r : Nat) (s : State) : SeqOnly s (startCountdown r s) := by
  unfold startCountdown
  split
  · exact enterCountdown_only r s
  · exact enterHeld_only r s

theorem coincidenceMet_only (s : State) : SeqOnly s (coincidenceMet s) := by
  unfold coincidenceMet
  split
  · split
    · exact enterStage_only _ s
    · exact startCountdown_only _ s
  · exact SeqOnly.refl s

theorem followList_only (s : State) : SeqOnly s (followList s) := by
  unfold followList
  split
  · exact enterStage_only _ s
  · split
    · exact enterStage_only _ s
    · exact SeqOnly.refl s

theorem listChanged_only (s : State) : SeqOnly s (listChanged s) := by
  unfold listChanged
  split
  · split
    · exact ((setSeq_only s _).trans (coincidenceMet_only _)).trans (followList_only _)
    · exact followList_only s
  · exact SeqOnly.refl s

theorem detect_only (r : Bool) (a : Nat) (l : Fin 4) (g : Group) (s : State) : SeqOnly s (detect r a l g s) := by
  unfold detect
  split
  · exact SeqOnly.refl s
  · split
    · split
      · exact SeqOnly.refl s
      · exact (setSeq_only s _).trans (listChanged_only _)
    · split
      · exact (setSeq_only s _).trans (listChanged_only _)
      · exact SeqOnly.refl s

theorem dropDetection_only (a : Nat) (l : Fin 4) (s : State) : SeqOnly s (dropDetection a l s) := by
  unfold dropDetection
  split
  · exact (setSeq_only s _).trans (listChanged_only _)
  · exact SeqOnly.refl s

theorem withdraw_only (a : Nat) (l : Fin 4) (s : State) : SeqOnly s (withdraw a l s) := by
  unfold withdraw
  split
  · exact SeqOnly.refl s
  · exact dropDetection_only a l s

theorem abortJoin_only (a : Nat) (s : State) : SeqOnly s (abortJoin a s) := by
  unfold abortJoin
  split
  · exact SeqOnly.refl s
  · split
    · dsimp only
      split
      · exact (setSeq_only s _).trans (enterHeld_only _ _)
      · exact setSeq_only s _
    · exact setSeq_only s _

theorem abortLeave_only (a : Nat) (s : State) : SeqOnly s (abortLeave a s) := by
  unfold abortLeave
  dsimp only
  split
  · split
    · split
      · exact (setSeq_only s _).trans (enterCountdown_only _ _)
      · exact setSeq_only s _
    · exact setSeq_only s _
  · exact SeqOnly.refl s

theorem manualRelease_only (s : State) : SeqOnly s (manualRelease s) := by
  unfold manualRelease
  split <;> first
    | exact SeqOnly.refl s
    | exact startCountdown_only _ s
    | (split <;> first | exact SeqOnly.refl s | exact enterCountdown_only _ s | exact enterHeld_only _ s)

/-- R58, R63: a call moves the Sequencer, and what it hands on. -/
theorem actOnCall_only (a : Nat) (call : Byte) (s : State) : SeqOnly s (actOnCall a call s) := by
  unfold actOnCall
  split
  · exact manualRelease_only s
  · exact abortJoin_only a s
  · exact abortLeave_only a s
  · exact SeqOnly.refl s

theorem resetSequence_only (s : State) : SeqOnly s (resetSequence s) :=
  (setSeq_only s _).trans (enterStage_only _ _)

theorem evalOccupancy_only (s : State) : SeqOnly s (evalOccupancy s) := by
  unfold evalOccupancy
  dsimp only
  split
  · exact SeqOnly.refl s
  · split
    · exact (setSeq_only s _).trans (startCountdown_only _ _)
    · exact setSeq_only s _

theorem setMirror_only (m : Mirror) (s : State) : SeqOnly s (setMirror m s) := by
  unfold setMirror
  dsimp only
  split
  · exact (setSeq_only s _).trans (trigger_only _ _ (by decide)).toSeqOnly
  · exact setSeq_only s _

theorem settleCadence_only (s : State) : SeqOnly s (settleCadence s) := by
  unfold settleCadence
  split
  · exact SeqOnly.refl s
  · exact setSeq_only s _

/-! ## Reservations and doors -/

theorem setDoor_pushed (s : State) (d : DoorId) (x : Door) : Pushed s (s.setDoor d x) := by
  cases d <;> refine ⟨?_, fun _ _ => rfl⟩ <;> constructor <;> intros <;> first | rfl | assumption

theorem setDoors_pushed (s : State) (c : DoorCtl) (h : c.counter = s.doors.counter) : Pushed s (s.setDoors c) := by
  refine ⟨?_, fun _ _ => rfl⟩
  constructor <;> intros <;> first | rfl | assumption

theorem setReservation_pushed (s : State) (d : DoorId) (x : Option Reservation) :
    Pushed s (s.setReservation d x) := by
  cases d <;> refine ⟨?_, fun _ _ => rfl⟩ <;> constructor <;> intros <;> first | rfl | assumption

theorem setBroken_pushed (s : State) (d : DoorId) (x : Bool) : Pushed s (s.setBroken d x) := by
  cases d <;> refine ⟨?_, fun _ _ => rfl⟩ <;> constructor <;> intros <;> first | rfl | assumption

theorem breakAt_pushed (d : DoorId) (s : State) : Pushed s (breakAt d s) := by
  unfold breakAt
  split
  · exact (setReservation_pushed s d none).trans (setBroken_pushed _ d true)
  · exact Pushed.refl s

theorem breakAt_seq (d : DoorId) (s : State) :
    (breakAt d s).seq = s.seq ∧ (breakAt d s).doors = s.doors ∧ (breakAt d s).lines = s.lines ∧
      (breakAt d s).posture = s.posture := by
  unfold breakAt
  split <;> simp

theorem breakReservations_pushed (s : State) : Pushed s (breakReservations s) := by
  unfold breakReservations
  split
  · exact ((breakAt_pushed .a s).trans (breakAt_pushed .b _)).trans (trigger_only _ _ (by decide)).toPushed
  · exact Pushed.refl s

/-- R112: breaking reservations leaves the Sequencer, the doors, the lines and the postures alone. -/
theorem breakReservations_rest (s : State) :
    (breakReservations s).seq = s.seq ∧ (breakReservations s).doors = s.doors ∧
      (breakReservations s).lines = s.lines ∧ (breakReservations s).posture = s.posture := by
  unfold breakReservations
  split
  · have h := trigger_only .pairBroken (breakAt .b (breakAt .a s)) (by decide)
    have ha := breakAt_seq .a s
    have hb := breakAt_seq .b (breakAt .a s)
    exact ⟨h.seq_eq.trans (hb.1.trans ha.1), h.doors_eq.trans (hb.2.1.trans ha.2.1),
      h.lines_eq.trans (hb.2.2.1.trans ha.2.2.1), h.posture_eq.trans (hb.2.2.2.trans ha.2.2.2)⟩
  · exact ⟨rfl, rfl, rfl, rfl⟩

/-- R112: no reservation is intact afterwards. -/
theorem breakReservations_none (s : State) (d : DoorId) : (breakReservations s).reservation d = none := by
  unfold breakReservations
  split
  · have h := (trigger_only .pairBroken (breakAt .b (breakAt .a s)) (by decide)).entry_eq
    have : ((breakAt .b (breakAt .a s)).reservation d) = none := by
      unfold breakAt
      cases d <;> (repeat' split) <;> simp_all [State.reservation, State.setReservation, State.setBroken, State.setEntry]
    cases d <;> simpa [State.reservation, h] using this
  · next h => cases d <;> simp_all [State.reservation]

theorem releaseDoor_pushed (d : DoorId) (c : Credit) (s : State) : Pushed s (releaseDoor d c s) :=
  setDoor_pushed s d _

theorem grantRequest_pushed (d : DoorId) (s : State) : Pushed s (grantRequest d s) := by
  unfold grantRequest
  split
  · exact Pushed.refl s
  · exact (setDoor_pushed s d _).trans (releaseDoor_pushed d _ _)

theorem interlockTest_pushed (s : State) : Pushed s (interlockTest s) := by
  unfold interlockTest
  split
  · split
    · exact grantRequest_pushed .b s
    · exact grantRequest_pushed .a s
  · split
    · exact grantRequest_pushed .b s
    · exact Pushed.refl s

theorem secureDoor_pushed (d : DoorId) (s : State) : Pushed s (secureDoor d s) :=
  (setDoor_pushed s d _).trans (interlockTest_pushed _)

theorem lockoutOn_pushed (s : State) : Pushed s (lockoutOn s) := by
  unfold lockoutOn
  dsimp only
  split
  · refine Pushed.trans ?_ (interlockTest_pushed _)
    exact setDoors_pushed s _ rfl
  · exact setDoors_pushed s _ rfl

theorem lockoutOff_pushed (s : State) : Pushed s (lockoutOff s) := setDoors_pushed s _ rfl

theorem settleLockout_pushed (s : State) : Pushed s (settleLockout s) := by
  unfold settleLockout
  split
  · exact Pushed.refl s
  · split
    · exact (lockoutOn_pushed s).trans (breakReservations_pushed _)
    · exact lockoutOff_pushed s

/-! ## One round -/

/-- R154: one level source after its condition was taken. -/
theorem settleCondition_source (s : State) (x : Source) :
    (settleCondition s x).source x = (s.source x).follow (s.levelCondition x) s.presentTime := by
  unfold settleCondition SourceState.follow takeCondition
  split <;> simp

theorem settleCondition_source_ne (s : State) (x y : Source) (h : y ≠ x) :
    (settleCondition s x).source y = s.source y := by
  unfold settleCondition takeCondition
  split <;> simp [h]

/-- R154: taking a condition changes the source table alone. -/
theorem settleCondition_rest (s : State) (x : Source) :
    (settleCondition s x).seq = s.seq ∧ (settleCondition s x).doors = s.doors ∧
      (settleCondition s x).posture = s.posture ∧ (settleCondition s x).entry = s.entry ∧
      (settleCondition s x).lines = s.lines ∧ (settleCondition s x).bus = s.bus := by
  unfold settleCondition takeCondition
  split <;> simp

theorem mem_levels {x : Source} : x ∈ Source.levels ↔ x.kind = .level := by cases x <;> decide

theorem settleCondition_handed (s : State) (x : Source) (hx : x ∈ Source.levels) : Handed s (settleCondition s x) := by
  unfold settleCondition
  split
  · exact Handed.refl s
  · exact takeCondition_handed x _ s (mem_levels.mp hx)

/-- R154: the sources of a list take their conditions, and nothing else changes. -/
theorem settleConditions_foldl (xs : List Source) (h : ∀ x ∈ xs, x ∈ Source.levels) (s : State) :
    Handed s (xs.foldl settleCondition s) ∧ (xs.foldl settleCondition s).seq = s.seq ∧
      (xs.foldl settleCondition s).doors = s.doors ∧ (xs.foldl settleCondition s).posture = s.posture ∧
      (xs.foldl settleCondition s).entry = s.entry ∧ (xs.foldl settleCondition s).bus = s.bus := by
  induction xs generalizing s with
  | nil => exact ⟨Handed.refl s, rfl, rfl, rfl, rfl, rfl⟩
  | cons x xs ih =>
    have k := ih (fun y hy => h y (by simp [hy])) (settleCondition s x)
    have r := settleCondition_rest s x
    exact ⟨(settleCondition_handed s x (h x (by simp))).trans k.1, k.2.1.trans r.1, k.2.2.1.trans r.2.1,
      k.2.2.2.1.trans r.2.2.1, k.2.2.2.2.1.trans r.2.2.2.1, k.2.2.2.2.2.trans r.2.2.2.2.2⟩

theorem settleConditions_rest (s : State) :
    Handed s (settleConditions s) ∧ (settleConditions s).seq = s.seq ∧ (settleConditions s).doors = s.doors ∧
      (settleConditions s).posture = s.posture ∧ (settleConditions s).entry = s.entry ∧
      (settleConditions s).bus = s.bus :=
  settleConditions_foldl _ (fun _ h => h) s

theorem recomputeAlarm_pushed (s : State) (l : Fin 4) : Pushed s (recomputeAlarm s l) := by
  unfold recomputeAlarm
  refine ⟨?_, fun _ _ => rfl⟩
  constructor <;> intros <;> try first | rfl | assumption
  rw [State.setLine_line]
  split
  · next h => subst h; rfl
  · rfl

theorem recomputeAlarm_rest (s : State) (l : Fin 4) :
    (recomputeAlarm s l).seq = s.seq ∧ (recomputeAlarm s l).doors = s.doors ∧ (recomputeAlarm s l).entry = s.entry ∧
      (recomputeAlarm s l).posture = s.posture := ⟨rfl, rfl, rfl, rfl⟩

theorem recomputeAlarms_pushed (s : State) : Pushed s (recomputeAlarms s) :=
  ((((recomputeAlarm_pushed s 0).trans (recomputeAlarm_pushed _ 1)).trans (recomputeAlarm_pushed _ 2)).trans
    (recomputeAlarm_pushed _ 3))

theorem setEffective_pushed (s : State) (p : Posture) :
    Pushed s (s.setPosture { s.posture with effective := p }) := by
  refine ⟨?_, fun _ _ => rfl⟩
  constructor <;> intros <;> first | rfl | assumption

theorem settlePosture_pushed (s : State) : Pushed s (settlePosture s) := by
  unfold settlePosture
  dsimp only
  split
  · exact Pushed.refl s
  · have h := ((setEffective_pushed s s.effectiveNow).trans (recomputeAlarms_pushed _)).trans
      (breakReservations_pushed _)
    split
    · exact h.trans (trigger_only _ _ (by decide)).toPushed
    · exact h

/-- R141: a new effective posture leaves the Sequencer and the doors alone. -/
theorem settlePosture_rest (s : State) :
    (settlePosture s).seq = s.seq ∧ (settlePosture s).doors = s.doors ∧
      (settlePosture s).posture.outputs = s.posture.outputs := by
  unfold settlePosture
  dsimp only
  split
  · exact ⟨rfl, rfl, rfl⟩
  · have h := breakReservations_rest (recomputeAlarms (s.setPosture { s.posture with effective := s.effectiveNow }))
    split
    · have k := trigger_only .occupiedAtClose
        (breakReservations (recomputeAlarms (s.setPosture { s.posture with effective := s.effectiveNow }))) (by decide)
      refine ⟨k.seq_eq.trans h.1, k.doors_eq.trans h.2.1, ?_⟩
      rw [k.posture_eq, h.2.2.2]
      rfl
    · refine ⟨h.1, h.2.1, ?_⟩
      rw [h.2.2.2]
      rfl

theorem compareOutput_forced (n : Nat) (x : OutLine) (b : Bool) : (compareOutput n x b).forced = x.forced := by
  unfold compareOutput
  split <;> rfl

theorem setOutput_pushed (s : State) (l : Fin 12) (x : OutLine) (h : x.forced = (s.output l).forced) :
    Pushed s (s.setOutput l x) := by
  refine ⟨?_, fun _ _ => rfl⟩
  constructor <;> intros <;> try first | rfl | assumption
  rw [State.setOutput_output]
  split
  · next e => subst e; exact h
  · rfl

theorem settleOutput_pushed (s : State) (l : Fin 12) : Pushed s (settleOutput s l) := by
  unfold settleOutput
  split
  · exact Pushed.refl s
  · exact setOutput_pushed s l _ (compareOutput_forced _ _ _)

/-- R145: driving a line leaves everything but the output lines alone. -/
theorem settleOutput_rest (s : State) (l : Fin 12) :
    (settleOutput s l).seq = s.seq ∧ (settleOutput s l).doors = s.doors ∧ (settleOutput s l).entry = s.entry ∧
      (settleOutput s l).lines = s.lines ∧ (settleOutput s l).ann = s.ann ∧ (settleOutput s l).bus = s.bus ∧
      (settleOutput s l).posture.view = s.posture.view ∧
      (settleOutput s l).posture.effective = s.posture.effective := by
  unfold settleOutput
  split <;> exact ⟨rfl, rfl, rfl, rfl, rfl, rfl, rfl, rfl⟩

theorem settleOutputs_foldl (ls : List (Fin 12)) (s : State) :
    Pushed s (ls.foldl settleOutput s) ∧ (ls.foldl settleOutput s).seq = s.seq ∧
      (ls.foldl settleOutput s).doors = s.doors ∧ (ls.foldl settleOutput s).ann = s.ann := by
  induction ls generalizing s with
  | nil => exact ⟨Pushed.refl s, rfl, rfl, rfl⟩
  | cons l ls ih =>
    obtain ⟨a, b, c, d⟩ := ih (settleOutput s l)
    have r := settleOutput_rest s l
    exact ⟨(settleOutput_pushed s l).trans a, b.trans r.1, c.trans r.2.1, d.trans r.2.2.2.2.1⟩

theorem settleOutputs_pushed (s : State) : Pushed s (settleOutputs s) := (settleOutputs_foldl _ s).1

theorem settleRound_handed (s : State) : Handed s (settleRound s) :=
  (((settleConditions_rest s).1.trans (settlePosture_pushed _).toHanded).trans (settleStatus_only _).toHanded).trans
    (settleOutputs_pushed _).toHanded

/-- One round of hand-offs changes neither the Sequencer nor the doors. -/
theorem settleRound_rest (s : State) : (settleRound s).seq = s.seq ∧ (settleRound s).doors = s.doors := by
  have a := settleConditions_rest s
  have b := settlePosture_rest (settleConditions s)
  have c := settleStatus_only (settlePosture (settleConditions s))
  have d := settleOutputs_foldl allOutputs (settleStatus (settlePosture (settleConditions s)))
  exact ⟨d.2.1.trans (c.seq_eq.trans (b.1.trans a.2.1)), d.2.2.1.trans (c.doors_eq.trans (b.2.1.trans a.2.2.1))⟩

theorem settleLoop_handed (n : Nat) (s : State) : Handed s (settleLoop n s) := by
  induction n generalizing s with
  | zero => exact Handed.refl s
  | succ n ih =>
    unfold settleLoop
    split
    · exact Handed.refl s
    · exact (settleRound_handed s).trans (ih _)

/-- The rounds change neither the Sequencer nor the doors. -/
theorem settleLoop_rest (n : Nat) (s : State) : (settleLoop n s).seq = s.seq ∧ (settleLoop n s).doors = s.doors := by
  induction n generalizing s with
  | zero => exact ⟨rfl, rfl⟩
  | succ n ih =>
    unfold settleLoop
    split
    · exact ⟨rfl, rfl⟩
    · have h := ih (settleRound s)
      have r := settleRound_rest s
      exact ⟨h.1.trans r.1, h.2.trans r.2⟩

/-! ## The whole -/

/-- What follows from an event is hand-offs alone. -/
theorem settle_handed (s : State) : Handed s (settle s) := by
  unfold settle
  split
  · exact (((evalOccupancy_only s).toHanded.trans (settleLockout_pushed _).toHanded).trans
      (settleCadence_only _).toHanded).trans (settleLoop_handed _ _)
  · exact Handed.refl s

/-- R62, R70: an own ABORT input that joins again is a hand-off. -/
theorem rejoinAbort_handed (s : State) : Handed s (rejoinAbort s) := by
  unfold rejoinAbort
  split
  · exact (abortJoin_only _ s).toHanded.trans (settle_handed _)
  · exact Handed.refl s

/-- R70: an accepted SUPPRESSION_RESET is hand-offs alone, of the emptied sequence and of the input that joins again. -/
theorem resetAndRejoin_handed (s : State) : Handed s (resetAndRejoin s) :=
  ((resetSequence_only s).toHanded.trans (settle_handed _)).trans (rejoinAbort_handed _)

theorem evalOccupancy_of_agree (s : State) (h : s.role = .noArea ∨ s.areaOccupied = s.seq.occupied) :
    evalOccupancy s = s := by
  unfold evalOccupancy
  rw [if_pos h]

/-- With nothing new for the Sequencer and the doors, they stay as they were, but for the sounder's cadence. -/
theorem settle_of_calm (s : State) (h : s.Calm) :
    (settle s).doors = s.doors ∧
      { (settle s).seq with cadence := s.seq.cadence, pattern := s.seq.pattern, phaseEnd := s.seq.phaseEnd } = s.seq := by
  unfold settle
  split
  · rw [evalOccupancy_of_agree s h.1]
    have hl : settleLockout s = s := by unfold settleLockout; rw [if_pos h.2]
    rw [hl]
    have r := settleLoop_rest settleRounds (settleCadence s)
    have c := settleCadence_only s
    refine ⟨r.2.trans c.doors_eq, ?_⟩
    rw [r.1]
    unfold settleCadence
    split <;> rfl
  · exact ⟨rfl, rfl⟩

/-- Where nothing is left to hand on, nothing changes. -/
theorem settle_of_quiet (s : State) (h : s.Quiet) : settle s = s := by
  unfold settle
  split
  · rw [evalOccupancy_of_agree s h.1.1]
    have hl : settleLockout s = s := by unfold settleLockout; rw [if_pos h.1.2]
    have hc : settleCadence s = s := by unfold settleCadence; rw [if_pos h.2.1]
    rw [hl, hc]
    unfold settleRounds settleLoop
    rw [if_pos h.2.2]
  · rfl

/-! ## The roster, the remote list and credits -/

theorem setDoubt_rest (c : DoubtCause) (s : State) :
    (setDoubt c s).doors = s.doors ∧ (setDoubt c s).seq = s.seq ∧ (setDoubt c s).entry = s.entry ∧
      (setDoubt c s).roster.entries = s.roster.entries ∧ (setDoubt c s).roster.doubtful = true := by
  unfold setDoubt
  split
  · next h => exact ⟨rfl, rfl, rfl, rfl, h⟩
  · exact ⟨rfl, rfl, rfl, rfl, rfl⟩

/-- R90: the answer BUSY or LOCKED leaves the doors as they were. -/
theorem handCredit_refused (d : DoorId) (c : Credit) (s : State)
    (h : (handCredit d c s).1 = .busy ∨ (handCredit d c s).1 = .locked) : (handCredit d c s).2 = s := by
  unfold handCredit at *
  split
  · rfl
  · split
    · rfl
    · split <;> simp_all

end Sys2Proof.Machine
end

