-- ==== Sys2Proof/Laws/Settle.lean ====
section
/-! SUPPORT. What follows at once from an event, hand-off by hand-off: the level sources, the output lines, the
reservations, the Sequencer, the transmit queue and the edge sources; that the rounds come to an end; and the STATUS. -/

namespace Sys2Proof.Machine

/-! ## What follows from an event, all in all -/

theorem apart_fields {q r : Sequencer} (h : q.apart = r.apart) :
    q.stage = r.stage ∧ q.mirror = r.mirror ∧ q.abortSet = r.abortSet ∧ q.list = r.list := by
  exact ⟨by simpa [Sequencer.apart] using congrArg Sequencer.stage h,
    by simpa [Sequencer.apart] using congrArg Sequencer.mirror h,
    by simpa [Sequencer.apart] using congrArg Sequencer.abortSet h,
    by simpa [Sequencer.apart] using congrArg Sequencer.list h⟩

theorem Handed.stage {s t : State} (h : Handed s t) (hs : t.seq.apart = s.seq.apart) : t.stage = s.stage := by
  unfold State.stage
  rw [h.role, (apart_fields hs).1, (apart_fields hs).2.1]

theorem Handed.line_fault {s t : State} (h : Handed s t) (l : Fin 4) : (t.line l).fault = (s.line l).fault :=
  by simpa [Line.apart] using congrArg Line.fault (h.lines l)

theorem Handed.releaseStation {s t : State} (h : Handed s t) : t.releaseStation = s.releaseStation := by
  unfold State.releaseStation
  rw [h.role, h.img]

/-- R154: a condition other than OUTPUT_FAULT depends on nothing that a round of hand-offs changes. -/
theorem Handed.levelCondition {s t : State} (h : Handed s t) (hs : t.seq.apart = s.seq.apart) (hd : t.doors = s.doors)
    {x : Source} (hx : x ≠ .outputFault) : t.levelCondition x = s.levelCondition x := by
  have e := apart_fields hs
  cases x <;> first
    | rfl
    | exact absurd rfl hx
    | simp only [State.levelCondition, h.stage hs, h.role, h.img, h.pins, h.startup, h.peer, h.lineCfg, h.line_stage,
        h.line_fault, h.releaseStation, h.quiet, h.stuck, h.listenOnly, hd, e.2.2.1, e.2.2.2]

theorem Handed.presentTime {s t : State} (h : Handed s t) : t.presentTime = s.presentTime := by
  unfold State.presentTime State.seconds
  rw [h.now, h.loadEnd]

theorem settleConditions_foldl_source (xs : List Source) (h : ∀ x ∈ xs, x ∈ Source.levels) (s : State) (x : Source)
    (hx : x ≠ .outputFault) :
    (xs.foldl settleCondition s).source x =
      if x ∈ xs then (s.source x).follow (s.levelCondition x) s.presentTime else s.source x := by
  induction xs generalizing s with
  | nil => simp
  | cons y ys ih =>
    have hh := settleCondition_handed s y (h y (by simp))
    have hr := settleCondition_rest s y
    have hl : (settleCondition s y).levelCondition x = s.levelCondition x :=
      hh.levelCondition (by rw [hr.1]) hr.2.1 hx
    rw [List.foldl_cons, ih (fun z hz => h z (by simp [hz])), hl, hh.presentTime]
    by_cases hxy : x = y
    · subst hxy
      rw [settleCondition_source]
      simp only [SourceState.follow_follow, List.mem_cons, true_or, if_true, ite_self]
    · rw [settleCondition_source_ne s y x hxy]
      simp [hxy]

/-- R154: one round of hand-offs: a level source has taken its condition. -/
theorem settleRound_source (s : State) (x : Source) (hk : x.kind = .level) (hx : x ≠ .outputFault) :
    (settleRound s).source x = (s.source x).follow (s.levelCondition x) s.presentTime := by
  unfold settleRound
  rw [(settleOutputs_pushed _).levelStay x hk, (settleStatus_only _).levelStay x hk,
    (settlePosture_pushed _).levelStay x hk]
  unfold settleConditions
  rw [settleConditions_foldl_source _ (fun _ h => h) s x hx, if_pos (mem_levels.mpr hk)]

theorem settleLoop_source (n : Nat) (s : State) (x : Source) (hk : x.kind = .level) (hx : x ≠ .outputFault) :
    (settleLoop (n + 1) s).source x = (s.source x).follow (s.levelCondition x) s.presentTime := by
  induction n generalizing s with
  | zero =>
    unfold settleLoop
    split
    · next h => rw [SourceState.follow, if_pos (h.1 x (mem_levels.mpr hk))]
    · exact settleRound_source s x hk hx
  | succ n ih =>
    unfold settleLoop
    split
    · next h => rw [SourceState.follow, if_pos (h.1 x (mem_levels.mpr hk))]
    · have hh := settleRound_handed s
      have hr := settleRound_rest s
      rw [ih, settleRound_source s x hk hx, hh.levelCondition (by rw [hr.1]) hr.2 hx, hh.presentTime,
        SourceState.follow_follow]

/-! ## The output lines -/

/-- R145: what a line is driven by does not depend on how any line is driven. -/
theorem settleOutput_driveLevel (s : State) (l k : Fin 12) : (settleOutput s l).driveLevel k = s.driveLevel k := by
  have hf : (settleOutput s l).followLevel k = s.followLevel k := by unfold settleOutput; split <;> rfl
  unfold State.driveLevel
  rw [hf, (settleOutput_pushed s l).forced k]

theorem settleOutput_driven (s : State) (l k : Fin 12) :
    ((settleOutput s l).output k).driven = if k = l then s.driveLevel l else (s.output k).driven := by
  unfold settleOutput
  split
  · next h =>
    split
    · next e => rw [e, h]
    · rfl
  · rw [State.setOutput_output]
    split
    · unfold compareOutput
      split <;> rfl
    · rfl

theorem settleOutputs_foldl_driven (ls : List (Fin 12)) (s : State) (k : Fin 12) :
    ((ls.foldl settleOutput s).output k).driven = (if k ∈ ls then s.driveLevel k else (s.output k).driven) ∧
      (ls.foldl settleOutput s).driveLevel k = s.driveLevel k := by
  induction ls generalizing s with
  | nil => exact ⟨rfl, rfl⟩
  | cons l ls ih =>
    rw [List.foldl_cons, (ih _).1, (ih _).2, settleOutput_driveLevel, settleOutput_driven]
    by_cases hk : k = l
    · subst hk
      simp
    · simp [hk]

/-- R145: after a round every line is at the level its force or its source gives it. -/
theorem settleRound_lines (s : State) (k : Fin 12) : ((settleRound s).output k).driven = (settleRound s).driveLevel k := by
  have h := settleOutputs_foldl_driven allOutputs (settleStatus (settlePosture (settleConditions s))) k
  have hm : k ∈ allOutputs := by fin_cases k <;> decide
  rw [if_pos hm] at h
  exact h.1.trans h.2.symm

theorem settleLoop_lines (n : Nat) (s : State) (k : Fin 12) :
    ((settleLoop (n + 1) s).output k).driven = (settleLoop (n + 1) s).driveLevel k := by
  have hm : k ∈ allOutputs := by fin_cases k <;> decide
  induction n generalizing s with
  | zero =>
    unfold settleLoop
    split
    · next h => exact (h.2.2.1 k hm).symm
    · exact settleRound_lines s k
  | succ n ih =>
    unfold settleLoop
    split
    · next h => exact (h.2.2.1 k hm).symm
    · exact ih _

/-- Breaks alone have happened to the reservations. -/
def Broke (s t : State) : Prop :=
  ∀ d, (t.reservation d = s.reservation d ∧ t.broken d = s.broken d) ∨
    (t.reservation d = none ∧ t.broken d = true ∧ (s.reservation d).isSome = true)

theorem Broke.of_entry {s t : State} (h : t.entry = s.entry) : Broke s t := by
  intro d
  left
  cases d <;> simp [State.reservation, State.broken, h]

theorem Broke.trans {s t u : State} (h : Broke s t) (k : Broke t u) : Broke s u := by
  intro d
  rcases h d with ⟨a, b⟩ | ⟨a, b, c⟩ <;> rcases k d with ⟨a', b'⟩ | ⟨a', b', c'⟩
  · exact .inl ⟨a'.trans a, b'.trans b⟩
  · exact .inr ⟨a', b', a ▸ c'⟩
  · exact .inr ⟨a'.trans a, b'.trans b, c⟩
  · exact .inr ⟨a', b', c⟩

theorem breakAt_broke (d : DoorId) (s : State) : Broke s (breakAt d s) := by
  intro e
  unfold breakAt
  split
  · next h => cases d <;> cases e <;> simp_all
  · exact .inl ⟨rfl, rfl⟩

/-- R112: breaking the reservations. -/
theorem breakReservations_broke (s : State) : Broke s (breakReservations s) := by
  unfold breakReservations
  split
  · exact ((breakAt_broke .a s).trans (breakAt_broke .b _)).trans
      (Broke.of_entry (trigger_only .pairBroken _ (by decide)).entry_eq)
  · exact Broke.of_entry rfl

theorem recomputeAlarms_entry (s : State) : (recomputeAlarms s).entry = s.entry :=
  ((recomputeAlarm_rest _ 3).2.2.1.trans (recomputeAlarm_rest _ 2).2.2.1).trans
    ((recomputeAlarm_rest _ 1).2.2.1.trans (recomputeAlarm_rest s 0).2.2.1)

theorem settlePosture_broke (s : State) : Broke s (settlePosture s) := by
  unfold settlePosture
  dsimp only
  have h : Broke s (breakReservations (recomputeAlarms (s.setPosture { s.posture with effective := s.effectiveNow }))) :=
    Broke.trans (Broke.of_entry (recomputeAlarms_entry _)) (breakReservations_broke _)
  split
  · exact Broke.of_entry rfl
  · split
    · exact h.trans (Broke.of_entry (trigger_only .occupiedAtClose _ (by decide)).entry_eq)
    · exact h

theorem settleOutputs_foldl_entry (ls : List (Fin 12)) (s : State) : (ls.foldl settleOutput s).entry = s.entry := by
  induction ls generalizing s with
  | nil => rfl
  | cons l ls ih => exact (ih _).trans (settleOutput_rest s l).2.2.1

theorem settleRound_broke (s : State) : Broke s (settleRound s) :=
  (((Broke.of_entry (settleConditions_rest s).2.2.2.2.1).trans (settlePosture_broke _)).trans
    (Broke.of_entry (settleStatus_only _).entry_eq)).trans (Broke.of_entry (settleOutputs_foldl_entry _ _))

theorem settleLoop_broke (n : Nat) (s : State) : Broke s (settleLoop n s) := by
  induction n generalizing s with
  | zero => exact Broke.of_entry rfl
  | succ n ih =>
    unfold settleLoop
    split
    · exact Broke.of_entry rfl
    · exact (settleRound_broke s).trans (ih _)

theorem interlockTest_entry (s : State) : (interlockTest s).entry = s.entry := by
  unfold interlockTest grantRequest releaseDoor
  (repeat' split) <;> simp

theorem lockoutOn_entry (s : State) : (lockoutOn s).entry = s.entry := by
  unfold lockoutOn
  dsimp only
  split
  · rw [interlockTest_entry]; rfl
  · rfl

theorem settleLockout_broke (s : State) : Broke s (settleLockout s) := by
  unfold settleLockout
  split
  · exact Broke.of_entry rfl
  · split
    · exact Broke.trans (Broke.of_entry (lockoutOn_entry s)) (breakReservations_broke _)
    · exact Broke.of_entry rfl

theorem settle_broke (s : State) : Broke s (settle s) := by
  unfold settle
  split
  · exact (((Broke.of_entry (evalOccupancy_only s).entry_eq).trans (settleLockout_broke _)).trans
      (Broke.of_entry (settleCadence_only _).entry_eq)).trans (settleLoop_broke _ _)
  · exact Broke.of_entry rfl

/-! ## The stage a countdown starts in -/

theorem sendNotice_stage (s : State) : (sendNotice s).seq.stage = s.seq.stage := by
  unfold sendNotice
  rw [(enqueue_only _ _).seq_eq]
  rfl

theorem enterStage_stage (st : Stage) (s : State) : (enterStage st s).seq.stage = st := by
  unfold enterStage
  rw [sendNotice_stage]
  rfl

theorem energiseValve_stage (s : State) : (energiseValve s).seq.stage = s.seq.stage := by
  unfold energiseValve confirmFlow
  dsimp only
  split
  · rw [sendNotice_stage, State.setSeq_seq, (trigger_only .discharge _ (by decide)).seq_eq]
    rfl
  · rw [(trigger_only .discharge _ (by decide)).seq_eq]
    rfl

theorem enterReleasing_stage (s : State) : (enterReleasing s).seq.stage = .releasing := by
  unfold enterReleasing
  dsimp only
  split
  · rw [energiseValve_stage, enterStage_stage]
  · rw [State.setSeq_seq, enterStage_stage]

/-- R55, R57: a countdown that starts is COUNTDOWN, HELD, or at once RELEASING. -/
theorem startCountdown_stage (r : Nat) (s : State) : 3 ≤ (startCountdown r s).seq.stage.ordinal := by
  unfold startCountdown enterCountdown enterHeld
  split
  · split
    · rw [enterReleasing_stage]; decide
    · rw [sendNotice_stage]; exact (by decide : 3 ≤ Stage.ordinal .countdown)
  · rw [sendNotice_stage]; exact (by decide : 3 ≤ Stage.ordinal .held)

theorem lockoutStage_release (s : State) (h : s.role = .release) :
    s.lockoutStage = decide (3 ≤ s.seq.stage.ordinal) := by
  unfold State.lockoutStage State.ordinal State.stage
  rw [h]

/-- R28, R56, R75: the area occupancy does not decide whether lockout holds. -/
theorem evalOccupancy_lockoutStage (s : State) : (evalOccupancy s).lockoutStage = s.lockoutStage := by
  unfold evalOccupancy
  dsimp only
  split
  · rfl
  · split
    · next h =>
      have hr : s.role = .release := h.1
      have hi : s.seq.stage = .inhibited := h.2.1
      have key : ∀ (r : Nat) (q : State), q.role = .release → (startCountdown r q).lockoutStage = true := fun r q hq =>
        (lockoutStage_release _ ((startCountdown_only r q).toHanded.role.trans hq)).trans
          (decide_eq_true (startCountdown_stage r q))
      have hs : s.lockoutStage = true := by rw [lockoutStage_release s hr, hi]; decide
      exact (key _ _ h.1).trans hs.symm
    · rfl

/-- R56: where INHIBITED does not end, the evaluation of the area occupancy hands the Sequencer its value alone. -/
theorem evalOccupancy_of_noStart (s : State) (h : s.NoStart) :
    evalOccupancy s = s.setSeq { s.seq with occupied := (evalOccupancy s).seq.occupied } := by
  unfold evalOccupancy
  dsimp only
  split
  · rfl
  · next hn =>
    rw [if_neg]
    · rfl
    · rintro ⟨hr, hi, ho⟩
      have ho : s.areaOccupied = false := ho
      rcases h with h | h | h | h
      · exact h hi
      · exact h hr
      · rw [ho] at h; cases h
      · exact hn (.inr h)

theorem settleLockout_seq (s : State) : (settleLockout s).seq = s.seq := by
  unfold settleLockout
  split
  · rfl
  · split
    · rw [(breakReservations_rest _).1]
      unfold lockoutOn interlockTest grantRequest releaseDoor
      dsimp only
      (repeat' split) <;> simp
    · rfl

theorem settleCadence_apart (s : State) :
    (settleCadence s).seq.apart = s.seq.apart ∧ (settleCadence s).seq.occupied = s.seq.occupied := by
  unfold settleCadence
  split <;> exact ⟨rfl, rfl⟩

/-- Beside the area occupancy and the cadence, the Sequencer is what the occupancy made of it. -/
theorem settle_seq (s : State) (h : s.running = true) :
    (settle s).seq.apart = (evalOccupancy s).seq.apart ∧ (settle s).seq.occupied = (evalOccupancy s).seq.occupied := by
  unfold settle
  rw [if_pos h, (settleLoop_rest _ _).1, (settleCadence_apart _).1, (settleCadence_apart _).2, settleLockout_seq]
  exact ⟨rfl, rfl⟩

theorem settle_of_stopped (s : State) (h : s.running = false) : settle s = s := by
  unfold settle
  rw [h]
  rfl

/-! ## The queue -/

/-- The places a queue takes once its one RELEASE_NOTICE and its one STATUS are in it. -/
def places (q : List QueueEntry) : Nat :=
  q.length + (if q.any (fun e => e.frame.kind == 0) then 0 else 1) + if q.any (fun e => e.frame.kind == 6) then 0 else 1

/-- `x` is the entry `e`, with newer content perhaps. -/
def Kept (e x : QueueEntry) : Prop :=
  x.order = e.order ∧ x.frame.kind = e.frame.kind ∧ (e.frame.supersedes = false → x = e)

theorem Kept.refl (e : QueueEntry) : Kept e e := ⟨rfl, rfl, fun _ => rfl⟩

theorem Kept.trans {e x y : QueueEntry} (h : Kept e x) (k : Kept x y) : Kept e y :=
  ⟨k.1.trans h.1, k.2.1.trans h.2.1, fun hs => by
    have hx := h.2.2 hs
    subst hx
    exact k.2.2 hs⟩

/-- Nothing but a RELEASE_NOTICE and a STATUS has been put into a queue. -/
def Sent (q r : List QueueEntry) : Prop :=
  places q ≤ 6 → places r ≤ 6 ∧ ∀ e ∈ q, ∃ x ∈ r, Kept e x

theorem Sent.refl (q : List QueueEntry) : Sent q q := fun h => ⟨h, fun e he => ⟨e, he, Kept.refl e⟩⟩

theorem Sent.trans {p q r : List QueueEntry} (h : Sent p q) (k : Sent q r) : Sent p r := fun hp =>
  ⟨(k (h hp).1).1, fun e he => by
    obtain ⟨x, hx, h1⟩ := (h hp).2 e he
    obtain ⟨y, hy, h2⟩ := (k (h hp).1).2 x hx
    exact ⟨y, hy, h1.trans h2⟩⟩

theorem Sent.of_eq {q r : List QueueEntry} (h : r = q) : Sent q r := h ▸ Sent.refl q

/-- Nothing but frames of one kind, a RELEASE_NOTICE's or a STATUS's, has been put into a queue. -/
structure Told (k : Nat) (q r : List QueueEntry) : Prop where
  sent : Sent q r
  stay : places q ≤ 6 → ∀ e ∈ q, e.frame.kind ≠ k → e ∈ r
  noMore : ∀ e ∈ r, e.frame.kind ≠ k → e ∈ q

theorem Told.refl (k : Nat) (q : List QueueEntry) : Told k q q := ⟨Sent.refl q, fun _ _ he _ => he, fun _ he _ => he⟩

theorem Told.trans {k : Nat} {p q r : List QueueEntry} (h : Told k p q) (g : Told k q r) : Told k p r :=
  ⟨h.sent.trans g.sent, fun hp e he hk => g.stay (h.sent hp).1 e (h.stay hp e he hk) hk,
    fun e he hk => h.noMore e (g.noMore e he hk) hk⟩

theorem Told.of_eq {k : Nat} {q r : List QueueEntry} (h : r = q) : Told k q r := h ▸ Told.refl k q

theorem placeEntry_perm (e : QueueEntry) (q : List QueueEntry) : (placeEntry e q).Perm (e :: q) := by
  induction q with
  | nil => exact List.Perm.refl _
  | cons f q ih =>
    unfold placeEntry
    split
    · exact List.Perm.refl _
    · exact (ih.cons f).trans (List.Perm.swap e f q)

theorem supersede_kinds (f : Frame) (q : List QueueEntry) :
    (supersede f q).map (fun e => e.frame.kind) = q.map (fun e => e.frame.kind) := by
  induction q with
  | nil => rfl
  | cons e q ih =>
    unfold supersede
    split
    · next h => simp only [List.map_cons, List.cons.injEq, and_true]; exact (eq_of_beq h).symm
    · simp [ih]

theorem supersede_kept (f : Frame) (hf : f.supersedes = true) (q : List QueueEntry) (e : QueueEntry) (he : e ∈ q) :
    ∃ x ∈ supersede f q, Kept e x := by
  induction q with
  | nil => cases he
  | cons y q ih =>
    unfold supersede
    split
    · next h =>
      rcases List.mem_cons.mp he with rfl | he
      · refine ⟨_, List.mem_cons_self, rfl, (eq_of_beq h).symm, fun hs => ?_⟩
        have hk : e.frame.kind = f.kind := eq_of_beq h
        unfold Frame.supersedes at hf hs
        rw [hk, hf] at hs
        cases hs
      · exact ⟨e, List.mem_cons_of_mem _ he, Kept.refl e⟩
    · rcases List.mem_cons.mp he with rfl | he
      · exact ⟨e, List.mem_cons_self, Kept.refl e⟩
      · obtain ⟨x, hx, hk⟩ := ih he
        exact ⟨x, List.mem_cons_of_mem _ hx, hk⟩

/-- R173: no other kind's entry changes. -/
theorem supersede_others (f : Frame) (q : List QueueEntry) (e : QueueEntry) (he : e ∈ q) (hk : e.frame.kind ≠ f.kind) :
    e ∈ supersede f q := by
  induction q with
  | nil => cases he
  | cons y q ih =>
    unfold supersede
    split
    · next h =>
      rcases List.mem_cons.mp he with rfl | he
      · exact absurd (eq_of_beq h) hk
      · exact List.mem_cons_of_mem _ he
    · rcases List.mem_cons.mp he with rfl | he
      · exact List.mem_cons_self
      · exact List.mem_cons_of_mem _ (ih he)

/-- R173: what is not of its kind was there before. -/
theorem supersede_noMore (f : Frame) (q : List QueueEntry) (e : QueueEntry) (he : e ∈ supersede f q)
    (hk : e.frame.kind ≠ f.kind) : e ∈ q := by
  induction q with
  | nil => cases he
  | cons y q ih =>
    unfold supersede at he
    split at he
    · rcases List.mem_cons.mp he with rfl | he
      · exact absurd rfl hk
      · exact List.mem_cons_of_mem _ he
    · rcases List.mem_cons.mp he with rfl | he
      · exact List.mem_cons_self
      · exact List.mem_cons_of_mem _ (ih he)

/-- R173: a place holds the new entry or one that was there. -/
theorem makePlace_mem (x : QueueEntry) (q : List QueueEntry) (e : QueueEntry) (he : e ∈ (makePlace x q).1) :
    e = x ∨ e ∈ q := by
  have hd : ∀ p : List QueueEntry, p ⊆ q → e ∈ placeEntry x p → e = x ∨ e ∈ q := by
    intro p hp h
    rcases List.mem_cons.mp ((placeEntry_perm x p).mem_iff.mp h) with h | h
    · exact .inl h
    · exact .inr (hp h)
  unfold makePlace at he
  split at he
  · exact hd q (fun _ h => h) he
  · split at he
    · exact .inr he
    · split at he
      · exact hd q.dropLast (List.dropLast_subset q) he
      · exact .inr he

/-- R173: the newer content is there. -/
theorem supersede_has (f : Frame) (q : List QueueEntry) (h : q.any (fun e => e.frame.kind == f.kind) = true) :
    ∃ e ∈ supersede f q, e.frame = f := by
  induction q with
  | nil => cases h
  | cons y q ih =>
    unfold supersede
    split
    · exact ⟨_, List.mem_cons_self, rfl⟩
    · next hy =>
      obtain ⟨e, he, hf⟩ := ih (by simpa [hy] using h)
      exact ⟨e, List.mem_cons_of_mem _ he, hf⟩

theorem any_kind_map (k : Nat) (q : List QueueEntry) :
    q.any (fun e => e.frame.kind == k) = (q.map (fun e => e.frame.kind)).any (· == k) := by
  induction q <;> simp_all

theorem places_supersede (f : Frame) (q : List QueueEntry) : places (supersede f q) = places q := by
  have h := supersede_kinds f q
  have hl : (supersede f q).length = q.length := by simpa using congrArg List.length h
  unfold places
  rw [any_kind_map, any_kind_map 6, h, hl, ← any_kind_map, ← any_kind_map]

theorem places_place (e : QueueEntry) (q : List QueueEntry) (hk : e.frame.kind = 0 ∨ e.frame.kind = 6)
    (hn : q.any (fun x => x.frame.kind == e.frame.kind) = false) : places (placeEntry e q) = places q := by
  have hp := placeEntry_perm e q
  have ha : ∀ k, (placeEntry e q).any (fun x => x.frame.kind == k) = (e :: q).any (fun x => x.frame.kind == k) :=
    fun k => hp.any_eq
  unfold places
  rw [ha, ha, hp.length_eq]
  rcases hk with hk | hk <;> rw [hk] at hn <;> simp only [List.any_cons, hk, hn, List.length_cons] <;> simp
  omega

/-- R173: a RELEASE_NOTICE or a STATUS handed to a queue with a place for it is there, and nothing else of the queue
changes. -/
theorem enqueue_told (f : Frame) (s : State) (hf : f.kind = 0 ∨ f.kind = 6) :
    Told f.kind s.bus.queue (enqueue f s).bus.queue ∧
      (places s.bus.queue ≤ 6 → ∃ e ∈ (enqueue f s).bus.queue, e.frame = f) := by
  have hs : f.supersedes = true := by unfold Frame.supersedes; rcases hf with h | h <;> simp [h]
  unfold enqueue
  rw [hs, Bool.true_and]
  split
  · next ha =>
    exact ⟨⟨fun hp => ⟨by simpa [places_supersede] using hp, fun e he => supersede_kept f hs _ e he⟩,
      fun _ e he hk => supersede_others f _ e he hk, fun e he hk => supersede_noMore f _ e he hk⟩,
      fun _ => supersede_has f _ ha⟩
  · next ha =>
    have ha' : s.bus.queue.any (fun e => e.frame.kind == f.kind) = false := by simpa using ha
    have hlt : places s.bus.queue ≤ 6 → s.bus.queue.length < Config.queueSize := by
      intro hp
      unfold places at hp
      unfold Config.queueSize
      rcases hf with h | h <;> rw [h] at ha' <;> rw [ha'] at hp <;> simp at hp <;> omega
    have hq : places s.bus.queue ≤ 6 → ∀ e, e ∈ (makePlace { frame := f, order := s.bus.nextOrder } s.bus.queue).1 ↔
        e = { frame := f, order := s.bus.nextOrder } ∨ e ∈ s.bus.queue := by
      intro hp e
      simp only [makePlace, hlt hp, if_true]
      rw [(placeEntry_perm _ _).mem_iff, List.mem_cons]
    dsimp only
    rw [overrunIf_queue]
    simp only [State.setBus_bus]
    refine ⟨⟨fun hp => ⟨?_, fun e he => ⟨e, (hq hp e).mpr (.inr he), Kept.refl e⟩⟩,
      fun hp e he _ => (hq hp e).mpr (.inr he), fun e he hk => ?_⟩, fun hp => ⟨_, (hq hp _).mpr (.inl rfl), rfl⟩⟩
    · simp only [makePlace, hlt hp, if_true]
      rw [places_place _ _ hf (by simpa using ha')]
      exact hp
    · rcases makePlace_mem _ _ e he with h | h
      · exact absurd (by rw [h]) hk
      · exact h

theorem raise_bus (x : Source) (s : State) : (raise x s).bus = s.bus := by
  unfold raise
  split <;> simp

theorem trigger_bus (x : Source) (s : State) (h1 : x ≠ .duress1) (h2 : x ≠ .duress2) :
    (trigger x s).bus = s.bus := by
  unfold trigger
  rw [if_neg (by simp [h1, h2])]
  exact raise_bus x s

theorem sendNotice_told (s : State) : Told 0 s.bus.queue (sendNotice s).bus.queue :=
  (enqueue_told (noticeFrame s) (s.setSeq { s.seq with
      notice := if s.seq.stage.noticed then some (s.now + Config.noticeTime) else none }) (.inl rfl)).1

theorem sendNotice_setSeq_told (s : State) (q : Sequencer) : Told 0 s.bus.queue (sendNotice (s.setSeq q)).bus.queue :=
  sendNotice_told (s.setSeq q)

theorem enterStage_told (st : Stage) (s : State) : Told 0 s.bus.queue (enterStage st s).bus.queue :=
  sendNotice_told (s.setSeq { s.seq with stage := st, countdown := none, frozen := 0 })

theorem confirmFlow_told (s : State) : Told 0 s.bus.queue (confirmFlow s).bus.queue :=
  sendNotice_told (s.setSeq { s.seq with flowConfirmed := true, flowWait := none })

theorem energiseValve_told (s : State) : Told 0 s.bus.queue (energiseValve s).bus.queue := by
  unfold energiseValve
  dsimp only
  split
  · refine (Told.of_eq ?_).trans (confirmFlow_told _)
    rw [trigger_bus _ _ (by decide) (by decide)]
    rfl
  · rw [trigger_bus _ _ (by decide) (by decide)]
    exact Told.refl 0 _

theorem enterReleasing_told (s : State) : Told 0 s.bus.queue (enterReleasing s).bus.queue := by
  unfold enterReleasing
  dsimp only
  split
  · exact (enterStage_told _ s).trans (energiseValve_told _)
  · exact enterStage_told _ s

theorem startCountdown_told (r : Nat) (s : State) : Told 0 s.bus.queue (startCountdown r s).bus.queue := by
  unfold startCountdown enterCountdown enterHeld
  split
  · split
    · exact enterReleasing_told s
    · exact sendNotice_setSeq_told s _
  · exact sendNotice_setSeq_told s _

theorem startCountdown_setSeq_told (r : Nat) (s : State) (q : Sequencer) :
    Told 0 s.bus.queue (startCountdown r (s.setSeq q)).bus.queue := startCountdown_told r (s.setSeq q)

theorem evalOccupancy_told (s : State) : Told 0 s.bus.queue (evalOccupancy s).bus.queue := by
  unfold evalOccupancy
  dsimp only
  split
  · exact Told.refl 0 _
  · split
    · exact startCountdown_setSeq_told _ s _
    · exact Told.refl 0 _

theorem breakAt_bus (d : DoorId) (s : State) : (breakAt d s).bus = s.bus := by
  unfold breakAt
  split <;> simp

theorem breakReservations_bus (s : State) : (breakReservations s).bus = s.bus := by
  unfold breakReservations
  split
  · rw [trigger_bus _ _ (by decide) (by decide), breakAt_bus, breakAt_bus]
  · rfl

theorem interlockTest_bus (s : State) : (interlockTest s).bus = s.bus := by
  unfold interlockTest grantRequest releaseDoor
  (repeat' split) <;> simp

theorem settleLockout_bus (s : State) : (settleLockout s).bus = s.bus := by
  unfold settleLockout
  split
  · rfl
  · split
    · rw [breakReservations_bus]
      unfold lockoutOn
      dsimp only
      split
      · rw [interlockTest_bus]; rfl
      · rfl
    · rfl

theorem settleCadence_bus (s : State) : (settleCadence s).bus = s.bus := by
  unfold settleCadence
  split <;> rfl

theorem settlePosture_bus (s : State) : (settlePosture s).bus = s.bus := by
  unfold settlePosture
  dsimp only
  have h : ∀ u : State, (recomputeAlarms u).bus = u.bus := fun _ => rfl
  split
  · rfl
  · split
    · rw [trigger_bus _ _ (by decide) (by decide), breakReservations_bus, h]; rfl
    · rw [breakReservations_bus, h]; rfl

theorem settleOutputs_foldl_bus (ls : List (Fin 12)) (s : State) : (ls.foldl settleOutput s).bus = s.bus := by
  induction ls generalizing s with
  | nil => rfl
  | cons l ls ih => exact (ih _).trans (settleOutput_rest s l).2.2.2.2.2.1

theorem settleStatus_told (s : State) : Told 6 s.bus.queue (settleStatus s).bus.queue := by
  unfold settleStatus requestStatus
  split
  · exact Told.refl 6 _
  · split
    · exact (enqueue_told (.status (s.setBus { s.bus with announced := s.announcement }).announcement)
        (s.setBus { s.bus with announced := s.announcement }) (.inr rfl)).1
    · exact Told.refl 6 _

theorem settleRound_bus (s : State) : (settleRound s).bus = (settleStatus (settlePosture (settleConditions s))).bus := by
  unfold settleRound settleOutputs
  exact settleOutputs_foldl_bus _ _

theorem settleRound_told (s : State) : Told 6 s.bus.queue (settleRound s).bus.queue := by
  rw [settleRound_bus]
  refine (Told.of_eq ?_).trans (settleStatus_told _)
  rw [settlePosture_bus, (settleConditions_rest s).2.2.2.2.2]

theorem settleLoop_told (n : Nat) (s : State) : Told 6 s.bus.queue (settleLoop n s).bus.queue := by
  induction n generalizing s with
  | zero => exact Told.refl 6 _
  | succ n ih =>
    unfold settleLoop
    split
    · exact Told.refl 6 _
    · exact (settleRound_told s).trans (ih _)

/-- The state as the rounds of hand-offs find it. -/
def entered (s : State) : State := settleCadence (settleLockout (evalOccupancy s))

theorem entered_bus (s : State) : (entered s).bus = (evalOccupancy s).bus := by
  unfold entered
  rw [settleCadence_bus, settleLockout_bus]

theorem entered_told (s : State) : Told 0 s.bus.queue (entered s).bus.queue := by
  rw [entered_bus]
  exact evalOccupancy_told s

theorem settle_sent (s : State) : Sent s.bus.queue (settle s).bus.queue := by
  unfold settle
  split
  · exact (entered_told s).sent.trans (settleLoop_told settleRounds (entered s)).sent
  · exact Sent.refl _

/-! ## The rounds come to an end -/

/-- R147: an output line is marked as a fault. -/
def State.marked (s : State) : Bool := s.posture.outputs.toList.any OutLine.mark

theorem State.marked_iff (s : State) : s.marked = true ↔ ∃ l, (s.output l).mark = true := by
  simp only [State.marked, State.output, List.any_eq_true, Vector.mem_toList_iff, Vector.mem_iff_getElem]
  constructor
  · rintro ⟨x, ⟨i, hi, rfl⟩, hx⟩
    exact ⟨⟨i, hi⟩, hx⟩
  · rintro ⟨l, hl⟩
    exact ⟨_, ⟨l.val, l.isLt, rfl⟩, hl⟩

/-- R147: driving a line can end a fault, and no more. -/
theorem settleOutput_mark (s : State) (l k : Fin 12) (h : ((settleOutput s l).output k).mark = true) :
    (s.output k).mark = true := by
  unfold settleOutput at h
  split at h
  · exact h
  · rw [State.setOutput_output] at h
    split at h
    · next e =>
      subst e
      unfold compareOutput at h
      split at h
      · cases h
      · exact h
    · exact h

theorem settleOutputs_foldl_mark (ls : List (Fin 12)) (s : State) (k : Fin 12)
    (h : ((ls.foldl settleOutput s).output k).mark = true) : (s.output k).mark = true := by
  induction ls generalizing s with
  | nil => exact h
  | cons l ls ih => exact settleOutput_mark s l k (ih _ h)

/-- What is active stays so through hand-offs, a level source apart. -/
theorem Handed.isActive {s t : State} (h : Handed s t) {x : Source} (hx : x.kind ≠ .level)
    (ha : s.isActive x = true) : t.isActive x = true := by
  unfold State.isActive State.isPending State.isInService at *
  rw [h.remote, h.inService x]
  split at ha
  · next e => rw [if_pos e, if_pos e]; exact ha
  · next e =>
    rw [if_neg e, if_neg e]
    rcases Bool.or_eq_true_iff.mp ha with hp | hi
    · rw [h.raisedStay x hx hp]; rfl
    · rw [hi, Bool.or_true]

theorem isActive_of_source {s t : State} (hr : t.ann.remote = s.ann.remote) {x : Source} (h : t.source x = s.source x) :
    t.isActive x = s.isActive x := by
  unfold State.isActive State.isPending State.isInService
  rw [hr, h]

theorem raise_source_ne (x y : Source) (s : State) (h : y ≠ x) : (raise x s).source y = s.source y := by
  unfold raise
  split
  · rfl
  · rw [State.setSource_source, if_neg h]

theorem overrunIf_source (b : Bool) (s : State) (y : Source) (h : y ≠ .transmitOverrun) :
    (overrunIf b s).source y = s.source y := by
  unfold overrunIf
  split
  · exact raise_source_ne _ y s h
  · rfl

theorem enqueue_source (f : Frame) (s : State) (y : Source) (h : y ≠ .transmitOverrun) :
    (enqueue f s).source y = s.source y := by
  unfold enqueue
  split
  · rfl
  · exact overrunIf_source _ _ y h

theorem trigger_source_ne (x y : Source) (s : State) (h1 : x ≠ .duress1) (h2 : x ≠ .duress2) (h : y ≠ x) :
    (trigger x s).source y = s.source y := by
  unfold trigger
  rw [if_neg (by simp [h1, h2])]
  exact raise_source_ne x y s h

theorem breakAt_ann (d : DoorId) (s : State) : (breakAt d s).ann = s.ann := by
  unfold breakAt
  split <;> simp

theorem breakReservations_source (s : State) (y : Source) (h : y ≠ .pairBroken) :
    (breakReservations s).source y = s.source y := by
  unfold breakReservations
  split
  · rw [trigger_source_ne _ _ _ (by decide) (by decide) h]
    unfold State.source
    rw [breakAt_ann, breakAt_ann]
  · rfl

theorem settlePosture_source (s : State) (y : Source) (h : y ≠ .pairBroken) (k : y ≠ .occupiedAtClose) :
    (settlePosture s).source y = s.source y := by
  unfold settlePosture
  dsimp only
  split
  · rfl
  · have e : (breakReservations (recomputeAlarms (s.setPosture { s.posture with effective := s.effectiveNow }))).source y =
        s.source y := breakReservations_source _ y h
    split
    · rw [trigger_source_ne _ _ _ (by decide) (by decide) k, e]
    · exact e

theorem settleStatus_source (s : State) (y : Source) (h : y ≠ .transmitOverrun) :
    (settleStatus s).source y = s.source y := by
  unfold settleStatus requestStatus
  split
  · rfl
  · split
    · exact enqueue_source _ _ y h
    · rfl

theorem settleConditions_foldl_edge (xs : List Source) (s : State) (y : Source) (h : y ∉ xs) :
    (xs.foldl settleCondition s).source y = s.source y := by
  induction xs generalizing s with
  | nil => rfl
  | cons x xs ih =>
    rw [List.foldl_cons, ih _ (fun k => h (by simp [k])), settleCondition_source_ne s x y (fun k => h (by simp [k]))]

/-- The edge sources that a round can raise. -/
def roundEdges : List Source := [.pairBroken, .occupiedAtClose, .transmitOverrun]

/-- How many changes of a source a round can still make beyond the conditions: a fault that ends, and a first trigger. -/
def spare (s : State) : Nat := s.marked.toNat + roundEdges.countP (fun x => !s.isActive x)

theorem effectiveNow_congr {s t : State} (h : Handed s t) (ha : ∀ x, t.isActive x = s.isActive x) :
    t.effectiveNow = s.effectiveNow := by
  have hi : t.inScope = s.inScope := funext fun e => by simp only [State.inScope, State.isMember, h.img]
  have hl : t.lockdownFlag = s.lockdownFlag := funext fun x => by unfold State.lockdownFlag; rw [h.image]
  have ho : t.overlay = s.overlay := by
    simp only [State.overlay, State.localRequest, hl, ha, hi, h.remote]
  unfold State.effectiveNow
  rw [ho, h.view]

theorem announcement_congr {s t : State} (h : Handed s t) (hs : t.seq = s.seq) (ha : ∀ x, t.isActive x = s.isActive x) :
    t.announcement = s.announcement := by
  simp only [State.announcement, h.role, h.area, h.view, h.stage (congrArg Sequencer.apart hs), h.roster, State.alarmMask,
    State.groupMask, h.line_stage, h.lineCfg, State.abortHeldFlag, h.pins, State.duressActive, State.alarmLevel, ha,
    h.masked, h.img, h.outcome]

theorem settlePosture_effective (s : State) : (settlePosture s).posture.effective = s.effectiveNow := by
  unfold settlePosture
  dsimp only
  split
  · next h => exact h.symm
  · have h : (breakReservations (recomputeAlarms (s.setPosture { s.posture with effective := s.effectiveNow }))).posture.effective =
        s.effectiveNow := by rw [(breakReservations_rest _).2.2.2]; rfl
    split
    · rw [(trigger_only .occupiedAtClose _ (by decide)).posture_eq, h]
    · exact h

theorem enqueue_announced (f : Frame) (s : State) : (enqueue f s).bus.announced = s.bus.announced := by
  unfold enqueue
  split
  · rfl
  · dsimp only
    rw [overrunIf_queue]
    rfl

theorem settleStatus_announced (s : State) : (settleStatus s).bus.announced = s.announcement := by
  unfold settleStatus requestStatus
  split
  · next h => exact ((Announcement.same_iff _ _).mp h).symm
  · split
    · rw [enqueue_announced]; rfl
    · rfl

theorem settleOutputs_foldl_effective (ls : List (Fin 12)) (s : State) :
    (ls.foldl settleOutput s).posture.effective = s.posture.effective := by
  induction ls generalizing s with
  | nil => rfl
  | cons l ls ih => exact (ih _).trans (settleOutput_rest s l).2.2.2.2.2.2.2

/-- A round ends no more than faults, and raises no more than its three edge sources. -/
theorem settleRound_spare (s : State) : spare (settleRound s) ≤ spare s ∧
    (spare (settleRound s) = spare s → (settleRound s).marked = s.marked ∧
      ∀ x ∈ roundEdges, (settleRound s).isActive x = s.isActive x) := by
  have hh := settleRound_handed s
  have hm : (settleRound s).marked = true → s.marked = true := by
    rw [State.marked_iff, State.marked_iff]
    rintro ⟨l, hl⟩
    refine ⟨l, ?_⟩
    have h1 := settleOutputs_foldl_mark _ _ l hl
    have h2 : (settleStatus (settlePosture (settleConditions s))).posture.outputs = s.posture.outputs :=
      (congrArg PostureUnit.outputs (settleStatus_only _).posture_eq).trans
        ((settlePosture_rest _).2.2.trans (congrArg PostureUnit.outputs (settleConditions_rest s).2.2.2.1))
    have h3 : (settleStatus (settlePosture (settleConditions s))).output l = s.output l :=
      congrArg (fun v : Vector OutLine 12 => v[l]) h2
    rw [← h3]
    exact h1
  have h1 := hh.isActive (x := .pairBroken) (by decide)
  have h2 := hh.isActive (x := .occupiedAtClose) (by decide)
  have h3 := hh.isActive (x := .transmitOverrun) (by decide)
  have up : ∀ a b : Bool, (a = true → b = true) → a.toNat ≤ b.toNat ∧ (a.toNat = b.toNat → a = b) := by decide
  have down : ∀ a b : Bool, (a = true → b = true) → (!b).toNat ≤ (!a).toNat ∧ ((!b).toNat = (!a).toNat → b = a) := by
    decide
  have one : ∀ b : Bool, (if b = true then 1 else 0) = b.toNat := by decide
  have count : ∀ u : State, spare u = u.marked.toNat + ((!u.isActive .pairBroken).toNat +
      (!u.isActive .occupiedAtClose).toNat + (!u.isActive .transmitOverrun).toNat) := by
    intro u
    simp only [spare, roundEdges, List.countP_cons, List.countP_nil, one]
    omega
  have a0 := up _ _ hm
  have a1 := down _ _ h1
  have a2 := down _ _ h2
  have a3 := down _ _ h3
  rw [count, count]
  refine ⟨by omega, fun e => ⟨a0.2 (by omega), fun x hx => ?_⟩⟩
  simp only [roundEdges, List.mem_cons, List.not_mem_nil, or_false] at hx
  rcases hx with rfl | rfl | rfl
  · exact a1.2 (by omega)
  · exact a2.2 (by omega)
  · exact a3.2 (by omega)

/-- A round that ends no fault and raises nothing leaves nothing to hand on. -/
theorem settleRound_settled (s : State) (h : spare (settleRound s) = spare s) : (settleRound s).Settled := by
  obtain ⟨hm, ha⟩ := (settleRound_spare s).2 h
  have hc := (settleConditions_rest s).1
  have hp := settlePosture_pushed (settleConditions s)
  have hq := settleStatus_only (settlePosture (settleConditions s))
  have hr := settleOutputs_pushed (settleStatus (settlePosture (settleConditions s)))
  have hpr : Pushed (settlePosture (settleConditions s)) (settleRound s) := hq.toPushed.trans hr
  have hcr : Pushed (settleConditions s) (settleRound s) := hp.trans hpr
  have hann : (settleRound s).ann = (settleStatus (settlePosture (settleConditions s))).ann := by
    unfold settleRound settleOutputs
    exact (settleOutputs_foldl allOutputs _).2.2.2
  -- no source that an overlay or an alarm level reads changes after the conditions
  have edge : ∀ x, x.kind ≠ .level → (settleConditions s).isActive x = s.isActive x := fun x hx =>
    isActive_of_source hc.remote (settleConditions_foldl_edge Source.levels s x (fun k => hx (mem_levels.mp k)))
  have squeeze : ∀ a b c : Bool, (a = true → b = true) → (b = true → c = true) → c = a → b = a ∧ c = b := by decide
  have act : ∀ x, (settlePosture (settleConditions s)).isActive x = (settleConditions s).isActive x ∧
      (settleRound s).isActive x = (settlePosture (settleConditions s)).isActive x := by
    intro x
    by_cases hl : x.kind = .level
    · exact ⟨isActive_of_source hp.remote (hp.levelStay x hl), isActive_of_source hpr.remote (hpr.levelStay x hl)⟩
    · by_cases he : x ∈ roundEdges
      · exact squeeze _ _ _ (hp.toHanded.isActive hl) (hpr.toHanded.isActive hl) ((ha x he).trans (edge x hl).symm)
      · simp only [roundEdges, List.mem_cons, List.not_mem_nil, or_false, not_or] at he
        refine ⟨isActive_of_source hp.remote (settlePosture_source _ x he.1 he.2.1), isActive_of_source hpr.remote ?_⟩
        have : (settleRound s).source x = (settleStatus (settlePosture (settleConditions s))).source x := by
          unfold State.source; rw [hann]
        rw [this, settleStatus_source _ x he.2.2]
  refine ⟨?_, ?_, ?_, ?_⟩
  · intro x hx
    have hk := mem_levels.mp hx
    have hrest := settleRound_rest s
    by_cases ho : x = .outputFault
    · subst ho
      have h1 : (settleRound s).source .outputFault = (settleConditions s).source .outputFault := hcr.levelStay _ hk
      have h2 : ((settleConditions s).source .outputFault).condition = s.levelCondition .outputFault := by
        unfold settleConditions
        have gen : ∀ (xs : List Source) (u : State), (∀ y ∈ xs, y ∈ Source.levels) → Source.outputFault ∈ xs →
            ((xs.foldl settleCondition u).source .outputFault).condition = u.marked := by
          intro xs
          induction xs with
          | nil => intro u _ hmem; cases hmem
          | cons y ys ih =>
            intro u hsub hmem
            have hmk : (settleCondition u y).marked = u.marked := by
              unfold State.marked; rw [(settleCondition_rest u y).2.2.1]
            by_cases hin : Source.outputFault ∈ ys
            · rw [List.foldl_cons, ih _ (fun z hz => hsub z (by simp [hz])) hin, hmk]
            · have hy : y = .outputFault := by
                rcases List.mem_cons.mp hmem with e | e
                · exact e.symm
                · exact absurd e hin
              subst hy
              rw [List.foldl_cons, settleConditions_foldl_edge _ _ _ hin, settleCondition_source,
                SourceState.follow_condition]
              rfl
        exact gen _ s (fun _ h => h) hx
      rw [h1, h2]
      exact hm
    · have e := settleRound_source s x hk ho
      rw [e, SourceState.follow_condition]
      exact (settleRound_handed s).levelCondition (congrArg Sequencer.apart hrest.1) hrest.2 ho
  · have e : (settleRound s).posture.effective = (settleConditions s).effectiveNow := by
      unfold settleRound settleOutputs
      rw [settleOutputs_foldl_effective, hq.posture_eq, settlePosture_effective]
    rw [e]
    exact effectiveNow_congr hcr.toHanded (fun x => (act x).2.trans (act x).1)
  · intro l _
    exact (settleRound_lines s l).symm
  · rw [Announcement.same_iff]
    have hs : (settleRound s).seq = (settlePosture (settleConditions s)).seq :=
      (settleOutputs_foldl allOutputs (settleStatus (settlePosture (settleConditions s)))).2.1.trans hq.seq_eq
    have e : (settleRound s).bus.announced = (settlePosture (settleConditions s)).announcement := by
      unfold settleRound settleOutputs
      rw [settleOutputs_foldl_bus, settleStatus_announced]
    rw [e]
    exact announcement_congr hpr.toHanded hs (fun x => (act x).2)

theorem settleLoop_of_settled (n : Nat) (s : State) (h : s.Settled) : settleLoop n s = s := by
  cases n with
  | zero => rfl
  | succ n => unfold settleLoop; rw [if_pos h]

theorem settleLoop_settled (n : Nat) (s : State) (h : spare s < n) : (settleLoop n s).Settled := by
  induction n generalizing s with
  | zero => cases h
  | succ n ih =>
    unfold settleLoop
    split
    · assumption
    · have k := settleRound_spare s
      rcases Nat.lt_or_eq_of_le k.1 with hl | he
      · exact ih _ (by omega)
      · have hr := settleRound_settled s he
        rw [settleLoop_of_settled n _ hr]
        exact hr

theorem spare_le (s : State) : spare s ≤ 4 := by
  have h1 : roundEdges.countP (fun x => !s.isActive x) ≤ 3 := List.countP_le_length
  have h2 : s.marked.toNat ≤ 1 := by cases s.marked <;> decide
  unfold spare
  omega

/-- Six rounds are enough: nothing is left to hand on. -/
theorem settle_settled (s : State) (h : s.running = true) : (settle s).Settled := by
  unfold settle
  rw [if_pos h]
  exact settleLoop_settled _ _ (Nat.lt_of_le_of_lt (spare_le _) (by decide))

/-! ## The announcement -/

/-- R181: a STATUS with what was last announced waits. -/
def Announced (s : State) : Prop := ∃ e ∈ s.bus.queue, e.frame = .status s.bus.announced

theorem settleStatus_announces (s : State) (hq : places s.bus.queue ≤ 6) (ha : s.bus.announcing = true) :
    (settleStatus s).bus = s.bus ∨ Announced (settleStatus s) := by
  unfold settleStatus requestStatus
  split
  · exact .inl rfl
  · split
    · right
      unfold Announced
      rw [enqueue_announced]
      exact (enqueue_told (.status (s.setBus { s.bus with announced := s.announcement }).announcement)
        (s.setBus { s.bus with announced := s.announcement }) (.inr rfl)).2 hq
    · next h => exact absurd ha h

theorem settleRound_announces (s : State) (hq : places s.bus.queue ≤ 6) (ha : s.bus.announcing = true) :
    (settleRound s).bus = s.bus ∨ Announced (settleRound s) := by
  have hb : (settlePosture (settleConditions s)).bus = s.bus := by
    rw [settlePosture_bus, (settleConditions_rest s).2.2.2.2.2]
  have h := settleStatus_announces (settlePosture (settleConditions s)) (by rw [hb]; exact hq) (by rw [hb]; exact ha)
  unfold Announced at *
  rwa [settleRound_bus, ← hb]

theorem settleLoop_announces (n : Nat) (s : State) (hq : places s.bus.queue ≤ 6) (ha : s.bus.announcing = true) :
    (settleLoop n s).bus = s.bus ∨ Announced (settleLoop n s) := by
  induction n generalizing s with
  | zero => exact .inl rfl
  | succ n ih =>
    unfold settleLoop
    split
    · exact .inl rfl
    · have h := ih (settleRound s) ((settleRound_told s).sent hq).1 ((settleRound_handed s).announcing.trans ha)
      rcases h with h | h
      · unfold Announced
        rw [h]
        exact settleRound_announces s hq ha
      · exact .inr h

theorem sendNotice_announced (s : State) : (sendNotice s).bus.announced = s.bus.announced := by
  unfold sendNotice
  rw [enqueue_announced]
  rfl

theorem evalOccupancy_announced (s : State) : (evalOccupancy s).bus.announced = s.bus.announced := by
  have hst : ∀ (st : Stage) (u : State), (enterStage st u).bus.announced = u.bus.announced := fun st u =>
    sendNotice_announced _
  have hen : ∀ u : State, (energiseValve u).bus.announced = u.bus.announced := by
    intro u
    unfold energiseValve confirmFlow
    dsimp only
    split
    · rw [sendNotice_announced, State.setSeq_bus, trigger_bus _ _ (by decide) (by decide)]
      rfl
    · rw [trigger_bus _ _ (by decide) (by decide)]
      rfl
  have hre : ∀ u : State, (enterReleasing u).bus.announced = u.bus.announced := by
    intro u
    unfold enterReleasing
    dsimp only
    split
    · rw [hen, hst]
    · rw [State.setSeq_bus, hst]
  have hcd : ∀ (r : Nat) (u : State), (startCountdown r u).bus.announced = u.bus.announced := by
    intro r u
    unfold startCountdown enterCountdown enterHeld
    split
    · split
      · exact hre u
      · rw [sendNotice_announced]; rfl
    · rw [sendNotice_announced]; rfl
  unfold evalOccupancy
  dsimp only
  split
  · rfl
  · split
    · rw [hcd]; rfl
    · rfl

/-- R17, R77, R132, R139, R163: once everything has followed, the STATUS that waits says what the state now is, where one
waited for what was last announced or the state now differs from that. -/
theorem settle_status (s : State) (h : s.running = true) (ha : s.bus.announcing = true) (hp : places s.bus.queue ≤ 6)
    (hw : Announced s ∨ (settle s).announcement ≠ s.bus.announced) :
    ∃ e ∈ (settle s).bus.queue, e.frame = .status (settle s).announcement := by
  have hset := (Announcement.same_iff _ _).mp (settle_settled s h).2.2.2
  have hv : (entered s).bus.announced = s.bus.announced := by rw [entered_bus, evalOccupancy_announced]
  have hs : settle s = settleLoop settleRounds (entered s) := by unfold settle; rw [if_pos h]; rfl
  have hae : (entered s).bus.announcing = true := by
    rw [entered_bus, (evalOccupancy_only s).announcing]; exact ha
  rw [hset, hs]
  rcases settleLoop_announces settleRounds (entered s) ((entered_told s).sent hp).1 hae with hb | hb
  · rcases hw with hw | hw
    · obtain ⟨e, he, hf⟩ := hw
      refine ⟨e, ?_, ?_⟩
      · rw [hb]
        exact (entered_told s).stay hp e he (by rw [hf]; exact (by decide : 6 ≠ 0))
      · rw [hb, hv]; exact hf
    · exact absurd (by rw [hset, hs, hb, hv]) hw
  · exact hb

/-- R173: while the Sequencer stays where it is, no queued frame but a STATUS changes. -/
theorem settle_others (s : State) (hc : s.NoStart)
    (hp : places s.bus.queue ≤ 6) (e : QueueEntry) (he : e ∈ s.bus.queue) (hk : e.frame.kind ≠ 6) :
    e ∈ (settle s).bus.queue := by
  have hb : (entered s).bus = s.bus := by
    rw [entered_bus, evalOccupancy_of_noStart s hc]
    rfl
  unfold settle
  split
  · have := (settleLoop_told settleRounds (entered s)).stay (by rw [hb]; exact hp) e (by rw [hb]; exact he) hk
    exact this
  · exact he

/-- R172: nothing but a RELEASE_NOTICE and a STATUS is put into the queue. -/
theorem settle_noMore (s : State) (e : QueueEntry) (he : e ∈ (settle s).bus.queue) (h0 : e.frame.kind ≠ 0)
    (h6 : e.frame.kind ≠ 6) : e ∈ s.bus.queue := by
  unfold settle at he
  split at he
  · exact (entered_told s).noMore e ((settleLoop_told settleRounds (entered s)).noMore e he h6) h0
  · exact he

theorem places_le (q : List QueueEntry) (h : q.length ≤ 4) : places q ≤ 6 := by
  unfold places
  split <;> split <;> omega

/-! ## The edge sources -/

/-- `t` has raised no edge source of `s` but DISCHARGE and the three of a round. -/
def EdgesStay (s t : State) : Prop :=
  ∀ x : Source, x.kind ≠ .level → x ∉ roundEdges → x ≠ .discharge → t.source x = s.source x

theorem EdgesStay.refl (s : State) : EdgesStay s s := fun _ _ _ _ => rfl

theorem EdgesStay.trans {s t u : State} (h : EdgesStay s t) (k : EdgesStay t u) : EdgesStay s u :=
  fun x h1 h2 h3 => (k x h1 h2 h3).trans (h x h1 h2 h3)

theorem roundEdges_not {x : Source} (h : x ∉ roundEdges) :
    x ≠ .pairBroken ∧ x ≠ .occupiedAtClose ∧ x ≠ .transmitOverrun := by
  simpa [roundEdges] using h

theorem sendNotice_edges (s : State) : EdgesStay s (sendNotice s) := fun x _ h _ =>
  enqueue_source _ _ x (roundEdges_not h).2.2

theorem enterStage_edges (st : Stage) (s : State) : EdgesStay s (enterStage st s) := sendNotice_edges _

theorem energiseValve_edges (s : State) : EdgesStay s (energiseValve s) := by
  have h : EdgesStay s (trigger .discharge (s.setSeq { s.seq with
      valve := true, valveDelay := none, valvePulse := some (s.now + Config.ms s.img.pv)
      flowWait := some (s.now + Config.sec s.img.tf), flowConfirmed := false })) := fun x _ _ h3 =>
    trigger_source_ne _ x _ (by decide) (by decide) h3
  unfold energiseValve confirmFlow
  dsimp only
  split
  · exact h.trans (sendNotice_edges _)
  · exact h

theorem enterReleasing_edges (s : State) : EdgesStay s (enterReleasing s) := by
  unfold enterReleasing
  dsimp only
  split
  · exact (enterStage_edges _ s).trans (energiseValve_edges _)
  · exact enterStage_edges _ s

theorem startCountdown_edges (r : Nat) (s : State) : EdgesStay s (startCountdown r s) := by
  unfold startCountdown enterCountdown enterHeld
  split
  · split
    · exact enterReleasing_edges s
    · exact sendNotice_edges _
  · exact sendNotice_edges _

theorem evalOccupancy_edges (s : State) : EdgesStay s (evalOccupancy s) := by
  unfold evalOccupancy
  dsimp only
  split
  · exact EdgesStay.refl s
  · split
    · exact startCountdown_edges _ (s.setSeq { s.seq with occupied := s.areaOccupied })
    · exact EdgesStay.refl s

theorem lockoutOn_ann (s : State) : (lockoutOn s).ann = s.ann := by
  unfold lockoutOn interlockTest grantRequest releaseDoor
  dsimp only
  (repeat' split) <;> simp

theorem settleLockout_edges (s : State) : EdgesStay s (settleLockout s) := fun x _ h _ => by
  unfold settleLockout
  split
  · rfl
  · split
    · rw [breakReservations_source _ x (roundEdges_not h).1]
      unfold State.source
      rw [lockoutOn_ann]
    · rfl

theorem settleCadence_edges (s : State) : EdgesStay s (settleCadence s) := fun x _ _ _ => by
  unfold settleCadence
  split <;> rfl

theorem settleRound_edges (s : State) : EdgesStay s (settleRound s) := fun x h1 h2 _ => by
  have hn := roundEdges_not h2
  have hann : (settleRound s).ann = (settleStatus (settlePosture (settleConditions s))).ann := by
    unfold settleRound settleOutputs
    exact (settleOutputs_foldl allOutputs _).2.2.2
  have hs : (settleRound s).source x = (settleStatus (settlePosture (settleConditions s))).source x := by
    unfold State.source; rw [hann]
  rw [hs, settleStatus_source _ x hn.2.2, settlePosture_source _ x hn.1 hn.2.1]
  exact settleConditions_foldl_edge Source.levels s x (fun k => h1 (mem_levels.mp k))

theorem settleLoop_edges (n : Nat) (s : State) : EdgesStay s (settleLoop n s) := by
  induction n generalizing s with
  | zero => exact EdgesStay.refl s
  | succ n ih =>
    unfold settleLoop
    split
    · exact EdgesStay.refl s
    · exact (settleRound_edges s).trans (ih _)

/-- R153: beside DISCHARGE, PAIR_BROKEN, OCCUPIED_AT_CLOSE and TRANSMIT_OVERRUN no edge source changes. -/
theorem settle_edges (s : State) : EdgesStay s (settle s) := by
  unfold settle
  split
  · exact (((evalOccupancy_edges s).trans (settleLockout_edges _)).trans (settleCadence_edges _)).trans
      (settleLoop_edges _ _)
  · exact EdgesStay.refl s

end Sys2Proof.Machine
end

