-- ==== Sys2Proof/Laws/After.lean ====
section
/-! SUPPORT. What follows at once from an event, said once: `settle_after`. A proof about a command shows the command's
own effect and cites it. Before it, the parts that are said of a whole event: the sounder (R74), the effective posture and
what it hands on (R112, R131, R141), the comparison of the output lines (R147), and frames lost (R173). -/

namespace Sys2Proof.Machine

/-! ## The sounder -/

/-- The sounder's own fields are as they were. -/
def SoundStays (s t : State) : Prop :=
  t.now = s.now ∧ t.seq.cadence = s.seq.cadence ∧ t.seq.pattern = s.seq.pattern ∧ t.seq.phaseEnd = s.seq.phaseEnd

theorem SoundStays.trans {s t u : State} (h : SoundStays s t) (k : SoundStays t u) : SoundStays s u :=
  ⟨k.1.trans h.1, k.2.1.trans h.2.1, k.2.2.1.trans h.2.2.1, k.2.2.2.trans h.2.2.2⟩

theorem BusOnly.soundStays {s t : State} (h : BusOnly s t) : SoundStays s t := by
  refine ⟨h.now, ?_, ?_, ?_⟩ <;> rw [h.seq_eq]

theorem sendNotice_soundStays (s : State) : SoundStays s (sendNotice s) :=
  SoundStays.trans (t := s.setSeq { s.seq with
    notice := if s.seq.stage.noticed then some (s.now + Config.noticeTime) else none }) ⟨rfl, rfl, rfl, rfl⟩
    (enqueue_only _ _).soundStays

theorem enterStage_soundStays (st : Stage) (s : State) : SoundStays s (enterStage st s) :=
  SoundStays.trans (t := s.setSeq { s.seq with stage := st, countdown := none, frozen := 0 }) ⟨rfl, rfl, rfl, rfl⟩
    (sendNotice_soundStays _)

theorem energiseValve_soundStays (s : State) : SoundStays s (energiseValve s) := by
  have h : SoundStays s (trigger .discharge (s.setSeq { s.seq with
      valve := true, valveDelay := none, valvePulse := some (s.now + Config.ms s.img.pv)
      flowWait := some (s.now + Config.sec s.img.tf), flowConfirmed := false })) :=
    SoundStays.trans (t := s.setSeq { s.seq with
      valve := true, valveDelay := none, valvePulse := some (s.now + Config.ms s.img.pv)
      flowWait := some (s.now + Config.sec s.img.tf), flowConfirmed := false }) ⟨rfl, rfl, rfl, rfl⟩
      (trigger_only .discharge _ (by decide)).soundStays
  unfold energiseValve confirmFlow
  dsimp only
  split
  · refine h.trans (SoundStays.trans (t := State.setSeq _ _) ?_ (sendNotice_soundStays _))
    exact ⟨rfl, rfl, rfl, rfl⟩
  · exact h

theorem enterReleasing_soundStays (s : State) : SoundStays s (enterReleasing s) := by
  unfold enterReleasing
  dsimp only
  split
  · exact (enterStage_soundStays _ s).trans (energiseValve_soundStays _)
  · exact (enterStage_soundStays _ s).trans ⟨rfl, rfl, rfl, rfl⟩

theorem startCountdown_soundStays (r : Nat) (s : State) : SoundStays s (startCountdown r s) := by
  have h : ∀ q : Sequencer, q.cadence = s.seq.cadence → q.pattern = s.seq.pattern → q.phaseEnd = s.seq.phaseEnd →
      SoundStays s (sendNotice (s.setSeq q)) := fun q h1 h2 h3 =>
    SoundStays.trans (t := s.setSeq q) ⟨rfl, h1, h2, h3⟩ (sendNotice_soundStays _)
  unfold startCountdown enterCountdown enterHeld
  split
  · split
    · exact enterReleasing_soundStays s
    · exact h _ rfl rfl rfl
  · exact h _ rfl rfl rfl

theorem evalOccupancy_soundStays (s : State) : SoundStays s (evalOccupancy s) := by
  unfold evalOccupancy
  dsimp only
  split
  · exact ⟨rfl, rfl, rfl, rfl⟩
  · have h : SoundStays s (s.setSeq { s.seq with occupied := s.areaOccupied }) := ⟨rfl, rfl, rfl, rfl⟩
    split
    · exact h.trans (startCountdown_soundStays _ _)
    · exact h

/-- R74: the pattern of a stage is the table's. -/
theorem soundOf_pattern (st : Stage) : st.pattern = soundOf st := by cases st <;> rfl

theorem shownStage_eq (s : State) : s.stage = s.shownStage := by
  unfold State.stage State.shownStage
  cases s.role <;> rfl

/-- R74: the cadence of a stage. -/
theorem settleCadence_sounds (s : State) : Sounds s (settleCadence s) := by
  have hs : s.stage.pattern = soundOf s.shownStage := by rw [soundOf_pattern, shownStage_eq]
  unfold settleCadence
  split
  · next h => exact ⟨h.symm.trans hs, fun _ => ⟨rfl, rfl⟩, fun k => absurd rfl k⟩
  · next h =>
    refine ⟨hs, fun k => absurd k h, fun _ => ⟨?_, ?_⟩⟩
    · show s.stage.pattern.firstPhase = _
      rw [State.setSeq_seq]
      cases s.stage.pattern <;> rfl
    · show s.stage.pattern.phaseTime.map (s.now + ·) = _
      rw [State.setSeq_seq]
      cases s.stage.pattern <;> rfl

/-- R74: the sounder after an event. -/
theorem settle_sounds (s : State) (h : s.running = true) : Sounds s (settle s) := by
  have hl : (settleLockout (evalOccupancy s)).seq = (evalOccupancy s).seq := settleLockout_seq _
  have he := evalOccupancy_soundStays s
  have hn : (settleLockout (evalOccupancy s)).now = s.now := (settleLockout_pushed _).now.trans he.1
  have hq : (settle s).seq = (settleCadence (settleLockout (evalOccupancy s))).seq := by
    unfold settle; rw [if_pos h, (settleLoop_rest _ _).1]
  have hr : (settle s).role = (settleCadence (settleLockout (evalOccupancy s))).role := by
    rw [(settle_handed s).role, (settleCadence_only _).role, (settleLockout_pushed _).role, (evalOccupancy_only s).role]
  have hnow : (settle s).now = (settleCadence (settleLockout (evalOccupancy s))).now := by
    rw [(settle_handed s).now, (settleCadence_only _).now, hn]
  have hst : (settle s).shownStage = (settleCadence (settleLockout (evalOccupancy s))).shownStage := by
    unfold State.shownStage; rw [hr, hq]
  obtain ⟨k1, k2, k3⟩ := settleCadence_sounds (settleLockout (evalOccupancy s))
  rw [hl, he.2.1, he.2.2.1, he.2.2.2] at k2
  rw [hl, he.2.2.1] at k3
  exact ⟨by rw [hq, hst]; exact k1, by rw [hq]; exact k2, by rw [hq, hnow]; exact k3⟩

/-! ## Sources that no hand-off of the Sequencer reaches -/

/-- Before the rounds only DISCHARGE, PAIR_BROKEN and TRANSMIT_OVERRUN can change. -/
theorem evalOccupancy_source (s : State) (x : Source) (h1 : x ≠ .transmitOverrun) (h2 : x ≠ .discharge) :
    (evalOccupancy s).source x = s.source x := by
  have hn : ∀ u : State, (sendNotice u).source x = u.source x := fun u => enqueue_source _ _ x h1
  have hv : ∀ u : State, (energiseValve u).source x = u.source x := by
    intro u
    have h : ∀ q : Sequencer, (trigger .discharge (u.setSeq q)).source x = u.source x := fun q =>
      trigger_source_ne _ x _ (by decide) (by decide) h2
    unfold energiseValve confirmFlow
    dsimp only
    split
    · rw [hn]; exact h _
    · exact h _
  have hr : ∀ u : State, (enterReleasing u).source x = u.source x := by
    intro u
    have h : (enterStage .releasing u).source x = u.source x := hn _
    unfold enterReleasing
    dsimp only
    split
    · rw [hv, h]
    · exact h
  have hc : ∀ (r : Nat) (u : State), (startCountdown r u).source x = u.source x := by
    intro r u
    unfold startCountdown enterCountdown enterHeld
    split
    · split
      · exact hr u
      · exact hn _
    · exact hn _
  unfold evalOccupancy
  dsimp only
  split
  · rfl
  · split
    · rw [hc]; rfl
    · rfl

theorem settleLockout_source (s : State) (x : Source) (h : x ≠ .pairBroken) :
    (settleLockout s).source x = s.source x := by
  unfold settleLockout
  split
  · rfl
  · split
    · rw [breakReservations_source _ x h]
      unfold State.source
      rw [lockoutOn_ann]
    · rfl

theorem settleCadence_source (s : State) (x : Source) : (settleCadence s).source x = s.source x := by
  unfold settleCadence
  split <;> rfl

/-- A round raises no edge source but its three. -/
theorem settleRound_source_edge (s : State) (x : Source) (h1 : x.kind ≠ .level) (h2 : x ∉ roundEdges) :
    (settleRound s).source x = s.source x := by
  have hn := roundEdges_not h2
  have hann : (settleRound s).ann = (settleStatus (settlePosture (settleConditions s))).ann := by
    unfold settleRound settleOutputs
    exact (settleOutputs_foldl allOutputs _).2.2.2
  have hs : (settleRound s).source x = (settleStatus (settlePosture (settleConditions s))).source x := by
    unfold State.source; rw [hann]
  rw [hs, settleStatus_source _ x hn.2.2, settlePosture_source _ x hn.1 hn.2.1]
  exact settleConditions_foldl_edge Source.levels s x (fun k => h1 (mem_levels.mp k))

theorem settleLoop_source_edge (n : Nat) (s : State) (x : Source) (h1 : x.kind ≠ .level) (h2 : x ∉ roundEdges) :
    (settleLoop n s).source x = s.source x := by
  induction n generalizing s with
  | zero => rfl
  | succ n ih =>
    unfold settleLoop
    split
    · rfl
    · rw [ih, settleRound_source_edge s x h1 h2]

/-- R76: DISCHARGE is not raised unless INHIBITED ends. -/
theorem settle_discharge (s : State) (h : s.NoStart) :
    (settle s).source .discharge = s.source .discharge := by
  have he : (evalOccupancy s).source .discharge = s.source .discharge := by
    rw [evalOccupancy_of_noStart s h]
    rfl
  unfold settle
  split
  · rw [settleLoop_source_edge _ _ _ (by decide) (by decide), settleCadence_source,
      settleLockout_source _ _ (by decide), he]
  · rfl

/-! ## Frames lost -/

/-- With a place for the one RELEASE_NOTICE and the one STATUS, no frame is lost. -/
structure NoLoss (s t : State) : Prop where
  sent : Sent s.bus.queue t.bus.queue
  keep : places s.bus.queue ≤ 6 → t.source .transmitOverrun = s.source .transmitOverrun

theorem NoLoss.trans {s t u : State} (h : NoLoss s t) (k : NoLoss t u) : NoLoss s u :=
  ⟨h.sent.trans k.sent, fun hp => (k.keep (h.sent hp).1).trans (h.keep hp)⟩

theorem NoLoss.of_eq {s t : State} (hb : t.bus.queue = s.bus.queue)
    (hs : t.source .transmitOverrun = s.source .transmitOverrun) : NoLoss s t := ⟨Sent.of_eq hb, fun _ => hs⟩

/-- R173: a RELEASE_NOTICE or a STATUS handed to a queue with a place for it. -/
theorem enqueue_loss (f : Frame) (s : State) (hf : f.kind = 0 ∨ f.kind = 6) : NoLoss s (enqueue f s) := by
  refine ⟨(enqueue_told f s hf).1.sent, fun hp => ?_⟩
  unfold enqueue
  split
  · rfl
  · next ha =>
    have hs : f.supersedes = true := by unfold Frame.supersedes; rcases hf with h | h <;> simp [h]
    rw [hs, Bool.true_and] at ha
    have ha' : s.bus.queue.any (fun e => e.frame.kind == f.kind) = false := by simpa using ha
    have hlt : s.bus.queue.length < Config.queueSize := by
      unfold places at hp
      unfold Config.queueSize
      rcases hf with h | h <;> rw [h] at ha' <;> rw [ha'] at hp <;> simp at hp <;> omega
    simp only [makePlace, hlt, if_true]
    rfl

theorem NoLoss.setSeq (s : State) (q : Sequencer) : NoLoss s (s.setSeq q) := NoLoss.of_eq rfl rfl

theorem sendNotice_loss (s : State) : NoLoss s (sendNotice s) :=
  (NoLoss.setSeq s { s.seq with
    notice := if s.seq.stage.noticed then some (s.now + Config.noticeTime) else none }).trans
    (enqueue_loss (noticeFrame s) _ (.inl rfl))

theorem sendNotice_setSeq_loss (s : State) (q : Sequencer) : NoLoss s (sendNotice (s.setSeq q)) :=
  (NoLoss.setSeq s q).trans (sendNotice_loss _)

theorem energiseValve_loss (s : State) : NoLoss s (energiseValve s) := by
  have h : ∀ q : Sequencer, NoLoss s (trigger .discharge (s.setSeq q)) := fun q => by
    refine NoLoss.of_eq ?_ (trigger_source_ne _ _ _ (by decide) (by decide) (by decide))
    rw [trigger_bus _ _ (by decide) (by decide)]
    rfl
  unfold energiseValve confirmFlow
  dsimp only
  split
  · exact (h _).trans (sendNotice_setSeq_loss _ _)
  · exact h _

theorem enterReleasing_loss (s : State) : NoLoss s (enterReleasing s) := by
  have h : NoLoss s (enterStage .releasing s) := sendNotice_setSeq_loss s _
  unfold enterReleasing
  dsimp only
  split
  · exact h.trans (energiseValve_loss _)
  · exact h.trans (NoLoss.setSeq _ _)

theorem startCountdown_loss (r : Nat) (s : State) : NoLoss s (startCountdown r s) := by
  unfold startCountdown enterCountdown enterHeld
  split
  · split
    · exact enterReleasing_loss s
    · exact sendNotice_setSeq_loss s _
  · exact sendNotice_setSeq_loss s _

theorem evalOccupancy_loss (s : State) : NoLoss s (evalOccupancy s) := by
  unfold evalOccupancy
  dsimp only
  split
  · exact NoLoss.of_eq rfl rfl
  · have h := NoLoss.setSeq s { s.seq with occupied := s.areaOccupied }
    split
    · exact h.trans (startCountdown_loss _ _)
    · exact h

theorem settleStatus_loss (s : State) : NoLoss s (settleStatus s) := by
  unfold settleStatus requestStatus
  split
  · exact NoLoss.of_eq rfl rfl
  · have h : NoLoss s (s.setBus { s.bus with announced := s.announcement }) := NoLoss.of_eq rfl rfl
    split
    · exact h.trans (enqueue_loss _ _ (.inr rfl))
    · exact h

theorem settleRound_loss (s : State) : NoLoss s (settleRound s) := by
  have h1 : NoLoss s (settlePosture (settleConditions s)) := by
    refine NoLoss.of_eq ?_ ?_
    · rw [settlePosture_bus, (settleConditions_rest s).2.2.2.2.2]
    · rw [settlePosture_source _ _ (by decide) (by decide)]
      exact settleConditions_foldl_edge Source.levels s _ (by decide)
  refine (h1.trans (settleStatus_loss _)).trans (NoLoss.of_eq ?_ ?_)
  · rw [settleRound_bus]
  · unfold settleRound settleOutputs State.source
    rw [(settleOutputs_foldl allOutputs _).2.2.2]

theorem settleLoop_loss (n : Nat) (s : State) : NoLoss s (settleLoop n s) := by
  induction n generalizing s with
  | zero => exact NoLoss.of_eq rfl rfl
  | succ n ih =>
    unfold settleLoop
    split
    · exact NoLoss.of_eq rfl rfl
    · exact (settleRound_loss s).trans (ih _)

/-- R173: what follows from an event loses no frame where there are places. -/
theorem settle_loss (s : State) : NoLoss s (settle s) := by
  unfold settle
  split
  · refine ((evalOccupancy_loss s).trans (NoLoss.of_eq ?_ ?_)).trans (settleLoop_loss _ _)
    · rw [settleCadence_bus, settleLockout_bus]
    · rw [settleCadence_source, settleLockout_source _ _ (by decide)]
  · exact NoLoss.of_eq rfl rfl

/-! ## The effective posture -/

/-- R13: every line's alarm level is the effective posture's. -/
def Alarmed (s : State) : Prop :=
  ∀ l, (s.line l).effAlarm = effectiveAlarm (s.lineCfg l) s.img.ko s.posture.effective

/-- What hand-offs do to the effective posture, and what it hands on. -/
structure Posed (s t : State) : Prop where
  handed : Handed s t
  breaks : Broke s t
  broke : (∃ d, t.reservation d ≠ s.reservation d) → (t.source .pairBroken).pending = true
  unbroken : (∀ d, t.reservation d = s.reservation d) → t.source .pairBroken = s.source .pairBroken
  closed : s.posture.effective.num < 2 → 2 ≤ t.posture.effective.num →
    s.roster.entries ≠ [] ∨ s.roster.doubtful = true → (t.source .occupiedAtClose).pending = true
  empty : s.roster.entries = [] → s.roster.doubtful = false → t.source .occupiedAtClose = s.source .occupiedAtClose
  change : (t.posture.effective = s.posture.effective ∧ ∀ l, (t.line l).effAlarm = (s.line l).effAlarm) ∨
    ((∀ d, t.reservation d = none) ∧ Alarmed t)

theorem Posed.trans {s t u : State} (h : Posed s t) (k : Posed t u) : Posed s u where
  handed := h.handed.trans k.handed
  breaks := h.breaks.trans k.breaks
  broke := fun ⟨d, hd⟩ => by
    by_cases e : t.reservation d = s.reservation d
    · exact k.broke ⟨d, fun he => hd (he.trans e)⟩
    · exact k.handed.raisedStay _ (by decide) (h.broke ⟨d, e⟩)
  unbroken := fun hs => by
    have ht : ∀ d, t.reservation d = s.reservation d := fun d => by
      rcases h.breaks d with ⟨e, _⟩ | ⟨e, _, hx⟩
      · exact e
      · rcases k.breaks d with ⟨e', _⟩ | ⟨e', _, _⟩
        · rw [← hs d, e', e] at hx; cases hx
        · rw [← hs d, e'] at hx; cases hx
    rw [k.unbroken (fun d => (hs d).trans (ht d).symm), h.unbroken ht]
  closed := fun h1 h2 h3 => by
    by_cases hm : 2 ≤ t.posture.effective.num
    · exact k.handed.raisedStay _ (by decide) (h.closed h1 hm h3)
    · exact k.closed (by omega) h2 (by rw [h.handed.roster]; exact h3)
  empty := fun h1 h2 => by
    rw [k.empty (by rw [h.handed.roster]; exact h1) (by rw [h.handed.roster]; exact h2), h.empty h1 h2]
  change := by
    rcases k.change with ⟨e, a⟩ | r
    · rcases h.change with ⟨e', a'⟩ | ⟨n, al⟩
      · exact .inl ⟨e.trans e', fun l => (a l).trans (a' l)⟩
      · refine .inr ⟨fun d => ?_, fun l => ?_⟩
        · rcases k.breaks d with ⟨x, _⟩ | ⟨x, _⟩
          · exact x.trans (n d)
          · exact x
        · rw [a l, al l, k.handed.lineCfg, k.handed.img, e]
    · exact .inr r

/-- A hand-off that leaves the reservations, the lines, the postures and the two sources. -/
theorem Posed.of_eq {s t : State} (h : Handed s t) (he : t.entry = s.entry) (hl : t.lines = s.lines)
    (hp : t.posture.effective = s.posture.effective) (hb : t.source .pairBroken = s.source .pairBroken)
    (hc : t.source .occupiedAtClose = s.source .occupiedAtClose) : Posed s t where
  handed := h
  breaks := Broke.of_entry he
  broke := fun ⟨d, hd⟩ => by
    have : t.reservation d = s.reservation d := by cases d <;> simp [State.reservation, he]
    exact absurd this hd
  unbroken _ := hb
  closed h1 h2 _ := by rw [hp] at h2; omega
  empty _ _ := hc
  change := .inl ⟨hp, fun l => by rw [State.line, State.line, hl]⟩

theorem reservation_some_of {s : State} (h : (s.entry.resA.isSome || s.entry.resB.isSome) = true) :
    ∃ d, (s.reservation d).isSome = true := by
  rcases Bool.or_eq_true_iff.mp h with h | h
  · exact ⟨.a, h⟩
  · exact ⟨.b, h⟩

/-- R112: PAIR_BROKEN is raised exactly when a reservation breaks. -/
theorem breakReservations_posed (s : State) : Posed s (breakReservations s) where
  handed := (breakReservations_pushed s).toHanded
  breaks := breakReservations_broke s
  broke := fun ⟨d, hd⟩ => by
    unfold breakReservations at hd ⊢
    split
    · exact trigger_pending .pairBroken _ (by decide)
    · next h => rw [if_neg h] at hd; exact absurd rfl hd
  unbroken hs := by
    by_cases h : (s.entry.resA.isSome || s.entry.resB.isSome) = true
    · obtain ⟨d, hd⟩ := reservation_some_of h
      rw [← hs d, breakReservations_none] at hd
      cases hd
    · unfold breakReservations
      rw [if_neg h]
  closed h1 h2 _ := by rw [(breakReservations_rest s).2.2.2] at h2; omega
  empty _ _ := breakReservations_source s _ (by decide)
  change := .inl ⟨by rw [(breakReservations_rest s).2.2.2],
    fun l => by rw [State.line, State.line, (breakReservations_rest s).2.2.1]⟩

theorem recomputeAlarms_alarmed (s : State) : Alarmed (recomputeAlarms s) := by
  intro l
  have h : ∀ l, ((recomputeAlarms s).line l).effAlarm = effectiveAlarm (s.lineCfg l) s.img.ko s.posture.effective := by
    intro l
    show ((recomputeAlarm (recomputeAlarm (recomputeAlarm (recomputeAlarm s 0) 1) 2) 3).line l).effAlarm = _
    unfold recomputeAlarm
    fin_cases l <;> simp [State.setLine_line] <;> rfl
  rw [h l]
  rfl

theorem occupiedAtClose_iff (p q : Posture) (r : Roster) : occupiedAtClose p q r = true ↔
    p.num < 2 ∧ 2 ≤ q.num ∧ (r.entries ≠ [] ∨ r.doubtful = true) := by
  unfold occupiedAtClose
  cases p <;> cases q <;> simp [Posture.isClosed, Posture.num]

/-- R112, R131, R141: the effective posture is evaluated. -/
theorem settlePosture_posed (s : State) : Posed s (settlePosture s) := by
  by_cases h : s.effectiveNow = s.posture.effective
  · unfold settlePosture
    rw [if_pos h]
    exact Posed.of_eq (Handed.refl s) rfl rfl rfl rfl rfl
  · have hx : settlePosture s = if occupiedAtClose s.posture.effective s.effectiveNow s.roster then
        trigger .occupiedAtClose (breakReservations
          (recomputeAlarms (s.setPosture { s.posture with effective := s.effectiveNow })))
        else breakReservations (recomputeAlarms (s.setPosture { s.posture with effective := s.effectiveNow })) := by
      unfold settlePosture
      rw [if_neg h]
    let w := recomputeAlarms (s.setPosture { s.posture with effective := s.effectiveNow })
    have hb := breakReservations_posed w
    have ho : (settlePosture s).entry = (breakReservations w).entry ∧ (settlePosture s).lines = (breakReservations w).lines ∧
        (settlePosture s).posture = (breakReservations w).posture ∧
        (settlePosture s).source .pairBroken = (breakReservations w).source .pairBroken := by
      rw [hx]
      split
      · have k := trigger_only .occupiedAtClose (breakReservations w) (by decide)
        exact ⟨k.entry_eq, k.lines_eq, k.posture_eq, trigger_source_ne _ _ _ (by decide) (by decide) (by decide)⟩
      · exact ⟨rfl, rfl, rfl, rfl⟩
    have hr : ∀ d, (settlePosture s).reservation d = (breakReservations w).reservation d := fun d => by
      cases d <;> simp [State.reservation, ho.1]
    have hw : ∀ d, w.reservation d = s.reservation d := fun d => by
      cases d <;> simp [State.reservation, w, recomputeAlarms_entry]
    have hpb : w.source .pairBroken = s.source .pairBroken := rfl
    refine ⟨(settlePosture_pushed s).toHanded, settlePosture_broke s, fun ⟨d, hd⟩ => ?_, fun hs => ?_,
      fun h1 h2 h3 => ?_, fun h1 h2 => ?_, .inr ⟨fun d => ?_, fun l => ?_⟩⟩
    · rw [ho.2.2.2]
      exact hb.broke ⟨d, by rwa [← hr d, hw d]⟩
    · rw [ho.2.2.2, hb.unbroken (fun d => by rw [← hr d, hs d, hw d]), hpb]
    · rw [settlePosture_effective] at h2
      rw [hx, if_pos ((occupiedAtClose_iff _ _ _).mpr ⟨h1, h2, h3⟩)]
      exact trigger_pending _ _ (by decide)
    · rw [hx, if_neg (fun k => by
        rcases ((occupiedAtClose_iff _ _ _).mp k).2.2 with k | k
        · exact k h1
        · rw [h2] at k; cases k)]
      exact breakReservations_source _ _ (by decide)
    · rw [hr d, breakReservations_none]
    · have hl : (settlePosture s).line l = w.line l := by
        rw [State.line, State.line, ho.2.1, (breakReservations_rest w).2.2.1]
      have hp : (settlePosture s).posture.effective = w.posture.effective := by
        rw [ho.2.2.1, (breakReservations_rest w).2.2.2]
      rw [hl, hp, (settlePosture_pushed s).lineCfg, (settlePosture_pushed s).img]
      exact recomputeAlarms_alarmed _ l

theorem settleOutputs_foldl_lines (ls : List (Fin 12)) (s : State) : (ls.foldl settleOutput s).lines = s.lines := by
  induction ls generalizing s with
  | nil => rfl
  | cons l ls ih => exact (ih _).trans (settleOutput_rest s l).2.2.2.1

theorem settleConditions_lines (s : State) : (settleConditions s).lines = s.lines := by
  have gen : ∀ (xs : List Source) (u : State), (xs.foldl settleCondition u).lines = u.lines := by
    intro xs
    induction xs with
    | nil => intro u; rfl
    | cons x xs ih => intro u; exact (ih _).trans (settleCondition_rest u x).2.2.2.2.1
  exact gen _ s

theorem settleConditions_posed (s : State) : Posed s (settleConditions s) := by
  have r := settleConditions_rest s
  exact Posed.of_eq r.1 r.2.2.2.2.1 (settleConditions_lines s) (by rw [r.2.2.2.1])
    (settleConditions_foldl_edge Source.levels s _ (by decide)) (settleConditions_foldl_edge Source.levels s _ (by decide))

theorem settleStatus_posed (s : State) : Posed s (settleStatus s) := by
  have k := settleStatus_only s
  exact Posed.of_eq k.toHanded k.entry_eq k.lines_eq (by rw [k.posture_eq]) (settleStatus_source s _ (by decide))
    (settleStatus_source s _ (by decide))

theorem settleOutputs_rest (s : State) : (settleOutputs s).entry = s.entry ∧ (settleOutputs s).lines = s.lines ∧
    (settleOutputs s).posture.effective = s.posture.effective ∧ ∀ x, (settleOutputs s).source x = s.source x := by
  unfold settleOutputs
  refine ⟨settleOutputs_foldl_entry _ s, settleOutputs_foldl_lines _ s, settleOutputs_foldl_effective _ s, fun x => ?_⟩
  unfold State.source
  rw [(settleOutputs_foldl allOutputs s).2.2.2]

theorem settleOutputs_posed (s : State) : Posed s (settleOutputs s) := by
  have h := settleOutputs_rest s
  exact Posed.of_eq (settleOutputs_pushed s).toHanded h.1 h.2.1 h.2.2.1 (h.2.2.2 _) (h.2.2.2 _)

theorem settleRound_posed (s : State) : Posed s (settleRound s) :=
  (((settleConditions_posed s).trans (settlePosture_posed _)).trans (settleStatus_posed _)).trans (settleOutputs_posed _)

theorem settleLoop_posed (n : Nat) (s : State) : Posed s (settleLoop n s) := by
  induction n generalizing s with
  | zero => exact Posed.of_eq (Handed.refl s) rfl rfl rfl rfl rfl
  | succ n ih =>
    unfold settleLoop
    split
    · exact Posed.of_eq (Handed.refl s) rfl rfl rfl rfl rfl
    · exact (settleRound_posed s).trans (ih _)

/-- Lockout leaves the lines and the Posture and Output Unit alone. -/
theorem lockout_rest (s : State) : (lockoutOn s).lines = s.lines ∧ (lockoutOn s).posture = s.posture := by
  unfold lockoutOn interlockTest grantRequest releaseDoor
  dsimp only
  (repeat' split) <;> simp

theorem settleLockout_rest (s : State) :
    (settleLockout s).lines = s.lines ∧ (settleLockout s).posture = s.posture := by
  unfold settleLockout
  split
  · exact ⟨rfl, rfl⟩
  · split
    · rw [(breakReservations_rest _).2.2.1, (breakReservations_rest _).2.2.2]
      exact lockout_rest s
    · exact ⟨rfl, rfl⟩

theorem settleLockout_posed (s : State) : Posed s (settleLockout s) := by
  unfold settleLockout
  split
  · exact Posed.of_eq (Handed.refl s) rfl rfl rfl rfl rfl
  · split
    · refine Posed.trans (Posed.of_eq (lockoutOn_pushed s).toHanded (lockoutOn_entry s) (lockout_rest s).1
        (by rw [(lockout_rest s).2]) ?_ ?_) (breakReservations_posed _)
      · rw [State.source, State.source, lockoutOn_ann]
      · rw [State.source, State.source, lockoutOn_ann]
    · exact Posed.of_eq (lockoutOff_pushed s).toHanded rfl rfl rfl rfl rfl

theorem entered_posed (s : State) : Posed s (entered s) := by
  have e := evalOccupancy_only s
  have c := settleCadence_only (settleLockout (evalOccupancy s))
  refine ((Posed.of_eq e.toHanded e.entry_eq e.lines_eq (by rw [e.posture_eq])
    (evalOccupancy_source s _ (by decide) (by decide)) (evalOccupancy_source s _ (by decide) (by decide))).trans
    (settleLockout_posed _)).trans ?_
  exact Posed.of_eq c.toHanded c.entry_eq c.lines_eq (congrArg PostureUnit.effective c.posture_eq) (settleCadence_source _ _)
    (settleCadence_source _ _)

/-! ### While the overlay stands -/

theorem Handed.lockdownFlag {s t : State} (h : Handed s t) (x : Source) : t.lockdownFlag x = s.lockdownFlag x := by
  unfold State.lockdownFlag; rw [h.image]

theorem Handed.overlayFixed {s t : State} (h : Handed s t) : t.OverlayFixed ↔ s.OverlayFixed := by
  unfold State.OverlayFixed State.ScopedDuress
  simp only [h.lockdownFlag, h.remote, h.img]

theorem ScopedDuress.inScope {s : State} (h : s.ScopedDuress) : s.ann.remote.any s.inScope = true := by
  obtain ⟨e, he, hk, hs⟩ := h
  refine List.any_eq_true.mpr ⟨e, he, ?_⟩
  unfold State.inScope RemoteEntry.isDuress State.isMember
  rcases hs with hs | ⟨hs, hm⟩
  · simp [hk, hs]
  · simp [hk, hs, hm]

/-- R140, R141: while the overlay stands, hand-offs do not change what the effective posture follows. -/
theorem effectiveNow_fixed {s t : State} (h : Handed s t) (he : EdgesStay s t) (hf : s.OverlayFixed) :
    t.effectiveNow = s.effectiveNow := by
  have hi : t.inScope = s.inScope := funext fun e => by simp only [State.inScope, State.isMember, h.img]
  have ho : t.overlay = s.overlay := by
    unfold State.overlay
    rcases hf with hf | hf
    · rw [ScopedDuress.inScope hf, hi, h.remote, ScopedDuress.inScope hf, Bool.or_true, Bool.or_true]
    · have hl : t.localRequest = s.localRequest := by
        unfold State.localRequest
        refine congrArg (fun f => Source.all.any f) (funext fun x => ?_)
        rw [h.lockdownFlag]
        cases hx : s.lockdownFlag x
        · simp
        · obtain ⟨h1, h2, h3, h4, h5⟩ := hf x hx
          rw [isActive_of_source h.remote (he x h1 (by simp [roundEdges, h2, h3, h4]) h5)]
      rw [hl, hi, h.remote]
  unfold State.effectiveNow
  rw [ho, h.view]

/-- The effective posture makes one change at most, to what it follows. -/
structure Steady (s t : State) : Prop where
  effective : t.posture.effective = s.posture.effective ∨ t.posture.effective = s.effectiveNow
  other : ¬(s.posture.effective.num < 2 ∧ 2 ≤ t.posture.effective.num) →
    t.source .occupiedAtClose = s.source .occupiedAtClose
  stays : t.posture.effective = s.posture.effective → ∀ d, t.reservation d = s.reservation d

theorem Steady.trans {s t u : State} (h : Steady s t) (k : Steady t u) (hn : t.effectiveNow = s.effectiveNow) :
    Steady s u := by
  obtain ⟨h1, h2, h3⟩ := h
  obtain ⟨k1, k2, k3⟩ := k
  rw [hn] at k1
  by_cases ht : t.posture.effective = s.posture.effective
  · rw [ht] at k1 k2 k3
    exact ⟨k1, fun hc => (k2 hc).trans (h2 (by rw [ht]; omega)), fun hu d => (k3 hu d).trans (h3 ht d)⟩
  · have hts : t.posture.effective = s.effectiveNow := h1.resolve_left ht
    have hu : u.posture.effective = t.posture.effective := by rcases k1 with k1 | k1 <;> simp [k1, hts]
    refine ⟨.inr (hu.trans hts), fun hc => ?_, fun hc => absurd (hu.symm.trans hc) ht⟩
    rw [k2 (by rw [hu]; omega), h2 (by rwa [← hu])]

theorem Steady.of_eq {s t : State} (he : t.entry = s.entry) (hp : t.posture.effective = s.posture.effective)
    (hc : t.source .occupiedAtClose = s.source .occupiedAtClose) : Steady s t :=
  ⟨.inl hp, fun _ => hc, fun _ d => by cases d <;> simp [State.reservation, he]⟩

theorem settlePosture_steady (s : State) : Steady s (settlePosture s) := by
  by_cases h : s.effectiveNow = s.posture.effective
  · unfold settlePosture
    rw [if_pos h]
    exact Steady.of_eq rfl rfl rfl
  · refine ⟨.inr (settlePosture_effective s), fun hc => ?_, fun hs => absurd ((settlePosture_effective s).symm.trans hs) h⟩
    rw [settlePosture_effective] at hc
    unfold settlePosture
    rw [if_neg h]
    dsimp only
    rw [if_neg (fun k => hc ⟨((occupiedAtClose_iff _ _ _).mp k).1, ((occupiedAtClose_iff _ _ _).mp k).2.1⟩)]
    exact breakReservations_source _ _ (by decide)

theorem settleRound_steady (s : State) (hf : s.OverlayFixed) : Steady s (settleRound s) := by
  have r := settleConditions_rest s
  have hc : Steady s (settleConditions s) :=
    Steady.of_eq r.2.2.2.2.1 (by rw [r.2.2.2.1]) (settleConditions_foldl_edge Source.levels s _ (by decide))
  have ec : EdgesStay s (settleConditions s) := fun x h1 _ _ =>
    settleConditions_foldl_edge Source.levels s x (fun k => h1 (mem_levels.mp k))
  have ep : EdgesStay (settleConditions s) (settlePosture (settleConditions s)) := fun x _ h2 _ =>
    settlePosture_source _ x (roundEdges_not h2).1 (roundEdges_not h2).2.1
  have es : EdgesStay (settlePosture (settleConditions s)) (settleStatus (settlePosture (settleConditions s))) :=
    fun x _ h2 _ => settleStatus_source _ x (roundEdges_not h2).2.2
  have hp := (r.1.trans (settlePosture_pushed (settleConditions s)).toHanded)
  have k := settleStatus_only (settlePosture (settleConditions s))
  have h1 := hc.trans (settlePosture_steady _) (effectiveNow_fixed r.1 ec hf)
  have h2 := h1.trans (Steady.of_eq k.entry_eq (by rw [k.posture_eq]) (settleStatus_source _ _ (by decide)))
    (effectiveNow_fixed hp (ec.trans ep) hf)
  have o := settleOutputs_rest (settleStatus (settlePosture (settleConditions s)))
  have ho : Steady (settleStatus (settlePosture (settleConditions s)))
      (settleOutputs (settleStatus (settlePosture (settleConditions s)))) :=
    Steady.of_eq o.1 o.2.2.1 (o.2.2.2 .occupiedAtClose)
  exact h2.trans ho
    (effectiveNow_fixed (hp.trans k.toHanded) ((ec.trans ep).trans es) hf)

theorem settleLoop_steady (n : Nat) (s : State) (hf : s.OverlayFixed) : Steady s (settleLoop n s) := by
  induction n generalizing s with
  | zero => exact Steady.of_eq rfl rfl rfl
  | succ n ih =>
    unfold settleLoop
    split
    · exact Steady.of_eq rfl rfl rfl
    · have hh := settleRound_handed s
      exact (settleRound_steady s hf).trans (ih _ (hh.overlayFixed.mpr hf))
        (effectiveNow_fixed hh (settleRound_edges s) hf)

/-- R112, R131, R141: what an event's effective posture hands on. -/
theorem settle_posture (s : State) : PostureHanded s (settle s) := by
  have hp : Posed s (settle s) := by
    unfold settle
    split
    · exact (entered_posed s).trans (settleLoop_posed _ _)
    · exact Posed.of_eq (Handed.refl s) rfl rfl rfl rfl rfl
  have ee : (entered s).posture = s.posture := by
    unfold entered
    rw [(settleCadence_only _).posture_eq, (settleLockout_rest _).2, (evalOccupancy_only s).posture_eq]
  have ec : (entered s).source .occupiedAtClose = s.source .occupiedAtClose := by
    unfold entered
    rw [settleCadence_source, settleLockout_source _ _ (by decide), evalOccupancy_source s _ (by decide) (by decide)]
  have steady : (settle s).OverlayFixed → s.running = true → Steady (entered s) (settle s) := fun hf h => by
    have hf' := (entered_posed s).handed.overlayFixed.mpr ((settle_handed s).overlayFixed.mp hf)
    unfold settle
    rw [if_pos h]
    exact settleLoop_steady _ _ hf'
  have num : ∀ p : Posture, p.isClosed = decide (2 ≤ p.num) := by intro p; cases p <;> decide
  refine ⟨fun h => ?_, fun d => ?_, fun h l => ?_, hp.broke, hp.unbroken, hp.closed, hp.empty, fun hf hc => ?_,
    fun hf he hl d => ?_⟩
  · exact (hp.change.resolve_left (fun k => h k.1)).1
  · rcases hp.breaks d with ⟨e, m⟩ | ⟨e, m, x⟩
    · rw [m, e]
      cases s.reservation d <;> simp
    · rw [m, e, x]
      simp
  · rw [(hp.change.resolve_left (fun k => h k.1)).2 l, effectiveAlarm, num]
    by_cases hn : 2 ≤ (settle s).posture.effective.num
    · rw [if_pos hn, if_pos (decide_eq_true hn)]
    · rw [if_neg hn, if_neg (by rw [decide_eq_false hn]; exact Bool.false_ne_true)]
  · cases h : s.running
    · rw [settle_of_stopped s h]
    · rw [(steady hf h).other (by rwa [ee]), ec]
  · cases h : s.running
    · rw [settle_of_stopped s h]
    · have hentry : (entered s).entry = s.entry := by
        unfold entered
        have : settleLockout (evalOccupancy s) = evalOccupancy s := by
          unfold settleLockout
          rw [if_pos (by rw [evalOccupancy_lockoutStage, (evalOccupancy_only s).doors_eq]; exact hl)]
        rw [(settleCadence_only _).entry_eq, this, (evalOccupancy_only s).entry_eq]
      rw [(steady hf h).stays (by rw [ee]; exact he) d]
      cases d <;> simp [State.reservation, hentry]

/-! ## The comparison of the output lines -/

/-- A line's level does not follow a value: it is forced, or has no source. -/
def HeldLine (s : State) (l : Fin 12) : Prop := (s.output l).forced.isSome = true ∨ s.img.outputs[l].source = .noSource

theorem HeldLine.driveLevel {s t : State} (h : Handed s t) {l : Fin 12} (hl : HeldLine s l) :
    t.driveLevel l = s.driveLevel l := by
  unfold State.driveLevel
  rw [h.forced l]
  rcases hl with hl | hl
  · obtain ⟨b, hb⟩ := Option.isSome_iff_exists.mp hl
    rw [hb]
    rfl
  · unfold State.followLevel
    simp only [h.img, hl, ne_eq, not_true_eq_false, false_and, if_false]

/-- R147: what hand-offs do to the output lines. -/
structure Driven (s t : State) : Prop where
  handed : Handed s t
  compared : ∀ l, t.output l = s.output l ∨ (Compared t l ∧ ((t.output l).mark = true → (s.output l).mark = true))
  forced : ∀ l, (s.output l).driven = s.driveLevel l → HeldLine s l → t.output l = s.output l

theorem Compared.of_eq {s t : State} {l : Fin 12} (h : Compared s l) (ho : t.output l = s.output l)
    (hp : t.pins = s.pins) (hn : t.now = s.now) : Compared t l := by
  unfold Compared at *
  rwa [ho, hp, hn]

theorem Driven.trans {s t u : State} (h : Driven s t) (k : Driven t u) : Driven s u where
  handed := h.handed.trans k.handed
  compared l := by
    rcases k.compared l with e | ⟨c, m⟩
    · rcases h.compared l with e' | ⟨c', m'⟩
      · exact .inl (e.trans e')
      · exact .inr ⟨c'.of_eq e k.handed.pins k.handed.now, by rwa [e]⟩
    · refine .inr ⟨c, fun hm => ?_⟩
      rcases h.compared l with e' | ⟨_, m'⟩
      · rw [← e']; exact m hm
      · exact m' (m hm)
  forced l hd hl := by
    have e := h.forced l hd hl
    rw [← e]
    refine k.forced l (by rw [e, hl.driveLevel h.handed, hd]) ?_
    unfold HeldLine at *
    rwa [e, h.handed.img]

theorem Driven.of_eq {s t : State} (h : Handed s t) (ho : t.posture.outputs = s.posture.outputs) : Driven s t :=
  have e : ∀ l, t.output l = s.output l := fun l => by unfold State.output; rw [ho]
  ⟨h, fun l => .inl (e l), fun l _ _ => e l⟩

theorem settleOutput_compared (s : State) (l : Fin 12) : Driven s (settleOutput s l) := by
  refine ⟨(settleOutput_pushed s l).toHanded, fun k => ?_, fun k hd _ => ?_⟩
  · unfold settleOutput
    split
    · exact .inl rfl
    · by_cases hk : k = l
      · subst hk
        right
        have ho : (s.setOutput k (compareOutput s.now { s.output k with driven := s.driveLevel k } s.pins.sense[k])).output k
            = compareOutput s.now { s.output k with driven := s.driveLevel k } s.pins.sense[k] := by
          rw [State.setOutput_output, if_pos rfl]
        unfold Compared
        rw [ho]
        unfold compareOutput
        by_cases hs : s.driveLevel k = s.pins.sense[k]
        · simp only [hs, if_true]
          exact ⟨⟨fun _ => ⟨trivial, trivial⟩, fun h => absurd rfl h⟩, fun h => by cases h⟩
        · simp only [hs, if_false]
          exact ⟨⟨fun h => absurd h hs, fun _ => rfl⟩, fun h => h⟩
      · left
        rw [State.setOutput_output, if_neg hk]
  · unfold settleOutput
    split
    · rfl
    · next h =>
      rw [State.setOutput_output, if_neg]
      intro e
      subst e
      exact h hd.symm

theorem settleOutputs_compared (s : State) : Driven s (settleOutputs s) := by
  have gen : ∀ (ls : List (Fin 12)) (u : State), Driven u (ls.foldl settleOutput u) := by
    intro ls
    induction ls with
    | nil => intro u; exact Driven.of_eq (Handed.refl u) rfl
    | cons l ls ih => intro u; exact (settleOutput_compared u l).trans (ih _)
  exact gen _ s

theorem settleRound_driven (s : State) : Driven s (settleRound s) := by
  have r := settleConditions_rest s
  have p := settlePosture_rest (settleConditions s)
  have k := settleStatus_only (settlePosture (settleConditions s))
  exact (((Driven.of_eq r.1 (by rw [r.2.2.2.1])).trans (Driven.of_eq (settlePosture_pushed _).toHanded p.2.2)).trans
    (Driven.of_eq k.toHanded (by rw [k.posture_eq]))).trans (settleOutputs_compared _)

theorem settleLoop_driven (n : Nat) (s : State) : Driven s (settleLoop n s) := by
  induction n generalizing s with
  | zero => exact Driven.of_eq (Handed.refl s) rfl
  | succ n ih =>
    unfold settleLoop
    split
    · exact Driven.of_eq (Handed.refl s) rfl
    · exact (settleRound_driven s).trans (ih _)

/-- R147: the lines after an event. -/
theorem settle_driven (s : State) : Driven s (settle s) := by
  unfold settle
  split
  · refine Driven.trans (Driven.of_eq (entered_posed s).handed ?_) (settleLoop_driven _ _)
    unfold entered
    rw [(settleCadence_only _).posture_eq, (settleLockout_rest _).2, (evalOccupancy_only s).posture_eq]
  · exact Driven.of_eq (Handed.refl s) rfl

/-! ## The whole -/

/-- What a state is after everything that follows at once from an event. -/
theorem settle_after (s : State) : After s (settle s) where
  handed := settle_handed s
  seq h := by
    cases hr : s.running
    · rw [settle_of_stopped s hr]
    · rw [(settle_seq s hr).1, evalOccupancy_of_noStart s h]
      rfl
  calm h := by
    cases hr : s.running
    · rw [settle_of_stopped s hr]
      exact ⟨rfl, rfl⟩
    · have k := settle_seq s hr
      rwa [evalOccupancy_of_agree s h] at k
  doors h := by
    unfold settle
    split
    · have he := evalOccupancy_only s
      have hl : settleLockout (evalOccupancy s) = evalOccupancy s := by
        unfold settleLockout
        rw [if_pos (by rw [evalOccupancy_lockoutStage, he.doors_eq]; exact h)]
      rw [(settleLoop_rest _ _).2, (settleCadence_only _).doors_eq, hl, he.doors_eq]
    · rfl
  reservations := settle_broke s
  levels h x hk hx := by
    have hh := settle_handed s
    have hc : ∀ a b : State, Handed a b → b.seq = a.seq → b.doors = a.doors →
        b.levelCondition x = a.levelCondition x := fun a b k hs hd => k.levelCondition (by rw [hs]) hd hx
    unfold settle
    rw [if_pos h]
    have r := settleLoop_rest settleRounds (settleCadence (settleLockout (evalOccupancy s)))
    rw [hc _ _ (settleLoop_handed settleRounds _) r.1 r.2]
    unfold settleRounds
    rw [settleLoop_source _ _ x hk hx]
    have p : Pushed s (settleCadence (settleLockout (evalOccupancy s))) :=
      ((evalOccupancy_only s).toPushed.trans (settleLockout_pushed _)).trans (settleCadence_only _).toPushed
    rw [p.levelStay x hk, p.toHanded.presentTime]
  lines h k := by
    unfold settle
    rw [if_pos h]
    exact settleLoop_lines 5 _ k
  queue h e he := (settle_sent s (places_le _ h)).2 e he
  settled := settle_settled s
  status h ha hq hw := settle_status s h ha (places_le _ hq) hw
  others hc hq e he hk := settle_others s hc (places_le _ hq) e he hk
  noMore := settle_noMore s
  edges x h1 h2 h3 h4 h5 := settle_edges s x h1 (by simp [roundEdges, h2, h3, h4]) h5
  overrun h := (settle_loss s).keep (places_le _ h)
  discharge := settle_discharge s
  sounder := settle_sounds s
  posture := settle_posture s
  compared := (settle_driven s).compared
  forced := (settle_driven s).forced
  quiet := settle_of_quiet s

end Sys2Proof.Machine
end

