-- ==== Sys2Proof/Machine/Arrivals.lean ====
section
/-! DEFINITION. How what the panel and the zone bus send joins the commands that wait: the station itself reads which
command it is (R179, R184). -/

namespace Sys2Proof.Machine

/-- A command joins the queue as the last. -/
def State.arrive (s : State) (c : Instr) : State := { s with pending := s.pending ++ [c] }

/-- R184: a panel frame has been clocked, and the command that its first byte chooses waits. -/
def State.arrivePanel (s : State) (dt before : Nat) (bits : List Bool) : State :=
  match Sys2Proof.decodePanelFrame dt before bits with
  | some c => s.arrive c
  | none => s

/-- R179: a frame has been on the line, and the command that it is waits. -/
def State.arriveBus (s : State) (dt : Nat) (bits : List Bool) : State := s.arrive (Sys2Proof.decodeBusFrame dt bits)

end Sys2Proof.Machine
end

