-- ==== Sys2Proof/Laws/Arrivals.lean ====
section
/-! SUPPORT. What the world's signals do: a filtered input's event by the state of its filter, the levels read on the
bus, an addition to the remote alarm list, and the bytes of a panel frame. -/

namespace Sys2Proof.Machine

/-! ## Filtered inputs -/

/-- R80: the pin has held the new level for 20 ms, and the change is taken. -/
theorem inputEvent_held (i : Input) (level : Bool) (act : Bool → State → State) (s : State) (t : Nat)
    (hf : s.pins.filter i = some t) (hl : s.pins.level i = !level) :
    inputEvent i level act .held s = act level ((s.reach t).setPins (s.pins.take i level)) := by
  have hr : (s.reach t).pins = s.pins := rfl
  have hn : ¬(!level) = level := by cases level <;> decide
  simp only [inputEvent, takeInput, hf, hn, if_false, hr, hl, Bool.not_not]

/-- No filter runs, or the level is the one taken: nothing is due. -/
theorem inputEvent_held_none (i : Input) (level : Bool) (act : Bool → State → State) (s : State)
    (h : s.pins.filter i = none ∨ s.pins.level i = level) : inputEvent i level act .held s = s := by
  rcases h with h | h
  · simp only [inputEvent, h]
  · cases hf : s.pins.filter i <;> simp only [inputEvent, hf, h, if_true]

/-- R80: the pin leaves the level taken, and the filtering starts. -/
theorem pinMoves_starts (i : Input) (level : Bool) (act : Bool → State → State) (s : State)
    (hr : s.running = true) (hf : s.pins.filter i = none) (hl : s.pins.level i = !level) :
    pinMoves i level act s = s.setPins (s.pins.setFilter i (some (s.now + Config.filterTime))) := by
  have h : ¬s.pins.raw i = level := by simp only [Pins.raw, hf, hl]; cases level <;> decide
  simp only [pinMoves, h, if_false, hr, if_true, hf, startFilter]

/-- R80: the pin returns within 20 ms, and the change is not taken. -/
theorem pinMoves_returns (i : Input) (level : Bool) (act : Bool → State → State) (s : State) (t : Nat)
    (hr : s.running = true) (hf : s.pins.filter i = some t) (hl : s.pins.level i = level) (ht : s.now < t) :
    pinMoves i level act s = s.setPins (s.pins.setFilter i none) := by
  have h : ¬s.pins.raw i = level := by simp only [Pins.raw, hf, hl, Option.isSome_some]; cases level <;> decide
  simp only [pinMoves, h, if_false, hr, if_true, hf, pinReturns, Nat.not_le.mpr ht]

/-- R80: the pin returns after 20 ms: the change has been taken, and the filtering starts again. -/
theorem pinMoves_late (i : Input) (level : Bool) (act : Bool → State → State) (s : State) (t : Nat)
    (hr : s.running = true) (hf : s.pins.filter i = some t) (hl : s.pins.level i = level) (ht : t ≤ s.now) :
    pinMoves i level act s = startFilter i (act (!level) (s.setPins (s.pins.take i (!level)))) := by
  have h : ¬s.pins.raw i = level := by simp only [Pins.raw, hf, hl, Option.isSome_some]; cases level <;> decide
  simp only [pinMoves, h, if_false, hr, if_true, hf, pinReturns, ht, takeInput, hl]

/-- The pin has the level already. -/
theorem pinMoves_stays (i : Input) (level : Bool) (act : Bool → State → State) (s : State)
    (h : s.pins.raw i = level) : pinMoves i level act s = s := if_pos h

/-- Before the blocks run nothing is filtered. -/
theorem pinMoves_stopped (i : Input) (level : Bool) (act : Bool → State → State) (s : State)
    (hr : s.running = false) (h : s.pins.raw i ≠ level) :
    pinMoves i level act s = s.setPins (s.pins.take i level) := by
  simp only [pinMoves, h, if_false, hr, Bool.false_eq_true]

/-! ## The bus -/

theorem recessiveRun_le (n : Nat) (levels : List Bool) (h : n ≤ Config.idleBits) :
    recessiveRun n levels ≤ Config.idleBits := by
  unfold recessiveRun
  induction levels generalizing n with
  | nil => exact h
  | cons b bs ih =>
    refine ih _ ?_
    dsimp only
    split
    · exact Nat.min_le_right _ _
    · exact Nat.zero_le _

/-- R169: the count starts afresh at the last dominant level. -/
theorem recessiveRun_dominant (n : Nat) (before after : List Bool) :
    recessiveRun n (before ++ false :: after) = recessiveRun 0 after := by
  simp [recessiveRun, List.foldl_append]

/-- R169: only recessive levels add to the count. -/
theorem recessiveRun_recessive (n k : Nat) (h : n ≤ Config.idleBits) :
    recessiveRun n (List.replicate k true) = min (n + k) Config.idleBits := by
  unfold recessiveRun
  induction k generalizing n with
  | zero => simpa using h
  | succ k ih =>
    rw [List.replicate_succ, List.foldl_cons, if_pos rfl, ih _ (Nat.min_le_right _ _)]
    omega

/-- R169: reading levels changes the bus's count alone. -/
theorem State.hear_bus (s : State) (levels : List Bool) :
    (s.hear levels).bus = { s.bus with recessive := (s.hear levels).bus.recessive } := by
  unfold State.hear
  split <;> rfl

/-! ## The remote alarm list -/

/-- R167: an eviction takes the oldest entry and sets the overflow mark. -/
theorem evictOldest_after (s : State) :
    After (s.setAnn { s.ann with remote := s.ann.remote.drop 1, overflow := true }) (evictOldest s) := settle_after _

/-- R166, R167: an addition, by the list as it stood. -/
theorem addRemote_remote (a : Nat) (k : RemoteKind) (s : State) :
    (addRemote a k s).ann.remote =
      if s.ann.remote.any (fun e => e.matches a k) then s.ann.remote
      else (if s.ann.remote.length < Config.remoteSize then s.ann.remote else s.ann.remote.drop 1) ++
        [{ station := a, kind := k, arrival := s.presentTime, acked := false }] := by
  unfold addRemote
  split
  · rfl
  · split
    · rfl
    · have h := (evictOldest_after s).handed
      simp only [joinRemote, State.setAnn_ann, h.remote, h.presentTime]
      rfl

/-! ## Panel frames -/

/-- R170, R183: a byte is read from its bits as it was sent. -/
theorem byteOfBits_bitsOf : ∀ b : Byte, byteOfBits (bitsOf 8 b.toNat) = b := by decide +kernel

/-- R183, R184: whole bytes are read as they were sent, and a part of a byte after them is discarded. -/
theorem frameBytes_append (bytes : List Byte) (part : List Bool) (h : part.length < 8) :
    frameBytes (bitsOfBytes bytes ++ part) = bytes := by
  induction bytes with
  | nil =>
    match part, h with
    | [], _ => rfl
    | [_], _ => rfl
    | [_, _], _ => rfl
    | [_, _, _], _ => rfl
    | [_, _, _, _], _ => rfl
    | [_, _, _, _, _], _ => rfl
    | [_, _, _, _, _, _], _ => rfl
    | [_, _, _, _, _, _, _], _ => rfl
    | _ :: _ :: _ :: _ :: _ :: _ :: _ :: _ :: _, h => exact absurd h (by simp only [List.length_cons]; omega)
  | cons b bs ih =>
    show byteOfBits (bitsOf 8 b.toNat) :: frameBytes (bitsOfBytes bs ++ part) = b :: bs
    rw [byteOfBits_bitsOf, ih]

/-- R184: the command of a panel frame, by its whole bytes. -/
theorem decodePanelFrame_bytes (dt before : Nat) (bytes : List Byte) (part : List Bool) (h : part.length < 8) :
    decodePanelFrame dt before (bitsOfBytes bytes ++ part) =
      match bytes with
      | [] => none
      | code :: rest => some (panelInstr dt { bytes := rest, before := before } code.toNat) := by
  have hb := frameBytes_append bytes part h
  unfold decodePanelFrame
  cases bytes <;> simp only [hb]

end Sys2Proof.Machine
end

