-- ==== Sys2Proof/Laws/Panel.lean ====
section
/-! SUPPORT. What a command frame does to the station, said once: the owner's effect between the taking of the frame and
the forming of its reply (R184 to R188), and `After` under a change of the port. -/

namespace Sys2Proof.Machine

/-- A running station is not in CONFIG_FAULT. -/
theorem State.running_phase {s : State} (h : s.running = true) : s.startup.phase ≠ .configFault := by
  intro hp
  simp [State.running, hp] at h

/-- A running station takes panel frames. -/
theorem State.running_portTakes {s : State} (h : s.running = true) : s.portTakes = true := by
  unfold State.running at h
  unfold State.portTakes
  split at h <;> simp_all

/-- The state in which the owner of a command acts: the frame has been taken in IDLE. -/
def State.taken (s : State) (dt code : Nat) (rest : PanelRest) : State :=
  takeCommand code rest (s.elapse dt)

/-- The state after a frame has been taken differs from the one before in time and in the port. -/
theorem State.taken_eq (s : State) (dt code : Nat) (rest : PanelRest) :
    s.taken dt code rest = (s.elapse dt).setPort (s.taken dt code rest).port := rfl

/-- A change of the port does not show in what the effective posture hands on. -/
theorem PostureHanded.setPort {u t : State} (h : PostureHanded u t) (p : Port) :
    PostureHanded (u.setPort p) (t.setPort p) where
  cleared := fun k d => by have := h.cleared k d; cases d <;> exact this
  marks := fun d => by have := h.marks d; cases d <;> exact this
  alarms := h.alarms
  broke := fun ⟨d, hd⟩ => h.broke ⟨d, by cases d <;> exact hd⟩
  unbroken := fun k => h.unbroken fun d => by have := k d; cases d <;> exact this
  closed := h.closed
  empty := h.empty
  other := h.other
  stays := fun h1 h2 h3 d => by have := h.stays h1 h2 h3 d; cases d <;> exact this

/-- A change of the port does not show in what follows from an event. -/
theorem After.setPort {u t : State} (h : After u t) (p : Port) : After (u.setPort p) (t.setPort p) where
  handed := { h.handed with port := rfl }
  seq := h.seq
  calm := h.calm
  doors := h.doors
  reservations := by
    intro d
    have := h.reservations d
    cases d <;> exact this
  levels := h.levels
  lines := h.lines
  queue := h.queue
  settled := h.settled
  status := h.status
  others := h.others
  noMore := h.noMore
  edges := h.edges
  overrun := h.overrun
  discharge := h.discharge
  sounder := fun hr => ⟨(h.sounder hr).pattern, (h.sounder hr).same, (h.sounder hr).starts⟩
  posture := h.posture.setPort p
  compared := h.compared
  forced := h.forced
  quiet := fun q => by rw [h.quiet q]

/-- What an owner's answer becomes: the reply is formed over its state, and PSDO has sent 0x00. -/
theorem formReply_eq (s t : State) (dt code : Nat) (rest : PanelRest) (a : Answer) (hi : s.port.state = .idle)
    (ht : t.port = (s.taken dt code rest).port) :
    sendPsdo (s.elapse dt).port rest.before (frameLength rest) (formReply code a t) =
      t.setPort (s.answered rest.bytes code a.result.code a.flags a.data) := by
  have hd : (PortState.idle == PortState.reply) = false := rfl
  simp [formReply, State.setPort, State.answered, replyBytes, ht, State.taken, takeCommand, sendPsdo, psdoBytes, hi, hd,
    State.elapse, frameLength]

/-- A command frame in IDLE, for an owner that leaves the port alone. -/
theorem commandFrame_idle (s : State) (dt code : Nat) (rest : PanelRest) (owner : State → Answer × State)
    (hp : s.portTakes = true) (hi : s.port.state = .idle)
    (ho : (owner (s.taken dt code rest)).2.port = (s.taken dt code rest).port) :
    commandFrame code rest owner (s.elapse dt) =
      (owner (s.taken dt code rest)).2.setPort (s.answered rest.bytes code (owner (s.taken dt code rest)).1.result.code
        (owner (s.taken dt code rest)).1.flags (owner (s.taken dt code rest)).1.data) := by
  have h1 : (s.elapse dt).portTakes = true := hp
  have h2 : (s.elapse dt).port.state = .idle := hi
  rw [← formReply_eq s _ dt code rest _ hi ho]
  simp only [commandFrame, h1, h2, if_true]
  rfl

/-- R185: the taking of a frame loses a waiting reply and sets the overrun mark, and forgets nothing else of it. -/
theorem takeCommand_reply (code : Nat) (rest : PanelRest) (s : State) (hr : s.port.state = .reply) :
    takeCommand code rest s = takeCommand code rest (s.setPort { s.port with state := .idle, overrun := true }) := by
  have h : (s.port.state == PortState.reply) = true := by rw [hr]; rfl
  simp only [takeCommand, State.setPort, h, Bool.or_true, Bool.true_or]

/-- R184, R185: a command frame in REPLY runs as in IDLE with the overrun mark set; PSDO sends the reply it found. -/
theorem commandFrame_reply (s : State) (code : Nat) (rest : PanelRest) (owner : State → Answer × State)
    (hp : s.portTakes = true) (hr : s.port.state = .reply) :
    commandFrame code rest owner s = sendPsdo s.port rest.before (frameLength rest)
      (commandFrame code rest owner (s.setPort { s.port with state := .idle, overrun := true })) := by
  have h1 : (s.setPort { s.port with state := .idle, overrun := true }).portTakes = true := hp
  simp only [commandFrame, hp, h1, hr, if_true, State.setPort_port]
  unfold answerCommand
  rw [takeCommand_reply code rest s hr]
  rfl

/-- R184: bytes clocked after the last parameter byte are ignored. -/
theorem parameters_append (n : Byte) (bytes extra : List Byte) (h : n.toNat ≤ bytes.length) :
    parameters (n :: bytes ++ extra) = parameters (n :: bytes) := by
  simp [parameters, declaredLength, List.take_append_of_le_length h]

/-- R184: of two command frames in IDLE with the same length byte and parameters, as with more bytes after the last
parameter, the second differs from the first in what PSDO sends alone. -/
theorem panelCommand_parameters {α : Type} (code len : Nat) (parse : State → List Byte → Option α)
    (act : α → State → Answer × State) (dt before : Nat) (bytes more : List Byte) (s : State)
    (hp : s.portTakes = true) (hi : s.port.state = .idle) (hd : declaredLength more = declaredLength bytes)
    (e : parameters more = parameters bytes) :
    panelCommand code len parse act dt ⟨more, before⟩ s =
      (panelCommand code len parse act dt ⟨bytes, before⟩ s).setPort
        { (panelCommand code len parse act dt ⟨bytes, before⟩ s).port with psdo := List.replicate (1 + more.length) 0 } := by
  have ht : ∀ v : State, takeCommand code ⟨more, before⟩ v = takeCommand code ⟨bytes, before⟩ v := by
    intro v
    simp only [takeCommand, e]
  have hc : ∀ v : State, checked code len parse act more v = checked code len parse act bytes v := by
    intro v
    unfold checked lengthOk
    rw [e, hd]
  have h1 : (s.elapse dt).portTakes = true := hp
  have h2 : (s.elapse dt).port.state = .idle := hi
  simp only [panelCommand, commandFrame, h1, h2, if_true, answerCommand, ht, hc, sendPsdo, psdoBytes, frameLength]
  rfl

/-- The checks of R187 pass and the owner acts. -/
theorem checked_ok {α : Type} {code len : Nat} {parse : State → List Byte → Option α} {act : α → State → Answer × State}
    {bytes : List Byte} {x : α} {v : State} (hv : v.startup.phase ≠ .configFault ∨ code = 1) (hl : bytes.length = len)
    (hn : len < 256) (hx : parse v bytes = some x) :
    checked code len parse act (byteOf len :: bytes) v = act x v := by
  have hd : declaredLength (byteOf len :: bytes) = len := by
    simp [declaredLength, byteOf, Nat.mod_eq_of_lt hn]
  have hb : parameters (byteOf len :: bytes) = bytes := by
    rw [parameters, hd, ← hl, List.drop_one, List.tail_cons, List.take_length]
  have hc : ¬(v.startup.phase = .configFault ∧ code ≠ 1) := by tauto
  simp [checked, hc, lengthOk, hd, hb, hl, hx]

/-- A panel command that passes its checks, for an owner that leaves the port alone. -/
theorem panelCommand_idle {α : Type} {code len : Nat} {parse : State → List Byte → Option α}
    {act : α → State → Answer × State} {dt before : Nat} {bytes : List Byte} {s : State} {x : α} (h : s.AtPanel)
    (hl : bytes.length = len) (hn : len < 256)
    (hx : parse (s.taken dt code ⟨byteOf len :: bytes, before⟩) bytes = some x)
    (ho : (act x (s.taken dt code ⟨byteOf len :: bytes, before⟩)).2.port =
      (s.taken dt code ⟨byteOf len :: bytes, before⟩).port) :
    panelCommand code len parse act dt ⟨byteOf len :: bytes, before⟩ s =
      (act x (s.taken dt code ⟨byteOf len :: bytes, before⟩)).2.setPort (s.answered (byteOf len :: bytes) code
        (act x (s.taken dt code ⟨byteOf len :: bytes, before⟩)).1.result.code
        (act x (s.taken dt code ⟨byteOf len :: bytes, before⟩)).1.flags
        (act x (s.taken dt code ⟨byteOf len :: bytes, before⟩)).1.data) := by
  have hv : (s.taken dt code ⟨byteOf len :: bytes, before⟩).startup.phase ≠ .configFault := State.running_phase h.1
  have hc := checked_ok (code := code) (act := act) (Or.inl hv) hl hn hx
  unfold panelCommand
  rw [commandFrame_idle s dt code _ _ (State.running_portTakes h.1) h.2 (by rw [hc]; exact ho), hc]

/-- A panel command whose owner answers and leaves the state alone. -/
theorem panelCommand_same {α : Type} {code len : Nat} {parse : State → List Byte → Option α}
    {act : α → State → Answer × State} {dt before : Nat} {bytes : List Byte} {s : State} {x : α} {a : Answer}
    (h : s.AtPanel) (hl : bytes.length = len) (hn : len < 256)
    (hx : parse (s.taken dt code ⟨byteOf len :: bytes, before⟩) bytes = some x)
    (ho : act x (s.taken dt code ⟨byteOf len :: bytes, before⟩) = (a, s.taken dt code ⟨byteOf len :: bytes, before⟩)) :
    panelCommand code len parse act dt ⟨byteOf len :: bytes, before⟩ s =
      (s.elapse dt).setPort (s.answered (byteOf len :: bytes) code a.result.code a.flags a.data) := by
  rw [panelCommand_idle h hl hn hx (by rw [ho]), ho]
  rfl

/-- A panel command whose owner answers and hands on what it did. -/
theorem panelCommand_after {α : Type} {code len : Nat} {parse : State → List Byte → Option α}
    {act : α → State → Answer × State} {dt before : Nat} {bytes : List Byte} {s u : State} {x : α} {a : Answer}
    (h : s.AtPanel) (hl : bytes.length = len) (hn : len < 256)
    (hx : parse (s.taken dt code ⟨byteOf len :: bytes, before⟩) bytes = some x)
    (ho : act x (s.taken dt code ⟨byteOf len :: bytes, before⟩) = (a, settle u))
    (hu : u.port = (s.taken dt code ⟨byteOf len :: bytes, before⟩).port) :
    After (u.setPort (s.answered (byteOf len :: bytes) code a.result.code a.flags a.data))
      (panelCommand code len parse act dt ⟨byteOf len :: bytes, before⟩ s) := by
  have hs : (settle u).port = u.port := (settle_after u).handed.port
  rw [panelCommand_idle h hl hn hx (by rw [ho]; exact hs.trans hu), ho]
  exact (settle_after u).setPort _

end Sys2Proof.Machine
end

