-- ==== Sys2Proof/Laws/Waiting.lean ====
section
/-! SUPPORT. The terms in which claims say what waits to be sent and how an output line is driven, told from the model's
own: a RELEASE_NOTICE, a STATUS, and an unforced line; and what follows a state in which nothing is left to hand on. -/

namespace Sys2Proof.Machine

/-- R163: the alarm level is the highest that an unmasked active source gives, and 0 with none. -/
theorem alarmLevel_spec (s : State) :
    (∀ x, s.isActive x = true → (s.source x).masked = false → 6 - x.cls.val ≤ s.alarmLevel) ∧
    (s.alarmLevel = 0 ∨ ∃ x, s.isActive x = true ∧ (s.source x).masked = false ∧ s.alarmLevel = 6 - x.cls.val) := by
  have gen : ∀ (xs : List Source) (n r : Nat),
      xs.foldl (fun n x => if s.isActive x && !(s.source x).masked then max n (6 - x.cls.val) else n) n = r →
      n ≤ r ∧ (∀ x ∈ xs, s.isActive x = true → (s.source x).masked = false → 6 - x.cls.val ≤ r) ∧
        (r = n ∨ ∃ x, s.isActive x = true ∧ (s.source x).masked = false ∧ r = 6 - x.cls.val) := by
    intro xs
    induction xs with
    | nil => intro n r hr; exact ⟨Nat.le_of_eq hr, fun _ h => by simp at h, .inl hr.symm⟩
    | cons y ys ih =>
      intro n r hr
      rw [List.foldl_cons] at hr
      by_cases hy : (s.isActive y && !(s.source y).masked) = true
      · rw [if_pos hy] at hr
        simp only [Bool.and_eq_true, Bool.not_eq_true'] at hy
        obtain ⟨h1, h2, h3⟩ := ih (max n (6 - y.cls.val)) r hr
        refine ⟨by omega, fun x hx ha hm => ?_, ?_⟩
        · rcases List.mem_cons.mp hx with rfl | hx
          · omega
          · exact h2 x hx ha hm
        · rcases h3 with h3 | h3
          · rcases Nat.le_total n (6 - y.cls.val) with hle | hle
            · exact .inr ⟨y, hy.1, hy.2, by omega⟩
            · exact .inl (by omega)
          · exact .inr h3
      · rw [if_neg hy] at hr
        obtain ⟨h1, h2, h3⟩ := ih n r hr
        refine ⟨h1, fun x hx ha hm => ?_, h3⟩
        rcases List.mem_cons.mp hx with rfl | hx
        · exact absurd (by simp [ha, hm]) hy
        · exact h2 x hx ha hm
  obtain ⟨_, h2, h3⟩ := gen Source.all 0 s.alarmLevel rfl
  exact ⟨fun x => h2 x (by cases x <;> decide), h3⟩

/-- R145: an unforced line at the level that its source gives it. -/
theorem unforced_of_driven (t : State) (l : Fin 12) (hf : (t.output l).forced = none)
    (hd : (t.output l).driven = t.driveLevel l) : Unforced t l := by
  have hl : (t.output l).driven = t.followLevel l := by rw [hd, State.driveLevel, hf]; rfl
  have key : ∀ v, t.img.outputs[l].source ≠ .noSource → t.sourceValue t.img.outputs[l].source = v →
      (t.output l).driven = (t.img.outputs[l].activeHigh == decide (t.img.outputs[l].threshold ≤ v)) := by
    intro v hs hv
    rw [hl, State.followLevel, hv]
    by_cases h : t.img.outputs[l].threshold ≤ v
    · rw [if_pos ⟨hs, h⟩, decide_eq_true h]; cases t.img.outputs[l].activeHigh <;> rfl
    · rw [if_neg (fun k => h k.2), decide_eq_false h]; cases t.img.outputs[l].activeHigh <;> rfl
  refine ⟨hf, fun h => ?_, fun h => ?_, fun h => ?_, fun n h hm hn => ?_, fun h => ?_⟩
  · rw [hl, State.followLevel, if_neg (fun k => k.1 h)]
  · exact key _ (by rw [h]; decide) (by rw [h]; rfl)
  · exact key _ (by rw [h]; decide) (by rw [h]; rfl)
  · refine key _ (by rw [h]; decide) ?_
    rw [h]
    obtain ⟨h1, h2⟩ := alarmLevel_spec t
    show t.alarmLevel = n
    rcases h2 with h2 | ⟨x, ha, hx, he⟩ <;> rcases hn with hn | ⟨y, hb, hy, hf⟩
    · omega
    · have := h1 y hb hy; omega
    · have := hm x ha hx; omega
    · have := h1 y hb hy; have := hm x ha hx; omega
  · exact key _ (by rw [h]; decide) (by rw [h]; rfl)

theorem maskOf_bit : ∀ (a b c d : Bool) (l : Fin 4),
    (maskOf (fun k => [a, b, c, d][k])).getLsbD l.val = [a, b, c, d][l] := by decide

theorem maskOf_getLsbD (f : Fin 4 → Bool) (l : Fin 4) : (maskOf f).getLsbD l.val = f l := by
  have h : maskOf f = maskOf (fun k => [f 0, f 1, f 2, f 3][k]) := rfl
  rw [h, maskOf_bit]
  fin_cases l <;> rfl

/-- R17, R77, R132, R139, R163, R171: what a STATUS says of the state. -/
theorem announces (s : State) : Announces s s.announcement := by
  obtain ⟨h1, h2⟩ := alarmLevel_spec s
  have hm : ∀ l : Fin 4, s.alarmMask.getLsbD l.val = ((s.line l).stage == .alarm) := fun l => maskOf_getLsbD _ l
  have hg : ∀ l : Fin 4, s.groupMask.getLsbD l.val = ((s.lineCfg l).group == .g2) := fun l => maskOf_getLsbD _ l
  have hs : s.stage = if s.role = .release then s.seq.stage else if s.role = .member then s.seq.mirror.stage
      else .normal := by
    unfold State.stage
    cases s.role <;> rfl
  unfold Announces State.announcement
  dsimp only
  refine ⟨rfl, rfl, rfl, rfl, rfl, hs, rfl, rfl, fun l => ⟨?_, ?_⟩, ?_, ?_, h1, h2, rfl⟩
  · rw [hm, beq_iff_eq]
  · rw [hg, beq_iff_eq]
  · simp [State.abortHeldFlag]
  · simp [State.duressActive]

/-- R69: the notice that waits is one of the state as it stands. -/
theorem noticeWaits_of (t : State) (h : ∃ e ∈ t.bus.queue, e.frame = noticeFrame t) : NoticeWaits t := by
  obtain ⟨e, he, hf⟩ := h
  have hr : ceilDiv t.ownRemaining 1000000 = ((if t.seq.stage = .countdown then t.seq.countdown.getD 0 - t.now
      else if t.seq.stage = .held then t.seq.frozen else 0) + 999999) / 1000000 := by
    have hn : ∀ n : Nat, n + 1000000 - 1 = n + 999999 := fun n => by omega
    have ho : t.ownRemaining = if t.seq.stage = .countdown then t.seq.countdown.getD 0 - t.now
        else if t.seq.stage = .held then t.seq.frozen else 0 := by
      unfold State.ownRemaining
      cases t.seq.stage <;> rfl
    rw [ceilDiv, hn, ho]
  exact ⟨e, he, by rw [hf, noticeFrame, hr]⟩

/-- R181: the STATUS that waits says what the state is. -/
theorem statusWaits_of (t : State) (h : ∃ e ∈ t.bus.queue, e.frame = .status t.announcement) : StatusWaits t := by
  obtain ⟨e, he, hf⟩ := h
  exact ⟨e, he, _, hf, announces t⟩

/-! ## What follows a settled state -/

theorem mem_sources (x : Source) : x ∈ Source.all := by cases x <;> decide

/-- R162: ALERT. -/
theorem alert_spec (s : State) :
    s.alert = true ↔ ∃ x ∈ Source.all, (s.source x).masked = false ∧ s.Asks x := by
  unfold State.alert
  rw [List.any_eq_true]
  refine exists_congr fun x => and_congr_right fun _ => ?_
  unfold State.isCandidate State.isPending State.Asks RemoteEntry.isDuress
  by_cases h : x = .peerDuress
  · simp [h, and_comm]
  · simp [h, and_comm]

/-- R140: the overlay. -/
theorem overlay_spec (s : State) : s.overlay = true ↔ s.Overlaid := by
  have hr : s.ann.remote.any s.inScope = true ↔ s.ScopedDuress := by
    rw [List.any_eq_true]
    refine exists_congr fun e => and_congr_right fun _ => ?_
    unfold State.inScope RemoteEntry.isDuress State.isMember
    cases s.img.scope <;> simp
  unfold State.overlay State.Overlaid
  rw [Bool.or_eq_true, hr]
  refine or_congr ?_ Iff.rfl
  unfold State.localRequest
  rw [List.any_eq_true]
  refine exists_congr fun x => and_congr_right fun _ => ?_
  unfold State.isActive State.isPending State.isInService
  by_cases h : x = .peerDuress
  · simp [h]
  · simp [h]

/-- R141: the effective posture follows. -/
theorem Settled.posture {s : State} (h : s.Settled) : s.PostureFollows := by
  have he := h.2.1
  unfold State.effectiveNow at he
  refine ⟨fun ho => ?_, fun ho => ?_⟩
  · rw [if_pos ((overlay_spec s).mpr ho)] at he
    exact he.symm
  · rw [if_neg (fun k => ho ((overlay_spec s).mp k))] at he
    exact he.symm

theorem any_lines (f : Fin 4 → Bool) : allLines.any f = true ↔ ∃ l, f l = true := by
  rw [List.any_eq_true]
  exact exists_congr fun l => and_iff_right (by fin_cases l <;> decide)

/-- R154: every level source has the condition of its rule. -/
theorem Settled.conditions {s : State} (h : s.Settled) : s.ConditionsFollow := by
  have hc : ∀ x, x.kind = .level → (s.source x).condition = s.levelCondition x := fun x hx =>
    (h.1 x (mem_levels.mpr hx)).symm
  have hs := shownStage_eq s
  unfold State.ConditionsFollow
  dsimp only
  refine ⟨?_, ?_, ?_, ?_, ?_, ?_, ?_, ?_, ?_, ?_, ?_, ?_, ?_, ?_, ?_, ?_⟩ <;> rw [hc _ rfl, State.levelCondition]
  · simp [hs]
  · simp [hs]
  · simp [hs]
  · simp
  · cases s.role <;> simp
  · simp
  · simp
  · rw [any_lines]; simp
  · rw [any_lines]; simp
  · simp
  · simp [and_assoc]
  · unfold State.releaseStation
    cases s.role <;> cases s.img.members.head? <;> simp
  · exact s.marked_iff
  · simp
end Sys2Proof.Machine
end

