-- ==== Sys2Proof/Tests/Slice0.lean ====
section
/-! SUPPORT. Tests of single commands on small states, expected from the manual's worked examples and rules; a smoke test
of every check of WellFormed; and, for every statement with hypotheses, a state and operands that meet them. -/

namespace Sys2Proof.Tests

open Sys2Proof Sys2Proof.Machine

set_option Elab.async false

/-! ## Small states -/

/-- The state a command answers. -/
def after (c : Instr) (s : State) : State :=
  match exec c s with
  | .next t => t
  | .fault _ => s
  | .refused _ => s

/-- A command that is neither refused nor faults answers that state. -/
theorem after_eq {c : Instr} {s : State}
    (h : (match exec c s with | .next _ => true | .fault _ => false | .refused _ => false) = true) :
    exec c s = .next (after c s) := by
  unfold after
  split at h <;> rename_i e
  · rw [e]
  · cases h
  · cases h

/-- A line of the worked example of chapter 1. -/
def cfg : LineCfg := { enable := true, group := .g1, v := 3, wt := 40, at_ := 120, qt := 320 }

/-- A member: address 12 of area 3, with release station 7 and member 19. -/
def img : Image :=
  { Image.blank with
    address := 12, role := .member, area := 3, members := [7, 19], twoDoors := true, period := 4, authorities := [5, 12]
    scope := .sameArea, startPosture := .opened
    modesA := Vector.replicate 5 { mode := .single, minClass := 3, floor := 0 }
    modesB := Vector.replicate 5 { mode := .pairedRemote, minClass := 3, floor := 0 }
    tr := 8, th := 30, tp := 30, lines := Vector.replicate 4 cfg, ko := 20, tc := 120, tpd := 30, tman := 10, tx := 10
    tab := 120, dv := 500, pv := 2000, tf := 10, ts := 600
    outputs := Vector.ofFn (fun l : Fin 12 =>
      { source := if l = 0 then .stage else .noSource, threshold := 3, activeHigh := true })
    lockdown := Vector.ofFn (fun k : Fin 32 => k.val == 4 || k.val == 5) }

/-- The release station of the area: address 7, with members 12 and 19. -/
def relImg : Image := { img with address := 7, role := .release, members := [12, 19] }

/-- A station in RUN with an image. -/
def inRun (i : Image) : State :=
  { State.reset with
    image := some i, startup := { State.reset.startup with phase := .run, initTimer := none } }

/-- The member in RUN. -/
def mem : State := inRun img

/-- The release station in RUN. -/
def rel : State := inRun relImg

/-- A station whose area is known to be empty: its roster is swept and both its members are heard to be. -/
def emptied (s : State) : State :=
  { s with
    roster := { entries := [], doubtful := false, cause := .noCause }
    peers := Vector.replicate 48 { Peer.reset with presence := .live, statusHeard := true, silence := some 3000000 }
    seq := { s.seq with occupied := false } }

/-- The station's stage becomes `st`. -/
def atStage (st : Stage) (s : State) : State := s.setSeq { s.seq with stage := st }

/-- The levels on the line for a frame from a station. -/
def sent (a : Nat) (f : Frame) : List Bool := f.lineBits a

/-- An announcement of station 7 as the area's release station. -/
def said : Announcement := { Announcement.reset with role := .release, area := 3, period := 4 }

/-- The bytes of an image before its CRC: `role` is byte 1 (bits 7 and 6 the role), `opts` byte 5 (bit 7 reference, bit 4
two doors). -/
def imageBytes (role opts : Nat) : List Nat :=
  [12, role, 7, 19, 0, opts, 4, 5, 9, 0, 0, 0x81] ++ [0x31, 0x31, 0x31, 0x32, 0x05, 0x31, 0x31, 0x31, 0x32, 0x05] ++
    [0, 0, 0, 0, 0] ++ [8, 0, 30, 30] ++ [0x83, 40, 120, 1, 64] ++ [0x83, 40, 120, 1, 64] ++ [0x93, 40, 120, 1, 64] ++
    [0x03, 40, 120, 0, 0] ++ [20, 0, 120, 30, 10, 10, 0, 120, 1, 0xf4, 7, 0xd0, 10, 2, 0x58] ++
    [4, 3, 6, 1, 0, 0, 0, 0, 0, 0, 0, 0] ++ [0x9A, 0x3C, 0, 0, 0, 0] ++ [0x30, 0, 0, 0] ++ [0, 0, 0, 0, 0, 0]

/-- An image with its CRC. -/
def imageWith (role opts : Nat) : Vector Byte 96 :=
  let l := (imageBytes role opts).map byteOf
  let c := (crc16 (bitsOfBytes l)).toNat
  Vector.ofFn (fun i => (l ++ [byteOf (c / 256), byteOf (c % 256)]).getD i.val 0)

/-- The image of a member. -/
def imageFor (opts : Nat) : Vector Byte 96 := imageWith 0x43 opts

/-- A station in LOAD. -/
def loading : State := State.reset.setStartup { State.reset.startup with phase := .load, initTimer := none }

/-- A station in CLOCK with its limit running. -/
def clocking : State :=
  (inRun img).setStartup { mem.startup with phase := .clock, limit := some 50000, stable := 16383 }

/-- A door's state becomes `x`. -/
def withDoor (d : DoorId) (x : Door) (s : State) : State := s.setDoor d x

/-- A holder with no flags. -/
def who (id : Nat) : Holder := { id := id, cls := 4, escorted := false, escortCapable := false }

/-- An ENTRY credit of one holder. -/
def entry (id : Nat) : Credit := { kind := .entry, holders := [who id], granted := 0 }

/-- A credit of a kind. -/
def creditOf (k : CreditKind) (hs : List Holder) : Credit := { kind := k, holders := hs, granted := 0 }

/-- A door OPEN under a credit. -/
def openDoor (c : Credit) : Door :=
  { Door.reset with state := .opened, contactOpen := true, heldTimer := some 30000000, credit := some c }

/-- A door RELEASED under a credit. -/
def releasedDoor (c : Credit) : Door :=
  { Door.reset with state := .released, strike := true, window := some 8000000, credit := some c }

/-- A request that waits. -/
def waiting (c : Credit) (order : BitVec 16) : PendingRequest :=
  { credit := c, order := order, since := 1000000, wait := 9000000 }

/-- A reservation of holder 501 with tag 9. -/
def held : Reservation := { holder := 501, cls := 4, tag := 9, start := 0, window := 30000000 }

/-- A queued frame. -/
def queued (f : Frame) (n : Nat) : QueueEntry := { frame := f, order := n }

/-- The bus holds a queue, with the next order after it. -/
def withQueue (q : List QueueEntry) (s : State) : State := s.setBus { s.bus with queue := q, nextOrder := 100 }

/-- The time base stands at `n`. -/
def atTime (n : Nat) (s : State) : State := { s with now := n }

/-- Line 0 becomes `x`, its input high or low, at 10 s. -/
def onLine (x : Line) (high : Bool) (s : State) : State :=
  ((s.setLine 0 x).setPins { s.pins with det := s.pins.det.set 0 high }).reach 10000000

/-- A pulse that rises at 10 s, one second after the edge before. -/
def pulse : Pulse := { rise := 10000000, period := some 1000 }

/-- A seeded line steady at `16 * level`, with effective alarm level `alarm`, in WATCH, its pulse high. -/
def steady (level alarm : Nat) : Line :=
  { Line.reset with
    stage := .watch, seeded := true, smooth := 16 * level, level := level, effAlarm := alarm
    ring := List.replicate 8 (16 * level), pulse := some pulse, lastRise := some 10000000
    stuck := some 10050000, openTimer := some 12000000 }

/-- The effective posture becomes `p`. -/
def under (p : Posture) (s : State) : State := s.setPosture { s.posture with effective := p }

/-- A countdown that ends at `d`, its notice timer running. -/
def counting (d : Nat) : State :=
  let s := emptied rel
  s.setSeq { s.seq with
    stage := .countdown, latch := true, countdown := some d, notice := some 1000000, pattern := .fast, cadence := .on
    phaseEnd := some 250000 }

/-- A stage of the discharge, its valve, soak and flow as given. -/
def releasing : State :=
  let s := emptied rel
  s.setSeq { s.seq with stage := .releasing, latch := true, pattern := .continuous, cadence := .on }

/-- An unconsumed entry of the coincidence list, its window running. -/
def detected (station : Nat) (line : Fin 4) (g : Group) : Detection :=
  { station := station, line := line, group := g, arrival := 0, consumed := false, window := some 120000000 }

/-- The list becomes `l`. -/
def withList (l : List Detection) (s : State) : State := s.setSeq { s.seq with list := l }

/-- A roster entry without flags. -/
def inside (id : Nat) : RosterEntry := { holder := who id, time := 0 }

/-- The roster becomes `l`, not in doubt. -/
def withRoster (l : List RosterEntry) (s : State) : State :=
  s.setRoster { entries := l, doubtful := false, cause := .noCause }

/-- An entry of the remote alarm list. -/
def told (station : Nat) (kind : RemoteKind) : RemoteEntry :=
  { station := station, kind := kind, arrival := 0, acked := false }

/-- The remote list becomes `l`. -/
def withRemote (l : List RemoteEntry) (s : State) : State := s.setAnn { s.ann with remote := l }

/-- A source is pending. -/
def raised (x : Source) (s : State) : State := s.setSource x { s.source x with pending := true }

/-- A source is in-service. -/
def serviced (x : Source) (s : State) : State := s.setSource x { s.source x with inService := true }

/-- The first two bytes of the waiting reply: code and result. -/
def replied (s : State) : List Byte := (s.port.reply.getD []).take 2

/-- The data of the waiting reply. -/
def replyData (s : State) : List Byte := (s.port.reply.getD []).drop 4

/-- The level taken of a filtered input is `x`, and its pin has left it: the filter runs to `t`. -/
def filtering (i : Input) (x : Bool) (t : Nat) (s : State) : State :=
  s.setPins ((s.pins.take i x).setFilter i (some t))

/-! ## WellFormed: each check refuses an ill-formed command -/

theorem wf_silence_low : (Instr.silenceTimerExpiry 0).wf = false := by decide
theorem wf_silence_high : (Instr.silenceTimerExpiry 49).wf = false := by decide
theorem wf_silence_good : (Instr.silenceTimerExpiry 48).wf = true := by decide
theorem wf_window_low : (Instr.windowTimerExpiry 0 0).wf = false := by decide
theorem wf_window_high : (Instr.windowTimerExpiry 49 3).wf = false := by decide
theorem wf_status_kind : (Instr.statusFrame 0 (sent 7 .query)).wf = false := by decide +kernel
theorem wf_status_good : (Instr.statusFrame 0 (sent 7 (.status said))).wf = true := by decide +kernel
theorem wf_query_kind : (Instr.queryFrame 0 (sent 7 (.posture 1 1))).wf = false := by decide +kernel
theorem wf_detect_kind : (Instr.detectFrame 0 (sent 7 .query)).wf = false := by decide +kernel
theorem wf_call_kind : (Instr.releaseCallFrame 0 (sent 7 .query)).wf = false := by decide +kernel
theorem wf_notice_kind : (Instr.releaseNoticeFrame 0 (sent 7 .query)).wf = false := by decide +kernel
theorem wf_confirm_kind : (Instr.confirmFrame 0 (sent 7 .query)).wf = false := by decide +kernel
theorem wf_posture_kind : (Instr.postureFrame 0 (sent 7 .query)).wf = false := by decide +kernel
theorem wf_duress_kind : (Instr.duressFrame 0 (sent 7 .query)).wf = false := by decide +kernel
theorem wf_discard_of_good_frame : (Instr.receiveDiscard 0 (sent 7 .query)).wf = false := by decide +kernel
theorem wf_discard_of_no_bits : (Instr.receiveDiscard 0 []).wf = true := by decide
theorem wf_unknown_low : (Instr.unknownCommand 0 21 ⟨[], 0⟩).wf = false := by decide
theorem wf_unknown_high : (Instr.unknownCommand 0 256 ⟨[], 0⟩).wf = false := by decide
theorem wf_unknown_before : (Instr.unknownCommand 0 22 ⟨[], 2⟩).wf = false := by decide
theorem wf_command_before : (Instr.latchTimes 0 ⟨[0], 3⟩).wf = false ∧ (Instr.latchTimes 0 ⟨[0], 2⟩).wf = true := by decide
theorem wf_reply_read_empty : (Instr.replyRead 0 0 0).wf = false := by decide
theorem wf_reply_read_before : (Instr.replyRead 0 3 4).wf = false := by decide

/-! ## Decode: the table gives no bits -/

theorem decode_spells_nothing : decodeTableWord 8 1 = none := by decide

theorem with_fetch_word_is_unchanged : State.reset.withFetchWord 8 1 = State.reset := by decide +kernel

/-! ## Start-up (chapter 12) -/

/-- R192: a power-on reset sets the cold-start flag. -/
theorem test_power_on_reset : (after .powerOnReset (loading.setStartup { loading.startup with coldStart := false })).startup
    = { State.reset.startup with initTimer := some 1000 } := by decide +kernel

/-- R192: a pin reset leaves the cold-start flag, and discards the image. -/
theorem test_pin_reset :
    let t := after .pinReset (mem.setStartup { mem.startup with coldStart := false })
    t.startup.coldStart = false ∧ t.image = none ∧ t.startup.phase = .init := by decide +kernel

/-- R192: INIT lasts 1 ms. -/
theorem test_init_expiry : let t := after .initExpiry State.reset
    t.now = 1000 ∧ t.startup.phase = .load := by decide +kernel

set_option maxRecDepth 100000 in
/-- R193, R196: with the reference fitted the station waits in CLOCK for at most 50 ms. -/
theorem test_load_waits_for_the_reference :
    let t := after (.imageLoadComplete 2000 (imageFor 0x90)) loading
    t.startup.phase = .clock ∧ t.startup.limit = some 52000 ∧ t.loadEnd = 2000 := by decide +kernel

/-- In LOAD with every input of the sequence and every alarm input made or open. -/
def pressed : State := loading.setPins { loading.pins with
  abort := true, manrel := true, dur1 := true, dur2 := true, tamperOpen := true }

set_option maxRecDepth 100000 in
/-- R53, R73, R156: a member calls ABORT_ON, asks for no manual release, and tells both duress buttons. -/
theorem test_load_inputs :
    let t := after (.imageLoadComplete 2000 (imageFor 0x10)) pressed
    t.bus.queue.map (fun e => e.frame) = [.releaseCall 3 1, .duress 4 true 3, .duress 5 true 3] ∧
      (t.source .manualRelease).pending = true ∧ t.seq.abortSet = [] := by decide +kernel

set_option maxRecDepth 100000 in
/-- R53, R58: at a release station the own address joins the abort set. -/
theorem test_load_inputs_release :
    let t := after (.imageLoadComplete 2000 (imageWith 0x83 0x10)) pressed
    t.role = .release ∧ t.seq.abortSet = [12] ∧ t.seq.abortStuck = some 120002000 ∧ t.seq.stage = .normal := by
  decide +kernel

set_option maxRecDepth 100000 in
/-- R194: a CRC that disagrees. -/
theorem test_load_fails_its_crc :
    let t := after (.imageLoadComplete 2000 ((imageFor 0x90).set 0 13)) loading
    t.startup.phase = .configFault ∧ t.startup.loadResult = .crc ∧ t.image = none := by decide +kernel

/-- R196: the 16384th reference cycle. -/
theorem test_reference_cycle : let t := after (.referenceCycle 31) clocking
    t.startup.clock = .external ∧ t.startup.phase = .join ∧ t.startup.join = some 8000031 := by decide +kernel

/-- R196: a gap returns the count to 0. -/
theorem test_reference_gap : (after (.referenceGap 1000) clocking).startup.stable = 0 := by decide +kernel

/-- R196: the limit expires first. -/
theorem test_clock_limit : let t := after .clockLimitExpiry clocking
    t.startup.fallback = true ∧ t.startup.clock = .internal ∧ t.startup.join = some 8050000 := by decide +kernel

/-- R197: the missed millisecond is added. -/
theorem test_clock_fallback :
    let t := after (.clockFallback 500) (mem.setStartup { mem.startup with clock := .external })
    t.now = 1500 ∧ t.startup.clock = .internal ∧ (t.source .clockFallback).pending = true := by decide +kernel

/-- A station in JOIN with 8 s to run. -/
def joining : State := mem.setStartup { mem.startup with phase := .join, join := some 8000000 }

/-- R198, R181: station 12 waits 240 ms for its first STATUS. -/
theorem test_join : let t := after .joinTimerExpiry joining
    t.startup.phase = .run ∧ t.bus.firstStatus = some 8240000 := by decide +kernel

/-! ## Detector lines (chapter 1) -/

/-- R2, R6, R7: an edge starts both timers. -/
theorem test_rising_edge : let t := after (.detectorRisingEdge 5 0) mem
    (t.line 0).stuck = some 50005 ∧ (t.line 0).openTimer = some 2000005 ∧ t.pins.det[0] = true := by decide +kernel

/-- Chapter 1, first example, reading 5 under CLOSED: S 2105, L 131, Q 1465, c 3, ALARM, and the ring. -/
theorem test_fifth_reading_alarms :
    let x := { steady 122 100 with smooth := 1953, count := 2, ring := [640, 640, 640, 640, 1120, 1480, 1750, 1953] }
    let y := (after (.detectorFallingEdge 2660 0) (onLine x true (under .closed mem))).line 0
    y.lastReading = 160 ∧ y.smooth = 2105 ∧ y.level = 131 ∧ y.rise = 1465 ∧ y.count = 3 ∧ y.stage = .alarm ∧
      y.ring = [640, 640, 640, 1120, 1480, 1750, 1953, 2105] := by decide +kernel

/-- Chapter 1, second example, pulse 5: the ring is refilled from S, and S becomes 1740. -/
theorem test_pulse_after_a_fault_refills :
    let y := (after (.detectorFallingEdge 2260 0) (onLine { steady 100 120 with refill := true } true mem)).line 0
    y.smooth = 1740 ∧ y.level = 108 ∧ y.rise = 140 ∧ y.ring = List.replicate 7 1600 ++ [1740] ∧ y.stage = .watch := by
  decide +kernel

/-- R2, R3: a pulse that reaches 4500 µs is long. -/
theorem test_long_pulse : let y := (after (.longPulse 0) (onLine (steady 40 120) true mem)).line 0
    y.lastWidth = 4500 ∧ y.pulse = none ∧ y.smooth = 640 := by decide +kernel

/-- R6, R8: a line high for 50 ms is stuck. -/
theorem test_stuck : let y := (after (.stuckTimerExpiry 0) (onLine (steady 40 120) true mem)).line 0
    y.fault = .stuck ∧ y.stage = .fault ∧ y.entries = 1 := by decide +kernel

/-- Chapter 1, second example, first row: the cable is cut. -/
theorem test_open : let y := (after (.openTimerExpiry 0) (onLine { steady 100 120 with pulse := none } false mem)).line 0
    y.fault = .opened ∧ y.clearing = 0 ∧ y.stage = .fault ∧ y.smooth = 1600 ∧ y.entries = 1 := by decide +kernel

/-- A line in ALARM at a level. -/
def alarmed (level : Nat) : State := onLine { steady level 120 with stage := .alarm, count := 3 } true mem

/-- Chapter 1, third example: STILL_ACTIVE at 125. -/
theorem test_reset_detection_still_active : let t := after (.resetDetection 0 ⟨[1, 0], 0⟩) (alarmed 125)
    replied t = [12, 19] ∧ (t.line 0).stage = .alarm := by decide +kernel

/-- Chapter 1, third example: RESET at 110 leads to WATCH with c 0. -/
theorem test_reset_detection_accepted : let t := after (.resetDetection 0 ⟨[1, 0], 0⟩) (alarmed 110)
    replied t = [12, 0] ∧ (t.line 0).stage = .watch ∧ (t.line 0).count = 0 := by decide +kernel

/-- R21: READ_DETECTOR gives 35 bytes, the ring last. -/
theorem test_read_detector : replied (after (.readDetector 0 ⟨[1, 0], 0⟩) (alarmed 110)) = [13, 0] := by decide +kernel

/-! ## The Peer View (chapter 2) -/

/-- Chapter 2, first example: a period of 4 gives 3000 ms. -/
theorem test_status : let p := (after (.statusFrame 0 (sent 7 (.status said))) mem).peer 7
    p.presence = .live ∧ p.silence = some 3000000 ∧ p.said = said := by decide +kernel

/-- Chapter 2, first example: 3000 ms without a STATUS: SILENT, and PEER_SILENT is true. -/
theorem test_silence : let t := after (.silenceTimerExpiry 12) (emptied rel)
    (t.peer 12).presence = .silent ∧ (t.source .peerSilent).condition = true ∧ t.seq.occupied = true ∧
      t.now = 3000000 := by decide +kernel

/-- R34: a QUERY is answered by a STATUS. -/
theorem test_query : (after (.queryFrame 0 (sent 7 .query)) (mem.setBus { mem.bus with announcing := true })).bus.queue.any
    (fun e => e.frame.kind == 6) = true := by decide +kernel

/-- R35: an address never heard. -/
theorem test_read_peer : replied (after (.readPeer 0 ⟨[1, 48], 0⟩) mem) = [21, 0] := by decide +kernel

/-! ## Coincidence (chapter 3) -/

/-- Chapter 3, first example, at 150: 19's group 2 detection completes coincidence, and all three are consumed. -/
theorem test_detect_completes :
    let t := after (.detectFrame 0 (sent 19 (.detect 3 0 2 true 130))) (withList [detected 12 2 .g1, detected 7 1 .g1]
      (atStage .firstAlarm rel))
    t.seq.latch = true ∧ t.seq.list.map (fun e => (e.station, e.consumed)) = [(12, true), (7, true), (19, true)] := by
  decide +kernel

/-- Chapter 3, first example, at 160: a withdrawal leaves a consumed entry. -/
theorem test_withdrawal_of_a_consumed_entry :
    let q := [{ detected 12 2 .g1 with consumed := true, window := none }, { detected 19 0 .g2 with consumed := true, window := none }]
    let s := withList q ((atStage .inhibited rel).setSeq { (atStage .inhibited rel).seq with latch := true })
    (after (.detectFrame 0 (sent 12 (.detect 3 2 1 false 0))) s).seq.list = q := by decide +kernel

/-- R44: a window ends. -/
theorem test_window : (after (.windowTimerExpiry 19 0) (withList [detected 19 0 .g2] (atStage .firstAlarm rel))).seq.list
    = [] := by decide +kernel

/-! ## The discharge sequence (chapter 4) -/

/-- Chapter 4, first example, at 17.6: ABORT_ON from member 12 freezes 12.400 s. -/
theorem test_abort_on : let t := after (.releaseCallFrame 17600000 (sent 12 (.releaseCall 3 1))) (counting 30000000)
    t.seq.stage = .held ∧ t.seq.frozen = 12400000 ∧ t.seq.abortSet = [12] := by decide +kernel

/-- The sequence held by station 12 with 12.400 s, under EXTEND. -/
def heldBy12 : State :=
  let s := counting 30000000
  let s := { s with image := some { relImg with abortMode := .extend } }
  s.setSeq { s.seq with stage := .held, countdown := none, frozen := 12400000, abortSet := [12] }

/-- Chapter 4, first example, at 37.6: EXTEND gives 22.400 s. -/
theorem test_abort_off : let t := after (.releaseCallFrame 37600000 (sent 12 (.releaseCall 3 2))) heldBy12
    t.seq.stage = .countdown ∧ t.seq.countdown = some 60000000 ∧ t.seq.abortSet = [] := by decide +kernel

/-- R58: the own ABORT input joins the set. -/
theorem test_own_abort : (after (.abortInputChange .held true) (filtering .abort false 0 heldBy12)).seq.abortSet = [12, 7] := by
  decide +kernel

/-- Chapter 4, first example, at 42.6: MANREL shortens 17.400 s to 10.000 s. -/
theorem test_manual_release :
    let t := after (.manrelMade .held true) (filtering .manrel false 42600000 (counting 60000000))
    t.seq.countdown = some 52600000 ∧ (t.source .manualRelease).pending = true := by decide +kernel

/-- R61: the set stays filled for Tab. -/
theorem test_abort_stuck :
    let t := after .abortStuckExpiry (heldBy12.setSeq { heldBy12.seq with abortStuck := some 120000000 })
    (t.source .abortStuck).pending = true ∧ t.seq.stage = .held := by decide +kernel

/-- Chapter 4, first example, at 52.6: RELEASING, with the valve after Dv. -/
theorem test_countdown : let t := after .countdownExpiry (counting 52600000)
    t.seq.stage = .releasing ∧ t.seq.valveDelay = some 53100000 ∧ t.seq.valve = false ∧ t.seq.notice = none := by
  decide +kernel

/-- Chapter 4, first example, at 53.1: the valve is energised. -/
theorem test_valve_delay :
    let t := after .valveDelayExpiry (releasing.setSeq { releasing.seq with valveDelay := some 53100000 })
    t.seq.valve = true ∧ t.seq.valvePulse = some 55100000 ∧ t.seq.flowWait = some 63100000 := by decide +kernel

/-- Chapter 4, first example, at 55.1: DISCHARGED, with the soak to 655.1. -/
theorem test_valve_pulse :
    let t := after .valvePulseExpiry (releasing.setSeq { releasing.seq with valve := true, valvePulse := some 55100000 })
    t.seq.stage = .discharged ∧ t.seq.valve = false ∧ t.seq.soak = some 655100000 := by decide +kernel

/-- Chapter 4, first example, at 54.3: FLOW confirms. -/
theorem test_flow :
    let t := after (.flowMade .held true) (filtering .flow false 54300000
      (releasing.setSeq { releasing.seq with flowWait := some 63100000 }))
    t.seq.flowConfirmed = true ∧ t.seq.flowWait = none := by decide +kernel

/-- R66: no flow within Tf. -/
theorem test_flow_wait :
    (((after .flowWaitExpiry (releasing.setSeq { releasing.seq with flowWait := some 63100000 })).source .releaseFailure).pending)
      = true := by decide +kernel

/-- Chapter 4, first example, at 655.1: VENTED, the sounder off. -/
theorem test_soak :
    let t := after .soakTimerExpiry ((atStage .discharged releasing).setSeq { (atStage .discharged releasing).seq with
      soak := some 655100000 })
    t.seq.stage = .vented ∧ t.seq.cadence = .off := by decide +kernel

/-- R68: the valve circuit opens at a release station. -/
theorem test_valve_circuit :
    ((after (.vsupChange 0 true) rel).source .releaseCircuit).condition = true := by decide +kernel

/-- R69: a notice each second. -/
theorem test_notice_timer : let t := after .noticeTimerExpiry (counting 30000000)
    t.seq.notice = some 2000000 ∧ t.bus.queue.map (fun e => e.frame) = [.releaseNotice 3 5 29 false] := by decide +kernel

/-- R70: at a member the command is refused NOT_RELEASE_STATION. -/
theorem test_suppression_reset : replied (after (.suppressionReset 0 ⟨[0], 0⟩) mem) = [14, 23] ∧
    (after (.suppressionReset 0 ⟨[0], 0⟩) heldBy12).seq.stage = .normal := by decide +kernel

/-- R71: isolated from NORMAL. -/
theorem test_suppression_isolate : let t := after (.suppressionIsolate 0 ⟨[1, 1], 0⟩) rel
    replied t = [15, 0] ∧ t.seq.stage = .isolated := by decide +kernel

/-- Chapter 4, second example, last rows: RELEASING raises DISCHARGE at a member, and lockout is on. -/
theorem test_notice : let t := after (.releaseNoticeFrame 0 (sent 7 (.releaseNotice 3 6 0 false))) mem
    t.seq.mirror.stage = .releasing ∧ (t.source .discharge).pending = true ∧ t.doors.a.lockout = true ∧
      t.seq.pattern = .continuous := by decide +kernel

/-- R74: the fast pattern: 250 ms each. -/
theorem test_cadence : let t := after .cadencePhaseExpiry (counting 30000000)
    t.seq.cadence = .gap ∧ t.seq.phaseEnd = some 500000 := by decide +kernel

/-! ## Doors (chapter 5) -/

/-- R80: a contact bounces: the first move starts the filter, the return within 20 ms stops it, the next starts it anew. -/
theorem test_filter :
    let s := after (.doorContactOpens (.moves 1000000) .a) mem
    let t := after (.doorContactCloses (.moves 19999) .a) s
    s.pins.filter .dca = some 1020000 ∧ s.pins.dcaOpen = false ∧ t.pins.filter .dca = none ∧ t.pins.dcaOpen = false ∧
      (after (.doorContactOpens (.moves 1) .a) t).pins.filter .dca = some 1040000 := by decide +kernel

/-- R80: 20 ms after the contact moved its opening is taken by the filter's own expiry, and the door is FORCED. -/
theorem test_filter_expires :
    (match step (filtering .dca false 1020000 mem) with
      | .next t => t.now == 1020000 && t.doors.a.state == .forced && t.pins.dcaOpen && t.pins.filter .dca == none
      | .fault _ => false
      | .refused _ => false) = true := by decide +kernel

/-- Chapter 5, first example, at 2.1: OPEN, strike off, held timer to 32.1. -/
theorem test_opens :
    let x := (after (.doorContactOpens .held .a) (filtering .dca false 2100000 (withDoor .a (releasedDoor (entry 4120)) mem))).doors.a
    x.state = .opened ∧ x.strike = false ∧ x.heldTimer = some 32100000 := by decide +kernel

/-- A door open under a credit, its contact open at the pin too. -/
def passing (c : Credit) (s : State) : State :=
  (withDoor .a (openDoor c) s).setPins (s.pins.take .dca true)

/-- The pin of a door contact has closed, and its filter runs to `t`. -/
def closing (t : Nat) (s : State) : State := filtering .dca true t s

/-- Chapter 5, first example, at 5.4: SECURE, and 4120 on the roster. -/
theorem test_closes : let t := after (.doorContactCloses .held .a) (closing 5400000 (passing (entry 4120) (withRoster [] mem)))
    t.doors.a.state = .secure ∧ t.roster.entries = [{ holder := who 4120, time := 5 }] := by decide +kernel

/-- R89: a press releases a SECURE door. -/
theorem test_request_to_exit : let x := (after (.requestToExitPress .held .b true) (filtering .rexB false 0 mem)).doors.b
    x.state = .released ∧ x.credit.map Credit.kind = some .exitRequest ∧ x.window = some 8000000 := by decide +kernel

/-- R84: nobody came. -/
theorem test_window_of_a_release :
    let x := (after (.releaseWindowExpiry .a) (withDoor .a (releasedDoor (entry 4120)) mem)).doors.a
    x.state = .secure ∧ x.credit = none ∧ x.strike = false := by decide +kernel

/-- R85, R127: held open. -/
theorem test_held_open : let t := after (.heldTimerExpiry .a) (passing (entry 4120) (withRoster [] mem))
    t.doors.a.state = .heldOpen ∧ t.roster.cause = .doorAHeld ∧ t.roster.doubtful = true := by decide +kernel

/-- R91: a wait ends. -/
theorem test_wait : let x := (after (.pendingWaitExpiry .b)
      (withDoor .b { Door.reset with request := some (waiting (entry 602) 2) } mem)).doors.b
    x.request = none ∧ x.lastPending = .expired := by decide +kernel

/-! ## Entry rules (chapter 6) -/

/-- A presentation at door B, where the mode is PAIRED_REMOTE with minimum class 3. -/
def atB (id cls : Byte) : List Byte := [6, 1, 0, 0, id, cls, 0]

/-- Chapter 6, first example, at 0: PAIR_WAITING with the counter's tag. -/
theorem test_first_of_a_pair :
    let t := after (.presentCredential 0 ⟨atB 55 4, 0⟩) (mem.setEntry { mem.entry with tag := 17 })
    replied t = [7, 5] ∧ replyData t = [1, 17, 0] ∧ t.entry.tag = 18 ∧
      t.entry.resB.map Reservation.window = some 30000000 := by decide +kernel

/-- A reservation of holder 501 at door B. -/
def reserved : State := mem.setEntry { mem.entry with resB := some held }

/-- Chapter 6, first example, at 12: GRANTED_PAIR, both holders in the credit, the reserving one first. -/
theorem test_second_of_a_pair :
    let t := after (.presentCredential 12000000 ⟨atB 66 5, 0⟩) reserved
    replied t = [7, 2] ∧ replyData t = [1, 9, 2] ∧ t.entry.resB = none ∧
      t.doors.b.credit.map (fun c => c.holders.map Holder.id) = some [501, 66] := by decide +kernel

/-- R111: the window ends. -/
theorem test_pair_window : let t := after (.pairWindowExpiry .b) reserved
    t.entry.resB = none ∧ t.entry.brokenB = true ∧ t.now = 30000000 := by decide +kernel

/-- R115: CONFIRM_SENT. -/
theorem test_confirm_remote : let t := after (.confirmRemote 0 ⟨[6, 21, 0, 42, 1, 44, 6], 0⟩) mem
    replied t = [8, 7] ∧ t.bus.queue.map (fun e => e.frame) = [.confirm 21 0 42 300 6] := by decide +kernel

/-- Chapter 6, second example, at 14.1: the CONFIRM passes, and the door is released for the reserving holder alone. -/
theorem test_confirm : let t := after (.confirmFrame 0 (sent 9 (.confirm 12 1 9 300 6))) reserved
    t.entry.outcome.map PairOutcome.outcome = some .granted ∧
      t.doors.b.credit.map (fun c => c.holders.map Holder.id) = some [501] := by decide +kernel

/-- Chapter 6, second example: a tag that is not the reservation's. -/
theorem test_confirm_stale : let t := after (.confirmFrame 0 (sent 9 (.confirm 12 1 8 300 6))) reserved
    t.entry.outcome.map PairOutcome.outcome = some .tagStale ∧ t.entry.resB = some held := by decide +kernel

/-! ## Roster and postures (chapters 7 and 8) -/

/-- Chapter 7, first example, at 4900: two removed, and it was doubtful. -/
theorem test_sweep :
    let s := mem.setRoster { entries := [inside 310, inside 415], doubtful := true, cause := .anonymousExit }
    let t := after (.zoneSweep 0 ⟨[0], 0⟩) s
    t.port.reply = some [10, 0, 1, 1, 2] ∧ t.roster = { entries := [], doubtful := false, cause := .noCause } := by
  decide +kernel

/-- Chapter 7, first example, at 4800: door B is open. -/
theorem test_sweep_refused :
    replied (after (.zoneSweep 0 ⟨[0], 0⟩) (withDoor .b (openDoor (entry 5)) mem)) = [10, 20] := by decide +kernel

/-- R133: the roster is reported. -/
theorem test_read_roster : let t := after (.readRoster 0 ⟨[0], 0⟩) (withRoster [inside 310] mem)
    replied t = [11, 0] ∧ t.roster.entries = [inside 310] := by decide +kernel

/-- The view stands at NIGHT, an epoch and source 5. -/
def atEpoch (n : Byte) : State := mem.setPosture { mem.posture with
  view := { posture := .night, epoch := n, source := 5 }, effective := .night }

/-- Chapter 8, first example, first row: an authority's next epoch. -/
theorem test_set_posture : (after (.setPosture 0 ⟨[1, 2], 0⟩) (atEpoch 254)).posture.view
    = { posture := .closed, epoch := 255, source := 12 } := by decide +kernel

/-- R112, R131: a close breaks the reservation and finds the roster doubtful; a change downward tells nothing. -/
theorem test_close_hands_on :
    let t := after (.setPosture 0 ⟨[1, 2], 0⟩) reserved
    let s := (settle (mem.setPosture { mem.posture with view := { mem.posture.view with posture := .night } })).setSource
      .occupiedAtClose SourceState.reset
    t.reservation .b = none ∧ t.broken .b = true ∧ (t.source .pairBroken).pending = true ∧
      (t.source .occupiedAtClose).pending = true ∧
      ((after (.setPosture 0 ⟨[1, 0], 0⟩) s).source .occupiedAtClose).pending = false := by decide +kernel

/-- Chapter 8, first example, last row: epoch 0 follows 255 across the wrap. -/
theorem test_posture_wraps : (after (.postureFrame 0 (sent 5 (.posture 0 0))) (atEpoch 255)).posture.view
    = { posture := .opened, epoch := 0, source := 5 } := by decide +kernel

/-- Chapter 8, second example: a line that follows STAGE is PROTECTED. -/
theorem test_force_protected : replied (after (.forceOutput 0 ⟨[2, 0, 1], 0⟩) mem) = [18, 18] ∧
    ((after (.forceOutput 0 ⟨[2, 1, 1], 0⟩) mem).output 1).driven = true := by decide +kernel

/-- R147: the driven level has left the sense input: the timer runs for 500 ms; driven back, it stops. -/
theorem test_force_compared :
    let t := after (.forceOutput 7 ⟨[2, 1, 1], 0⟩) mem
    (t.output 1).mismatch = some 500007 ∧
      ((after (.releaseOutput 0 ⟨[1, 1], 0⟩) (t.setPort Port.reset)).output 1).mismatch = none := by decide +kernel

/-- R146: released, a line without a source is inactive. -/
theorem test_release_output : let s := mem.setOutput 1 { OutLine.reset with forced := some true, driven := true }
    ((after (.releaseOutput 0 ⟨[1, 1], 0⟩) s).output 1).driven = false := by decide +kernel

/-- R148: the outputs are reported. -/
theorem test_read_outputs : replied (after (.readOutputs 0 ⟨[0], 0⟩) mem) = [20, 0] := by decide +kernel

/-- R147: a sense input that disagrees. -/
theorem test_sense : ((after (.senseInputChange 0 3 true) mem).output 3).mismatch = some 500000 := by decide +kernel

/-- Chapter 8, second example, last paragraph: 500 ms later the mark is set and OUTPUT_FAULT true. -/
theorem test_mismatch :
    let t := after (.mismatchTimerExpiry 3) (mem.setOutput 3 { OutLine.reset with mismatch := some 500000 })
    (t.output 3).mark = true ∧ (t.source .outputFault).condition = true := by decide +kernel

/-! ## Alarms (chapter 9) -/

/-- Chapter 9, first example, at 102: DURESS_1 pending, the frame queued, the overlay on. -/
theorem test_duress : let t := after (.duressInputChange .held .dur1 true) (filtering .dur1 false 102000000 mem)
    (t.source .duress1).pending = true ∧ (t.source .duress1).raised = 102 ∧ t.posture.effective = .lockdown ∧
      (t.bus.queue.any (fun e => e.frame == .duress 4 true 3)) = true := by decide +kernel

/-- Chapter 9, first example, at 103: the tamper loop opens. -/
theorem test_tamper :
    ((after (.tamperInputChange .held true) (filtering .tamper false 103000000 mem)).source .tamper).pending = true := by
  decide +kernel

/-- Chapter 9, first example, at 125: 8 before 20, and class 2's order becomes 9, 12, 13, 20, 28, 8. -/
theorem test_next_alarm : let t := after (.nextAlarm 0 ⟨[0], 0⟩) (raised .doorAForced (raised .tamper mem))
    (replyData t).take 2 = [8, 2] ∧ (t.source .doorAForced).inService = true ∧
      t.ann.rotation[2].map (fun x => x.num.val) = [9, 12, 13, 20, 28, 8] := by decide +kernel

/-- Chapter 9, first example, at 160 and 170: refused while the button is held. -/
theorem test_restore : let s := serviced .duress1 mem
    replied (after (.restoreAlarm 0 ⟨[1, 4], 0⟩) (s.setPins { s.pins with dur1 := true })) = [3, 19] ∧
      replied (after (.restoreAlarm 0 ⟨[1, 4], 0⟩) s) = [3, 0] := by decide +kernel

/-- R160: class 0 cannot be masked. -/
theorem test_mask : replied (after (.maskAlarm 0 ⟨[2, 4, 1], 0⟩) mem) = [4, 18] ∧
    ((after (.maskAlarm 0 ⟨[2, 20, 1], 0⟩) mem).source .tamper).masked = true := by decide +kernel

/-- R165: the sources are reported. -/
theorem test_read_sources : replied (after (.readSources 0 ⟨[0], 0⟩) mem) = [5, 0] := by decide +kernel

/-- Chapter 9, second example, at 500: PEER_DURESS is pending and the overlay on. -/
theorem test_duress_frame : let t := after (.duressFrame 500000000 (sent 19 (.duress 4 true 3))) mem
    t.ann.remote = [{ told 19 .duress with arrival := 500 }] ∧ t.isPending .peerDuress = true ∧
      t.posture.effective = .lockdown := by decide +kernel

/-- R140, R141: its end returns the effective posture to the view's. -/
theorem test_duress_frame_ends :
    (after (.duressFrame 0 (sent 19 (.duress 4 false 3))) (settle (withRemote [told 19 .duress] mem))).posture.effective
      = .opened := by decide +kernel

/-- Chapter 9, second example, at 545: FIRST_ALARM entries are acknowledged. -/
theorem test_read_remote_list : let t := after (.readRemoteList 0 ⟨[0], 0⟩) (withRemote [told 30 .firstAlarm] mem)
    t.ann.remote = [{ told 30 .firstAlarm with acked := true }] := by decide +kernel

/-- A full remote list whose first entry alone is in scope, under LOCKDOWN, the roster occupied. -/
def lockedByOne : State :=
  under .lockdown (withRoster [inside 5]
    (withRemote (told 19 .duress :: (List.range 7).map (fun k => told (30 + k) .duress)) mem))

/-- R141, R166, R167: the eviction of the last entry in scope ends LOCKDOWN before the new one brings it back, so
OCCUPIED_AT_CLOSE is raised. -/
theorem test_eviction : let t := after (.duressFrame 0 (sent 7 (.duress 5 true 3))) lockedByOne
    t.posture.effective = .lockdown ∧ (t.source .occupiedAtClose).pending = true ∧ t.ann.overflow = true ∧
      t.ann.remote.map RemoteEntry.station = [30, 31, 32, 33, 34, 35, 36, 7] := by decide +kernel

/-! ## The zone bus (chapter 10) -/

/-- The frames of chapter 10's example. -/
def busy : List QueueEntry :=
  [queued (.duress 4 true 3) 5, queued (.detect 3 0 1 true 130) 6, queued (.status said) 4, queued .query 3]

/-- Chapter 10's example: 12 begins with its DURESS, once eleven recessive bits in a row have been read. -/
theorem test_begin : let t := after (.beginTransmission 0 (false :: List.replicate 11 true)) (withQueue busy mem)
    t.bus.inFlight = some (queued (.duress 4 true 3) 5) ∧ t.bus.queue = busy.drop 1 := by decide +kernel

/-- R169: not idle after reset; ten recessive bits are too few; the frame's seven end bits with the three recessive
ones before them, and one after them, are enough; and a dominant bit starts the count afresh. -/
theorem test_idle :
    let q := withQueue busy mem
    let s := after (.receiveDiscard 0 (sent 7 .query)) q
    (after (.beginTransmission 0 (List.replicate 10 true)) q).bus.inFlight = none ∧ s.bus.recessive = 10 ∧
      (after (.beginTransmission 0 [true]) s).bus.inFlight.isSome = true ∧
      (after (.beginTransmission 0 [true, true, true, false, true]) s).bus.inFlight = none := by decide +kernel

/-- The DURESS is in flight. -/
def sending : State :=
  let s := withQueue (busy.drop 1) mem
  s.setBus { s.bus with inFlight := some (queued (.duress 4 true 3) 5) }

/-- Chapter 10's example: lost to station 3, the DURESS returns to the head. -/
theorem test_arbitration_loss : let t := after (.arbitrationLoss 0) sending
    t.bus.inFlight = none ∧ (t.bus.queue.map (fun e => e.order)) = [5, 6, 4, 3] ∧ t.bus.abandoned = 0 := by decide +kernel

/-- A full queue: one frame of each kind from DURESS to QUERY. -/
def crowded : List QueueEntry :=
  [queued (.duress 4 true 3) 11, queued (.detect 3 0 1 true 130) 12, queued (.confirm 1 0 1 1 0) 13, queued (.posture 0 1) 14,
    queued (.status said) 15, queued .query 16]

/-- A full queue of DURESS frames. -/
def urgent : List QueueEntry := (List.range 6).map (fun k => queued (.duress 4 true 3) (11 + k))

/-- R173, R175: into a full queue a DURESS returns before its QUERY; a DETECT that is less urgent than all is dropped. -/
theorem test_overrun :
    let s := (withQueue crowded mem).setBus { (withQueue crowded mem).bus with inFlight := some (queued (.duress 4 true 3) 5) }
    let u := (withQueue urgent mem).setBus { (withQueue urgent mem).bus with inFlight := some (queued (.detect 3 0 1 true 1) 5) }
    let t := after (.arbitrationLoss 0) s
    let v := after (.arbitrationLoss 0) u
    t.bus.queue.map QueueEntry.order = [5, 11, 12, 13, 14, 15] ∧ (t.source .transmitOverrun).pending = true ∧
      v.bus.queue = urgent ∧ (v.source .transmitOverrun).pending = true := by decide +kernel

/-- Chapter 10's example, last row: the frame is abandoned and counted. -/
theorem test_own_bit_error : let t := after (.ownBitError ⟨0, [true, false]⟩) sending
    t.bus.inFlight = none ∧ t.bus.abandoned = 1 ∧ (t.bus.queue.map (fun e => e.order)) = [6, 4, 3] := by decide +kernel

/-- R176: the spell ends. -/
theorem test_quiet_spell : (after .quietSpellExpiry (mem.setBus { mem.bus with quiet := some 2000000 })).bus.quiet = none := by
  decide +kernel

/-- R177: a complete frame clears the count. -/
theorem test_complete : let t := after (.transmissionComplete 0) (sending.setBus { sending.bus with abandoned := 5 })
    t.bus.inFlight = none ∧ t.bus.abandoned = 0 := by decide +kernel

/-- R178: a stuck bus and its end. -/
theorem test_bus_stuck : let t := after (.busStuck 0) mem
    t.bus.stuck = true ∧ (t.source .busFault).condition = true ∧
      (after (.busStuckEnd 0) t).bus.stuck = false ∧ (after (.busStuckEnd 0) t).busIdle = true := by decide +kernel

/-- R179: a frame that fails its checks reaches nobody. -/
theorem test_discard : after (.receiveDiscard 7 ((sent 7 .query).drop 1)) mem =
    (mem.elapse 7).setBus { mem.bus with recessive := 10 } := by decide +kernel

/-- R181: the first STATUS, then every period of 4 units. -/
theorem test_first_status :
    let t := after .firstStatusDelayExpiry (mem.setBus { mem.bus with firstStatus := some 240000 })
    t.bus.announcing = true ∧ t.bus.statusTimer = some 1240000 ∧ (t.bus.queue.map (fun e => e.frame.kind)) = [6] := by
  decide +kernel

/-- R171: the STATUS says what the state is: one holder, and line 0 in ALARM, which fills the list (FIRST_ALARM, class 1). -/
theorem test_status_content :
    let s := (withRoster [inside 5] mem).setLine 0 { Line.reset with stage := .alarm }
    (after .firstStatusDelayExpiry (s.setBus { s.bus with firstStatus := some 240000 })).bus.queue.map (fun e => e.frame) =
      [.status { Announcement.reset with
        role := .member, area := 3, period := 4, count := 1, alarmMask := 1, alarmLevel := 5 }] := by decide +kernel

/-- Chapter 3, first example, at 121: the own line still in ALARM is inserted again. -/
theorem test_status_timer :
    let s := onLine { steady 130 120 with stage := .alarm } true mem
    (after .statusTimerExpiry (s.setBus { s.bus with statusTimer := some 10000000 })).seq.list
      = [{ detected 12 0 .g1 with arrival := 10000000, window := some 130000000 }] := by decide +kernel

/-- R169, R170: an address 0 on the line is no station's. -/
theorem test_address_zero : acceptBits (sent 0 .query) = none ∧ acceptBits (sent 48 .query) = some (48, .query) := by
  decide +kernel

/-! ## The panel port (chapter 11) -/

/-- A reply that waits. -/
def answeredState : State := mem.setPort { mem.port with state := .reply, reply := some [16, 0, 0, 0] }

/-- R184: the first byte chooses the command; three bits of a byte that is not whole are discarded. -/
theorem decode_panel :
    decodePanelFrame 5 0 (bitsOfBytes [0x0C, 1, 0xFF] ++ [true, false, true]) = some (.resetDetection 5 ⟨[1, 255], 0⟩) ∧
      decodePanelFrame 5 0 [false, false, false, false, false, false, false, true] = some (.getStatus 5 ⟨[], 0⟩) ∧
      decodePanelFrame 5 0 [false, false, false, true, false, true, true, false] = some (.unknownCommand 5 22 ⟨[], 0⟩) ∧
      decodePanelFrame 5 2 (bitsOfBytes [0, 0xAA, 7]) = some (.replyRead 5 3 2) ∧
      decodePanelFrame 5 0 [true, true, true, true, true, true, true] = none := by decide +kernel

/-- R179: a frame on the line is the command of its kind, and damaged it is a discard. -/
theorem decode_bus : decodeBusFrame 5 (sent 7 .query) = .queryFrame 5 (sent 7 .query) ∧
    decodeBusFrame 5 ((sent 7 .query).drop 1) = .receiveDiscard 5 ((sent 7 .query).drop 1) := by decide +kernel

/-- R179, R184: what arrives waits behind what waits. -/
theorem test_arrivals :
    (((State.reset.arrive .pinReset).arrivePanel 5 0 (bitsOfBytes [1, 0])).arriveBus 9 []).pending =
      [.pinReset, .getStatus 5 ⟨[0], 0⟩, .receiveDiscard 9 []] := by decide +kernel

/-- R186: the reply is read whole, and 0x00 follows it. -/
theorem test_reply_read : let t := after (.replyRead 0 5 0) answeredState
    t.port.psdo = [16, 0, 0, 0, 0] ∧ t.port.state = .idle := by decide +kernel

/-- R184, R185: a command of three bytes, the first begun before the waiting reply was formed. -/
theorem test_command_over_reply :
    let t := after (.getStatus 0 ⟨[0, 7], 1⟩) (mem.setPort { mem.port with state := .reply, reply := some [16, 1, 2, 3] })
    t.port.psdo = [0, 1, 2] ∧ t.port.reply.map (fun r => r.take 3) = some [1, 0, 128] := by decide +kernel

/-- R183: most significant bit first. -/
theorem test_psdo_bits : { Port.reset with psdo := [0x80, 0x05] }.psdoBits =
    [true, false, false, false, false, false, false, false, false, false, false, false, false, true, false, true] := by
  decide

/-- R187: code 22 is refused BAD_ARGUMENT. -/
theorem test_unknown : replied (after (.unknownCommand 0 22 ⟨[], 0⟩) mem) = [22, 24] := by decide +kernel

/-- R189: GET_STATUS is answered in CONFIG_FAULT. -/
theorem test_get_status :
    replied (after (.getStatus 0 ⟨[0], 0⟩) (loading.setStartup { loading.startup with phase := .configFault })) = [1, 0] := by
  decide +kernel

/-- Chapter 11's sequence, row 2, and row 4: the reply not read sets the overrun flag. -/
theorem test_latch_times : let t := after (.latchTimes 0 ⟨[0], 0⟩) mem
    t.port.snapshot.isSome = true ∧
      (after (.getStatus 0 ⟨[0], 0⟩) t).port.reply.map (fun r => r[2]?) = some (some 128) := by decide +kernel

/-- Chapter 11's sequence, row 7: READ_TIMES with bit 7 of the status byte set, and the snapshot empty. -/
theorem test_read_times :
    let s := mem.setPort { mem.port with snapshot := some {
      running := 0, countdown := 0, soak := 0, doorA := 0, doorB := 0, pairA := 0, pairB := 0 } }
    let t := after (.readTimes 0 ⟨[0], 0⟩) s
    (replyData t).head? = some 128 ∧ t.port.snapshot = none := by decide +kernel

/-! ## The statements' hypotheses are met: start-up and detector lines -/

theorem met_StepRunsTheFrontCommand :
    { State.reset with pending := [.powerOnReset, .pinReset] }.pending = Instr.powerOnReset :: [.pinReset] ∧
    (mem.pending = [] ∧ runningTimers mem = []) ∧ (State.reset.pending = [] ∧ runningTimers State.reset ≠ []) := by
  decide +kernel

set_option maxRecDepth 100000 in
theorem met_LoadStartsOrStops :
    (State.reset.startup.phase = .init ∧ State.reset.startup.initTimer = some 1000) ∧
    (loading.startup.phase = .load ∧ imageCheck (Vector.replicate 96 0) ≠ .ok) ∧ mem.startup.phase ≠ .load := by
  decide +kernel

/-- The inputs of both doors read open. -/
def bothOpen : State := loading.setPins { loading.pins with dcaOpen := true, dcbOpen := true, det := loading.pins.det.set 0 true }

set_option maxRecDepth 100000 in
/-- With two doors and the reference, with two doors, and with one door. -/
theorem met_LoadStartsOrStops_blocks :
    (bothOpen.startup.phase = .load ∧ bothOpen.seq = Sequencer.reset ∧ bothOpen.doors.a = Door.reset ∧
      bothOpen.doors.b = Door.reset ∧ bothOpen.pins.dcaOpen = true) ∧
    (imageCheck (imageFor 0x90) = .ok ∧ (imageOf (imageFor 0x90)).externalRef = true) ∧
    (imageCheck (imageFor 0x10) = .ok ∧ (imageOf (imageFor 0x10)).externalRef = false ∧
      (imageOf (imageFor 0x10)).twoDoors = true) ∧
    (imageCheck (imageFor 0) = .ok ∧ (imageOf (imageFor 0)).twoDoors = false) := by decide +kernel

set_option maxRecDepth 100000 in
/-- A release station's image, and a member's. -/
theorem met_LoadStartsOrStops_inputs :
    (pressed.startup.phase = .load ∧ pressed.seq = Sequencer.reset ∧ pressed.ann = Annunciator.reset ∧
      pressed.bus = Bus.reset ∧ pressed.posture = PostureUnit.reset ∧ pressed.pins.level (duressPin .dur2) = true) ∧
    (imageCheck (imageWith 0x83 0x10) = .ok ∧ (imageOf (imageWith 0x83 0x10)).role = .release) ∧
    (imageCheck (imageFor 0x10) = .ok ∧ (imageOf (imageFor 0x10)).role = .member) := by decide +kernel

/-- Running on the reference. -/
def onReference : State := mem.setStartup { mem.startup with clock := .external }

theorem met_ClockAndJoining :
    (clocking.startup.phase = .clock ∧ clocking.startup.limit.isSome = true ∧ clocking.startup.stable + 1 = 16384) ∧
    (let s := clocking.setStartup { clocking.startup with stable := 16382 };
      s.startup.phase = .clock ∧ s.startup.limit.isSome = true ∧ s.startup.stable + 1 ≠ 16384) ∧
    clocking.startup.limit = some 50000 ∧ (onReference.startup.clock = .external ∧ onReference.running = true) ∧
    (joining.startup.phase = .join ∧ joining.startup.join = some 8000000 ∧ joining.bus.queue.length ≤ 2) ∧
    (let s := rel.setStartup joining.startup;
      s.startup.phase = .join ∧ s.role = .release ∧ s.NoStart ∧ s.bus.queue.length ≤ 2) := by decide +kernel

/-- A line with both timers running, in a stage and a fault. -/
def timing (st : LineStage) (k : FaultKind) (high : Bool) : State :=
  onLine { steady 40 120 with stage := st, fault := k } high mem

theorem met_RisingEdgesAndLineTimers :
    (mem.pins.det[(3 : Fin 4)] = false ∧ mem.running = true ∧ (mem.lineCfg 3).enable = true) ∧
    (State.reset.pins.det[(0 : Fin 4)] = false ∧ ¬(State.reset.running = true ∧ (State.reset.lineCfg 0).enable = true)) ∧
    ((timing .watch .noFault true).line 0).pulse = some pulse ∧
    ((timing .alarm .noFault true).line 0).stuck = some 10050000 ∧ (timing .alarm .noFault true).pins.det[(0 : Fin 4)] = true ∧
    ((timing .watch .short true).line 0).fault ≠ .noFault ∧
    ((timing .watch .noFault false).line 0).openTimer = some 12000000 ∧
    (timing .watch .noFault false).pins.det[(0 : Fin 4)] = false := by decide +kernel

/-- The falling edge of a pulse that has ended as long, and one at reset. -/
theorem met_RisingEdgesAndLineTimers_falling :
    (let s := (timing .watch .noFault true).setLine 0 { steady 40 120 with pulse := none };
      s.pins.det[(0 : Fin 4)] = true ∧ s.running = true ∧ (s.lineCfg 0).enable = true ∧ (s.line 0).pulse = none) ∧
    (let s := State.reset.setPins { State.reset.pins with det := State.reset.pins.det.set 3 true };
      s.pins.det[(3 : Fin 4)] = true ∧ ¬(s.running = true ∧ (s.lineCfg 3).enable = true)) := by decide +kernel

theorem period_1000 : ∀ q, pulse.period = some q → 200 ≤ q := by
  intro q h
  cases h
  decide

/-- The shortest and the longest valid pulse, on a seeded line: the reading 0 below S, and 250 above it. -/
theorem met_ValidPulses :
    let s := onLine (steady 40 120) true mem
    s.running = true ∧ (s.lineCfg 0).enable = true ∧ s.pins.det[(0 : Fin 4)] = true ∧ (s.line 0).pulse = some pulse ∧
      60 ≤ s.now + 60 - pulse.rise ∧ s.now + 60 - pulse.rise < 4500 ∧ 60 ≤ s.now + 4499 - pulse.rise ∧
      s.now + 4499 - pulse.rise < 4500 ∧ (s.line 0).fault = .noFault ∧ (s.line 0).seeded = true ∧
      (s.line 0).refill = false ∧ (s.line 0).stage = .watch := by decide +kernel

theorem met_ValidPulses_refill : let s := onLine { steady 40 120 with refill := true, stage := .alarm } true mem
    (s.line 0).refill = true ∧ (s.line 0).stage = .alarm ∧ (s.line 0).pulse = some pulse := by decide +kernel

theorem met_ValidPulses_unseeded :
    let s := onLine { Line.reset with effAlarm := 120, pulse := some pulse } true mem
    s.running = true ∧ (s.lineCfg 0).enable = true ∧ s.pins.det[(0 : Fin 4)] = true ∧ (s.line 0).pulse = some pulse ∧
      60 ≤ s.now + 60 - pulse.rise ∧ s.now + 60 - pulse.rise < 4500 ∧ (s.line 0).fault = .noFault ∧
      (s.line 0).seeded = false ∧ (s.line 0).stage = .quiet := by decide +kernel

/-- A pulse of a period one below the least. -/
def early : Pulse := { pulse with period := some 199 }

/-- The longest short pulse, third in a row, and the shortest pulse that noise can be. -/
theorem met_DiscardsAndFaults_discard :
    let s := onLine { steady 40 120 with shortRun := 2, noiseRun := 2, pulse := some early } true mem
    s.running = true ∧ (s.lineCfg 0).enable = true ∧ s.pins.det[(0 : Fin 4)] = true ∧ (s.line 0).pulse = some early ∧
      s.now + 59 - early.rise < 60 ∧ (s.line 0).shortRun = 2 ∧ (s.line 0).noiseRun = 2 ∧ (s.line 0).fault = .noFault ∧
      60 ≤ s.now + 60 - early.rise ∧ s.now + 60 - early.rise < 4500 ∧ ∃ q ∈ early.period, q < 200 := by decide +kernel

theorem met_DiscardsAndFaults_in_fault :
    let s := onLine { steady 40 120 with fault := .opened, stage := .fault, clearing := 3 } true mem
    s.running = true ∧ (s.lineCfg 0).enable = true ∧ s.pins.det[(0 : Fin 4)] = true ∧ (s.line 0).pulse = some pulse ∧
      60 ≤ s.now + 4499 - pulse.rise ∧ s.now + 4499 - pulse.rise < 4500 ∧ (s.line 0).fault ≠ .noFault ∧
      (s.line 0).clearing = 3 ∧ (s.line 0).shortRun ≠ 2 := by decide +kernel

/-- The reset at one below the alarm level, a command that is not one, and MANREL made in ISOLATED. -/
theorem met_AlarmAndIsolationHold :
    (exec (.resetDetection 0 ⟨[1, 0], 0⟩) (alarmed 119) = .next (after (.resetDetection 0 ⟨[1, 0], 0⟩) (alarmed 119)) ∧
      ((alarmed 119).line 0).stage = .alarm ∧ ((alarmed 119).line 0).level < ((alarmed 119).line 0).effAlarm) ∧
    (exec (.getStatus 0 ⟨[0], 0⟩) (alarmed 119) = .next (after (.getStatus 0 ⟨[0], 0⟩) (alarmed 119))) ∧
    (let s := filtering .manrel false 0 (atStage .isolated rel);
      exec (.manrelMade .held true) s = .next (after (.manrelMade .held true) s) ∧ s.seq.stage = .isolated) :=
  ⟨⟨after_eq (by decide +kernel), by decide +kernel, by decide +kernel⟩, after_eq (by decide +kernel),
    after_eq (by decide +kernel), by decide +kernel⟩

/-- The state before reading 5 of chapter 1's first example. -/
def beforeFifth : State :=
  onLine { steady 122 100 with smooth := 1953, count := 2, ring := [640, 640, 640, 640, 1120, 1480, 1750, 1953] } true
    (under .closed mem)

/-- Eight entries of the list. -/
def full : List Detection :=
  (List.range 8).map (fun k => detected (20 + k / 4) ⟨k % 4, Nat.mod_lt k (by decide)⟩ .g1)

/-- Eight consumed entries. -/
def spent : List Detection := full.map (fun e => { e with consumed := true, window := none })

/-- The reading is taken at a station with an image, a stage and a list. -/
def fifthAt (i : Image) (st : Stage) (list : List Detection) : State :=
  withList list (atStage st { emptied beforeFifth with image := some i })

/-- The line becomes ALARM in a state. -/
abbrev Fires (s : State) : Prop :=
  exec (.detectorFallingEdge 2660 0) s = .next (after (.detectorFallingEdge 2660 0) s) ∧ (s.line 0).stage ≠ .alarm ∧
    ((after (.detectorFallingEdge 2660 0) s).line 0).stage = .alarm

/-- A member with seven entries. -/
theorem met_NewAlarmIsHandedOn :
    let s := fifthAt img .normal (full.drop 1)
    Fires s ∧ s.role = .member ∧ (∀ e ∈ s.seq.list, ¬(e.station = s.address ∧ e.line = 0)) ∧ s.seq.list.length < 8 ∧
      s.areaOccupied = s.seq.occupied ∧ s.bus.queue.length ≤ 3 :=
  ⟨⟨after_eq (by decide +kernel), by decide +kernel⟩, by decide +kernel⟩

theorem met_NewAlarmIsHandedOn_alone :
    let s := fifthAt { img with role := .noArea } .normal []
    Fires s ∧ s.role = .noArea := ⟨⟨after_eq (by decide +kernel), by decide +kernel⟩, by decide +kernel⟩

/-- At a release station: the first detection, one of ISOLATED, and one after coincidence. -/
theorem met_NewAlarmIsHandedOn_first :
    let s := fifthAt relImg .normal []
    let u := fifthAt relImg .isolated []
    let v := (fifthAt relImg .countdown spent).setSeq { (fifthAt relImg .countdown (spent.drop 1)).seq with latch := true }
    (Fires s ∧ s.role = .release ∧ s.areaOccupied = s.seq.occupied ∧ s.bus.queue.length ≤ 3 ∧
      ∀ e ∈ s.seq.list, e.group = (s.lineCfg 0).group) ∧
    (Fires u ∧ u.role = .release ∧ u.areaOccupied = u.seq.occupied) ∧
    (Fires v ∧ v.role = .release ∧ v.seq.latch = true ∧ v.seq.stage ≠ .normal ∧ v.seq.list.length < 8) :=
  ⟨⟨⟨after_eq (by decide +kernel), by decide +kernel⟩, by decide +kernel⟩,
    ⟨⟨after_eq (by decide +kernel), by decide +kernel⟩, by decide +kernel⟩,
    ⟨after_eq (by decide +kernel), by decide +kernel⟩, by decide +kernel⟩

/-- The detection that completes coincidence, by the area, the abort set and Tpd. -/
theorem met_NewAlarmIsHandedOn_met :
    let s := fifthAt relImg .firstAlarm [detected 19 0 .g2]
    let o := (withRoster [inside 5] s).setSeq { s.seq with occupied := true }
    (Fires s ∧ s.role = .release ∧ s.seq.latch = false ∧ (∃ e ∈ s.seq.list, e.group ≠ (s.lineCfg 0).group) ∧
      s.areaOccupied = false ∧ s.areaOccupied = s.seq.occupied ∧ s.seq.abortSet = [] ∧ s.img.tpd ≠ 0) ∧
    (Fires o ∧ o.areaOccupied = true ∧ o.areaOccupied = o.seq.occupied) ∧
    Fires (s.setSeq { s.seq with abortSet := [12] }) ∧
    Fires (fifthAt { relImg with tpd := 0 } .firstAlarm [detected 19 0 .g2]) :=
  ⟨⟨⟨after_eq (by decide +kernel), by decide +kernel⟩, by decide +kernel⟩,
    ⟨⟨after_eq (by decide +kernel), by decide +kernel⟩, by decide +kernel⟩,
    ⟨after_eq (by decide +kernel), by decide +kernel⟩, after_eq (by decide +kernel), by decide +kernel⟩

/-- At one below the alarm level, and at it. -/
theorem met_DetectionResetReleasesALine :
    let s := alarmed 119
    s.portTakes = true ∧ s.startup.phase ≠ .configFault ∧ s.port.state = .idle ∧ (0 : Byte).toNat = (0 : Fin 4).val ∧
      (s.line 0).stage = .alarm ∧ (s.line 0).level < (s.line 0).effAlarm ∧ s.role = .member ∧ s.seq.stage = .normal ∧
      s.bus.queue = [] ∧ ((alarmed 120).line 0).effAlarm ≤ ((alarmed 120).line 0).level := by decide +kernel

/-- Not in ALARM, and for all lines: one is reset, one is still active, and two are not in ALARM. -/
theorem met_DetectionResetReleasesALine_others :
    (mem.AtPanel ∧ (3 : Byte).toNat = (3 : Fin 4).val ∧ (mem.line 3).stage ≠ .alarm) ∧
    (let s := (alarmed 119).setLine 1 { steady 120 120 with stage := .alarm };
      s.AtPanel ∧ s.role ≠ .noArea ∧ s.bus.queue = [] ∧ (s.line 0).level < (s.line 0).effAlarm ∧ (s.line 0).stage = .alarm ∧ (s.line 1).stage = .alarm ∧
        (s.line 1).effAlarm ≤ (s.line 1).level ∧ (s.line 2).stage ≠ .alarm) := by decide +kernel

/-- A release station in a stage with line 0 in ALARM at a level that has fallen, and a list. -/
def fallen (st : Stage) (list : List Detection) : State :=
  withList list (atStage st (onLine { steady 110 120 with stage := .alarm, count := 3 } true rel))

/-- At a release station: the last entry, one of two, and one recorded after coincidence. -/
theorem met_DetectionResetReleasesALine_release :
    let own := detected 7 0 .g1
    let left : State → List Detection := fun s =>
      s.seq.list.filter (fun e => !(e.station == s.address && e.line == 0 && !e.consumed))
    let s := fallen .firstAlarm [own]
    let u := fallen .firstAlarm [detected 12 1 .g1, own]
    let v := fallen .countdown [{ detected 19 0 .g2 with consumed := true, window := none }, own]
    let c : Instr := .resetDetection 0 ⟨[1, 0], 0⟩
    (s.AtPanel ∧ s.role = .release ∧ (s.line 0).stage = .alarm ∧ (s.line 0).level < (s.line 0).effAlarm ∧ left s = [] ∧
      s.seq.list ≠ [] ∧ s.bus.queue = [] ∧ (after c s).seq.list = [] ∧ (after c s).seq.stage = .normal) ∧
    (left u ≠ [] ∧ left u ≠ u.seq.list ∧ (∀ e ∈ u.seq.list, ∀ x ∈ u.seq.list, e.group = x.group) ∧
      (after c u).seq.list = [detected 12 1 .g1] ∧ (after c u).seq.stage = .firstAlarm) ∧
    ((v.setSeq { v.seq with latch := true }).seq.latch = true ∧ v.seq.stage ≠ .normal ∧ v.NoStart) := by decide +kernel

/-! ## The statements' hypotheses are met: frames, peers, coincidence -/

/-- The receipt of a frame from a station. -/
def heard (a : Nat) (f : Frame) : FrameCall := { kind := f.kind, dt := 0, bits := sent a f }

/-- The lowest and the highest address. -/
theorem met_FramesReachThePeerView :
    Reaches (heard 48 (.status said)) mem 48 (.status said) ∧
    (frameCall (.queryFrame 0 (sent 1 .query)) = some (heard 1 .query) ∧ (heard 1 .query).kind ≠ 6 ∧
      Reaches (heard 1 .query) mem 1 .query) := by decide +kernel

theorem met_FramesWithoutEffect_ill :
    (frameCall (.queryFrame 0 []) = some { kind := 7, dt := 0, bits := [] } ∧ clocking.receiving = false ∧
      (mem.setBus { mem.bus with stuck := true }).bus.stuck = true) ∧
    ∀ a f, acceptBits [] = some (a, f) → f.kind ≠ 7 := by
  refine ⟨by decide +kernel, ?_⟩
  intro a f h
  exact absurd h (by rw [show acceptBits [] = none by decide +kernel]; exact nofun)

theorem met_FramesWithoutEffect_clash :
    frameCall (.queryFrame 0 (sent 12 .query)) = some (heard 12 .query) ∧ mem.receiving = true ∧ mem.bus.stuck = false ∧
      acceptBits (heard 12 .query).bits = some (mem.address, .query) := by decide +kernel

theorem met_SilenceIsMarkedAndTold :
    ((emptied rel).peer 12).silence = some 3000000 ∧ (emptied rel).startup.phase = .run ∧
    exec (.silenceTimerExpiry 12) (emptied rel) = .next (after (.silenceTimerExpiry 12) (emptied rel)) :=
  ⟨by decide +kernel, by decide +kernel, after_eq (by decide +kernel)⟩

/-- An announcement of another area whose station is in duress with its stage at ordinal 2. -/
def elsewhere : Announcement := { said with area := 4, stage := .firstAlarm, duressActive := true }

theorem met_QueriesAndRecovery :
    (Reaches (heard 7 .query) mem 7 .query ∧ mem.startup.phase = .run ∧ mem.bus.queue.length ≤ 2 ∧
      (mem.setBus { mem.bus with announcing := true }).bus.announcing = true) ∧
    (Reaches (heard 30 (.status elsewhere)) (withRemote (List.replicate 6 (told 19 .duress)) mem) 30 (.status elsewhere) ∧
      2 ≤ elsewhere.stage.ordinal ∧ elsewhere.area ≠ mem.area ∧
      (withRemote (List.replicate 6 (told 19 .duress)) mem).ann.remote.length ≤ 6) ∧
    (Reaches (heard 30 (.status said)) mem 30 (.status said) ∧ said.stage.ordinal < 2) := by decide +kernel

/-- An announcement of the own area with lines 0 and 3 marked, line 3 in group 2, its ABORT input broken. -/
def marked : Announcement := { said with stage := .vented, alarmMask := 9, groupMask := 8 }

/-- A member with room for four, one of them there already; the release station in ISOLATED; a hold by the sender alone;
the mirror with no notice since reset, and with one 3 s and one less old. -/
theorem met_StatusMakesGoodWhatWasLost :
    let s := withList [detected 7 0 .g1] mem
    let noticed : State := mem.setSeq { mem.seq with mirror := { mem.seq.mirror with lastNotice := some 0 } }
    (Reaches (heard 7 (.status marked)) s 7 (.status marked) ∧ s.role = .member ∧ s.seq.list.length ≤ 4 ∧
      marked.area = s.area ∧ elsewhere.area ≠ s.area ∧ s.img.members.head? = some 7 ∧
      s.seq.mirror.lastNotice = none ∧ s.seq.mirror.stage.ordinal ≤ 5 ∧ 6 ≤ marked.stage.ordinal) ∧
    ((atStage .isolated rel).role = .release ∧ (atStage .isolated rel).seq.stage = .isolated) ∧
    (Reaches (heard 12 (.status marked)) heldBy12 12 (.status marked) ∧ heldBy12.role = .release ∧
      12 ∈ heldBy12.seq.abortSet ∧ marked.abortHeld = false ∧ heldBy12.seq.stage = .held ∧ heldBy12.seq.abortSet = [12]) ∧
    (noticed.seq.mirror.lastNotice = some 0 ∧ 0 + 3000000 ≤ noticed.now + 3000000 ∧
      ¬0 + 3000000 ≤ noticed.now + 2999999) := by decide +kernel

/-- A new detection by the room in the list, a repeat, and those that are nobody's. -/
theorem met_DetectionsJoinTheList :
    let f : Frame := .detect 3 0 1 true 130
    (Reaches (heard 7 f) mem 7 f ∧ mem.role = .member ∧ mem.seq.stage = .normal ∧ (3 : BitVec 4).toNat = mem.area ∧
      Group.ofNat? (1 : Byte).toNat = some .g1 ∧ Group.ofNat? (3 : Byte).toNat = none ∧ (4 : BitVec 4).toNat ≠ mem.area) ∧
    (full.find? (fun e => e.station == 7 && e.line == 0) = none ∧ 8 ≤ full.length ∧ (∃ e ∈ full, e.consumed = false) ∧
      (full.drop 1).length < 8) ∧
    (spent.find? (fun e => e.station == 7 && e.line == 0) = none ∧ 8 ≤ spent.length ∧ ∀ e ∈ spent, e.consumed = true) ∧
    (full.find? (fun e => e.station == 20 && e.line == 0) = some (detected 20 0 .g1) ∧ (detected 20 0 .g1).consumed = false) ∧
    ((spent.find? (fun e => e.station == 20 && e.line == 0)).map Detection.consumed = some true) := by decide +kernel

theorem met_WithdrawalsAndWindowsEndEntries :
    let f : Frame := .detect 3 0 1 false 0
    (mem.role = .member ∧ mem.seq.stage = .normal ∧ Reaches (heard 20 f) mem 20 f ∧ (3 : BitVec 4).toNat = mem.area ∧
      (Group.ofNat? (1 : Byte).toNat).isSome = true) ∧
    ((withList full mem).seq.list.find? (fun e => e.station == 20 && e.line == 0 && !e.consumed) = some (detected 20 0 .g1) ∧
      (detected 20 0 .g1).window = some 120000000) := by decide +kernel

/-- The last entry, and one of two. -/
theorem met_WithdrawalsAndWindowsEndEntries_stage :
    let f : Frame := .detect 3 0 1 false 0
    let s := withList [detected 20 0 .g1] (atStage .firstAlarm rel)
    let u := withList [detected 12 3 .g1, detected 20 0 .g1] (atStage .firstAlarm rel)
    let named : Detection → Bool := fun e => e.station == 20 && e.line == 0 && !e.consumed
    s.role = .release ∧ s.seq.stage = .firstAlarm ∧ (∀ x ∈ u.seq.list, x.group = (detected 20 0 .g1).group) ∧
      s.seq.list.find? named = some (detected 20 0 .g1) ∧ s.seq.list.filter (fun e => !named e) = [] ∧
      u.seq.list.find? named = some (detected 20 0 .g1) ∧ u.seq.list.filter (fun e => !named e) ≠ [] ∧
      (detected 20 0 .g1).window = some 120000000 ∧ Reaches (heard 20 f) s 20 f ∧ Reaches (heard 20 f) u 20 f ∧
      (3 : BitVec 4).toNat = s.area ∧ (Group.ofNat? (1 : Byte).toNat).isSome = true := by decide +kernel

/-- A release station with seven group 1 detections. -/
def loaded (s : State) : State := withList (full.drop 1) (atStage .firstAlarm s)

/-- A release station in JOIN, seven detections in its list, its roster swept. -/
def loadedInJoin : State := (loaded (emptied rel)).setStartup joining.startup

/-- Member 19 has sent no STATUS yet, and a detection completes coincidence. -/
theorem met_CoincidenceStartsTheSequence_unheard :
    let s := (loadedInJoin.setSeq { loadedInJoin.seq with occupied := true }).setPeer 19 Peer.reset
    let c : Instr := .detectFrame 0 (sent 19 (.detect 3 0 2 true 130))
    exec c s = .next (after c s) ∧ s.role = .release ∧ s.running = true ∧ (after c s).running = true ∧
      19 ∈ (after c s).img.members ∧ ((after c s).peer 19).statusHeard = false ∧ s.seq.stage.ordinal ≤ 3 ∧
      s.seq.occupied = true ∧ (after c s).seq.stage = .inhibited :=
  ⟨after_eq (by decide +kernel), by decide +kernel, by decide +kernel, by decide +kernel, by decide +kernel,
    by decide +kernel, by decide +kernel, by decide +kernel, by decide +kernel⟩

/-- R28, R52: every member heard to be empty and the roster swept: the area is clear in JOIN too. -/
theorem test_area_clear_in_join :
    (after (.detectFrame 0 (sent 19 (.detect 3 0 2 true 130))) loadedInJoin).seq.stage = .countdown := by decide +kernel

theorem met_CoincidenceStartsTheSequence :
    let f : Frame := .detect 3 0 2 true 130
    let c : Instr := .detectFrame 0 (sent 19 f)
    let s := loaded (emptied rel)
    let h := s.setSeq { s.seq with abortSet := [12] }
    Reaches (heard 19 f) s 19 f ∧ s.role = .release ∧ (3 : BitVec 4).toNat = s.area ∧ Group.ofNat? (2 : Byte).toNat = some .g2 ∧
      s.seq.stage = .firstAlarm ∧ s.seq.latch = false ∧ s.seq.list.length < 8 ∧
      (∀ e ∈ s.seq.list, ¬(e.station = 19 ∧ e.line = 0)) ∧ (∃ e ∈ s.seq.list, e.group ≠ .g2) ∧
      ((after c s).areaOccupied = false ∧ s.seq.abortSet = [] ∧ s.img.tpd ≠ 0 ∧ s.bus.queue.length ≤ 3) ∧
      ((after c h).areaOccupied = false ∧ h.seq.abortSet ≠ []) ∧ (after c (loaded rel)).areaOccupied = true := by
  decide +kernel

/-- The first detection in NORMAL, an eighth of one group in FIRST_ALARM, and one of the other group in ISOLATED. -/
theorem met_CoincidenceStartsTheSequence_first :
    let f : Frame := .detect 3 0 1 true 130
    let g : Frame := .detect 3 0 2 true 130
    let i := withList (full.drop 1) (atStage .isolated rel)
    (Reaches (heard 19 f) rel 19 f ∧ rel.role = .release ∧ (3 : BitVec 4).toNat = rel.area ∧
      Group.ofNat? (1 : Byte).toNat = some .g1 ∧ rel.seq.stage = .normal ∧ rel.seq.list = [] ∧
      rel.bus.queue.length ≤ 3) ∧
    (Reaches (heard 19 f) (loaded rel) 19 f ∧ (loaded rel).seq.list.length = 7 ∧ (loaded rel).seq.stage = .firstAlarm ∧
      (∀ e ∈ (loaded rel).seq.list, ¬(e.station = 19 ∧ e.line = 0)) ∧ ∀ e ∈ (loaded rel).seq.list, e.group = .g1) ∧
    (Reaches (heard 19 g) i 19 g ∧ i.role = .release ∧ i.seq.stage = .isolated ∧ i.seq.list.length < 8 ∧
      Group.ofNat? (2 : Byte).toNat = some .g2 ∧ ∀ e ∈ i.seq.list, ¬(e.station = 19 ∧ e.line = 0)) := by decide +kernel

/-- INHIBITED, the area occupied by the own roster alone: one holder, who leaves by door A. -/
def oneInside : State :=
  let s := atStage .inhibited (withRoster [inside 712] (emptied rel))
  closing 5 (passing (creditOf .egress [who 712]) (s.setSeq { s.seq with occupied := true }))

/-- INHIBITED, the area in doubt because member 12 has not told its roster. -/
def oneUnheard : State :=
  let s := atStage .inhibited (emptied rel)
  (s.setSeq { s.seq with occupied := true }).setPeer 12 Peer.reset

/-- A passage, a sweep and a STATUS that clear the area, and a STATUS that does not; with and without an abort. -/
theorem met_CoincidenceStartsTheSequence_clear :
    let empty : Announcement := { said with role := .member }
    let c : Instr := .statusFrame 0 (sent 12 (.status empty))
    let d : Instr := .statusFrame 0 (sent 12 (.status { empty with count := 1 }))
    let sweepable := withDoor .a Door.reset oneInside
    let held := oneUnheard.setSeq { oneUnheard.seq with abortSet := [19] }
    (oneInside.role = .release ∧ oneInside.seq.stage = .inhibited ∧ oneInside.seq.occupied = true ∧
      oneInside.areaOccupied = true ∧ (after (.doorContactCloses .held .a) oneInside).areaOccupied = false ∧
      oneInside.seq.abortSet = [] ∧ oneInside.img.tpd ≠ 0) ∧
    (sweepable.AtPanel ∧ (after (.zoneSweep 0 ⟨[0], 0⟩) sweepable).areaOccupied = false) ∧
    (Reaches (heard 12 (.status empty)) held 12 (.status empty) ∧ held.areaOccupied = true ∧ 12 ∉ held.seq.abortSet ∧
      held.seq.abortSet ≠ [] ∧ (after c held).areaOccupied = false ∧ (after d held).areaOccupied = true) := by decide +kernel

/-! ## The statements' hypotheses are met: the discharge sequence -/

/-- The own ABORT input is made, and the own address alone holds the sequence. -/
def ownHold (remaining : Nat) (m : AbortMode) : State :=
  let s := heldBy12
  let s := { s with image := some { relImg with abortMode := m } }
  (s.setSeq { s.seq with frozen := remaining, abortSet := [7] }).setPins { s.pins with abort := true }

theorem met_AbortInput_made :
    (let s := filtering .abort false 1 (counting 30000000);
      s.running = true ∧ s.role = .release ∧ s.pins.filter .abort = some 1 ∧ s.pins.abort = !true ∧
        s.NoStart ∧ s.seq.abortSet = [] ∧ s.seq.stage = .countdown ∧ s.seq.countdown = some 30000000) ∧
    (let s := filtering .abort false 1 rel;
      s.seq.abortSet = [] ∧ s.seq.stage ≠ .countdown ∧ s.NoStart ∧ s.pins.abort = !true) ∧
    (let s := filtering .abort false 1 heldBy12;
      s.running = true ∧ s.role = .release ∧ s.pins.abort = !true ∧ s.seq.abortSet ≠ [] ∧
        s.address ∉ s.seq.abortSet ∧ s.seq.abortSet.length < 4) := by decide +kernel

/-- Broken, by every abort mode, with remaining left and with none. -/
theorem met_AbortInput_broken :
    (let s := filtering .abort true 1 (ownHold 12400000 .extend);
      s.running = true ∧ s.role = .release ∧ s.pins.filter .abort = some 1 ∧ s.pins.abort = !false ∧
        s.seq.stage = .held ∧ s.seq.abortSet = [s.address] ∧
        min (s.seq.frozen + s.img.tx * 1000000) (s.img.tpd * 1000000) ≠ 0) ∧
    ((ownHold 5 .restart).img.tpd * 1000000 ≠ 0 ∧ (ownHold 5 .restart).seq.abortSet = [(ownHold 5 .restart).address]) ∧
    ((ownHold 0 .resume).seq.frozen = 0 ∧ (ownHold 0 .resume).seq.stage = .held) ∧
    (let s := filtering .abort false 1 mem;
      s.running = true ∧ s.role ≠ .release ∧ s.pins.filter .abort = some 1 ∧ s.pins.abort = !true ∧
        s.role = .member ∧ s.bus.queue.length ≤ 3) := by decide +kernel

/-- INHIBITED while the area is occupied. -/
def inhibited : State := atStage .inhibited { emptied rel with roster := rel.roster, seq := rel.seq }

/-- In INHIBITED the own address joins the set and leaves it, and the stage stays. -/
theorem met_AbortInput_inhibited :
    let s := filtering .abort false 1 inhibited
    let u := filtering .abort true 1 (inhibited.setSeq { inhibited.seq with abortSet := [7] })
    let t := after (.abortInputChange .held true) s
    (s.running = true ∧ s.role = .release ∧ s.pins.filter .abort = some 1 ∧ s.pins.abort = !true ∧
      s.seq.stage = .inhibited ∧ s.NoStart ∧ s.seq.abortSet = []) ∧
    (u.pins.filter .abort = some 1 ∧ u.pins.abort = !false ∧ u.NoStart ∧ u.seq.abortSet = [u.address]) ∧
    (t.seq.abortSet = [7] ∧ t.seq.abortStuck = some 120000001 ∧ t.seq.stage = .inhibited) := by decide +kernel

theorem met_CallsActOnTheSequence :
    let on : Frame := .releaseCall 3 1
    let off : Frame := .releaseCall 3 2
    let manual : Frame := .releaseCall 3 0
    let other : Frame := .releaseCall 3 3
    Reaches (heard 12 on) rel 12 on ∧ Reaches (heard 12 off) heldBy12 12 off ∧ heldBy12.seq.abortSet = [12] ∧
      heldBy12.seq.stage = .held ∧ Reaches (heard 12 manual) (counting 1) 12 manual ∧
      Reaches (heard 12 manual) inhibited 12 manual ∧
      (after (.releaseCallFrame 0 (sent 12 manual)) inhibited).areaOccupied = true ∧ inhibited.seq.stage = .inhibited ∧
      Reaches (heard 12 other) rel 12 other ∧ rel.role = .release ∧ (3 : Byte).toNat = rel.area ∧ rel.seq.abortSet = [] ∧
      3 ≤ (3 : Byte).toNat ∧ (4 : Byte).toNat ≠ rel.area ∧ rel.seq.stage ≠ .inhibited := by decide +kernel

/-- With Tman 0. -/
def atOnce : State := { rel with image := some { relImg with tman := 0 } }

/-- By stage; the countdown with a millionth of a second left, and with none. -/
theorem met_ManualReleaseActsByStage :
    (let s := filtering .manrel false 1 rel;
      s.running = true ∧ s.pins.filter .manrel = some 1 ∧ s.pins.manrel = false ∧ s.role = .release ∧
        s.seq.stage = .normal ∧ s.seq.abortSet = [] ∧ s.img.tman ≠ 0 ∧ atOnce.img.tman = 0) ∧
    (let s := rel.setSeq { rel.seq with abortSet := [12] }; s.seq.abortSet ≠ [] ∧ s.seq.stage = .normal) ∧
    ((counting 1).seq.stage = .countdown ∧ (counting 1).seq.countdown = some 1 ∧
      min (1 - (counting 1).now) ((counting 1).img.tman * 1000000) ≠ 0 ∧
      min (1 - ((counting 1).now + 1)) ((counting 1).img.tman * 1000000) = 0) ∧
    (10000000 < 30000000 - (counting 30000000).now ∧ (counting 30000000).img.tman * 1000000 = 10000000 ∧
      (counting 30000000).bus.queue.length ≤ 3) ∧
    (heldBy12.role = .release ∧ heldBy12.seq.stage = .held ∧ heldBy12.running = true ∧
      heldBy12.img.tman * 1000000 < heldBy12.seq.frozen ∧ heldBy12.bus.queue.length ≤ 3) ∧
    (releasing.running = true ∧ releasing.pins.manrel = false ∧ 6 ≤ releasing.seq.stage.ordinal) ∧
    (let s := filtering .manrel false 1 mem;
      s.running = true ∧ s.pins.filter .manrel = some 1 ∧ s.pins.manrel = false ∧ s.role = .member ∧
        s.bus.queue.length ≤ 3) ∧
    (let s := filtering .manrel true 1 mem; s.pins.filter .manrel = some 1 ∧ s.pins.manrel = true) := by decide +kernel

/-- RELEASING with its valve timers running. -/
def valving : State := releasing.setSeq { releasing.seq with
  valveDelay := some 53100000, valvePulse := some 55100000, flowWait := some 63100000 }

/-- DISCHARGED with its soak running, held by the own ABORT input. -/
def soaking : State := (atStage .discharged releasing).setSeq { (atStage .discharged releasing).seq with
  soak := some 655100000, abortStuck := some 120000000 }

theorem met_DischargeRunsToVented :
    ((counting 52600000).seq.stage = .countdown ∧ (counting 52600000).seq.countdown = some 52600000 ∧
      (counting 52600000).img.dv ≠ 0 ∧ (counting 52600000).seq.flowConfirmed = false ∧
      (counting 52600000).bus.queue.length ≤ 3) ∧
    (let s := valving.setPins { valving.pins with flow := true };
      s.seq.stage = .releasing ∧ s.seq.valveDelay = some 53100000 ∧ s.pins.flow = true ∧ s.bus.queue.length ≤ 3) ∧
    (let s := { counting 52600000 with image := some { relImg with dv := 0 } }; s.img.dv = 0 ∧ s.seq.stage = .countdown) ∧
    (valving.seq.stage = .releasing ∧ valving.seq.valveDelay = some 53100000 ∧ valving.seq.valvePulse = some 55100000) ∧
    (soaking.seq.stage = .discharged ∧ soaking.seq.soak = some 655100000 ∧ soaking.seq.abortStuck = some 120000000 ∧
      soaking.NoStart) := by decide +kernel

theorem met_FlowAndValveCircuit :
    (let s := filtering .flow false 54300000 valving;
      s.NoStart ∧ s.running = true ∧ s.pins.filter .flow = some 54300000 ∧ s.pins.flow = false ∧
        s.seq.flowWait = some 63100000 ∧ s.seq.flowWait.isSome = true ∧ s.bus.queue.length ≤ 3) ∧
    (let s := filtering .flow true 54300000 valving; s.pins.filter .flow = some 54300000 ∧ s.pins.flow = true) ∧
    (rel.seq.flowWait = none ∧ rel.NoStart ∧ rel.running = true ∧ rel.role = .release ∧
      (rel.source .releaseCircuit).condition = false) := by decide +kernel

theorem met_NoticesAndCadence :
    (counting 30000000).seq.notice = some 1000000 ∧ (counting 30000000).NoStart ∧
      (counting 30000000).bus.queue.length ≤ 3 ∧ (counting 30000000).seq.phaseEnd = some 250000 ∧
      (counting 30000000).seq.pattern = .fast ∧ (counting 30000000).seq.cadence = .on := by decide +kernel

/-- A manual release whose stage sounds another pattern, and an event that leaves the stage. -/
theorem met_NoticesAndCadence_sounder :
    let s := filtering .manrel false 5 rel
    let c : Instr := .manrelMade .held true
    exec c s = .next (after c s) ∧ c ≠ .cadencePhaseExpiry ∧ s.running = true ∧ (after c s).running = true ∧
      s.seq.pattern = soundOf s.shownStage ∧ (after c s).seq.pattern = .fast ∧
      (after (.referenceGap 3) s).seq.pattern = s.seq.pattern :=
  ⟨after_eq (by decide +kernel), by decide, by decide +kernel, by decide +kernel, by decide +kernel, by decide +kernel,
    by decide +kernel⟩

/-- An own line is in ALARM. -/
def burning : State := heldBy12.setLine 3 { Line.reset with stage := .alarm }

/-- VENTED, the ABORT input made. -/
def vented : State := (atStage .vented releasing).setPins { releasing.pins with abort := true }

theorem met_SuppressionCommands_reset :
    (mem.portTakes = true ∧ mem.startup.phase ≠ .configFault ∧ mem.port.state = .idle ∧ mem.role ≠ .release) ∧
    (releasing.role = .release ∧ releasing.seq.stage = .releasing ∧ releasing.port.state = .idle) ∧
    (burning.role = .release ∧ burning.seq.stage = .held ∧ ∃ l, (burning.line l).stage = .alarm) ∧
    (vented.portTakes = true ∧ vented.role = .release ∧ vented.seq.stage = .vented ∧ vented.port.state = .idle ∧
      ¬((∃ l, (vented.line l).stage = .alarm) ∨
        ∃ m ∈ vented.img.members, (vented.peer m).presence = .live ∧ (vented.peer m).said.alarmMask ≠ 0) ∧
      vented.bus.queue.length ≤ 3) := by decide +kernel

/-- ABORT_HELD is told at second 100, pending, in-service and neither. -/
def abortTold (pending inService : Bool) : State :=
  (atTime 100000000 vented).setSource .abortHeld
    { SourceState.reset with condition := true, raised := 9, pending := pending, inService := inService, settled := !pending && !inService }

/-- R58, R62, R70, R154: the emptied set ends ABORT_HELD, and the made input raises it anew (log entry 34). -/
theorem met_SuppressionCommands_abortHeld :
    let x := (abortTold true false).source .abortHeld
    let c : Instr := .suppressionReset 0 ⟨[0], 0⟩
    ((abortTold true false).AtPanel ∧ (abortTold true false).role = .release ∧ (abortTold true false).seq.stage = .vented ∧
      (abortTold true false).pins.abort = true ∧ x.condition = true ∧ x.pending = true ∧ x.inService = false ∧
      x.settled = false ∧ (after c (abortTold true false)).source .abortHeld = { x with raised := 100 }) ∧
    (after c (abortTold false true)).source .abortHeld = (abortTold false true).source .abortHeld ∧
    (after c (abortTold false false)).source .abortHeld = { x with raised := 100 } := by decide +kernel

theorem met_SuppressionCommands_isolate :
    (rel.portTakes = true ∧ rel.startup.phase ≠ .configFault ∧ rel.port.state = .idle ∧ rel.role = .release ∧
      rel.seq.stage = .normal) ∧
    (let s := withList [detected 12 0 .g1, detected 19 0 .g2] (atStage .isolated rel);
      s.seq.stage = .isolated ∧ (∃ e ∈ s.seq.list, e.group = .g1) ∧ ∃ e ∈ s.seq.list, e.group = .g2) ∧
    ((atStage .isolated rel).seq.stage = .isolated ∧ ¬∃ e ∈ (atStage .isolated rel).seq.list, e.group = .g1) ∧
    3 ≤ (atStage .inhibited rel).seq.stage.ordinal ∧ (mem.AtPanel ∧ mem.role ≠ .release) := by decide +kernel

/-- The highest ordinal of a stage, and the one above it. -/
theorem met_NoticeMovesTheMirror :
    let f : Frame := .releaseNotice 3 8 0 true
    let g : Frame := .releaseNotice 3 9 0 true
    Reaches (heard 7 f) mem 7 f ∧ Reaches (heard 7 g) mem 7 g ∧ mem.role = .member ∧
      mem.img.members.head? = some 7 ∧ (3 : BitVec 4).toNat = mem.area ∧ Stage.ofNat? (8 : BitVec 4).toNat = some .vented ∧
      mem.seq.mirror.stage.ordinal ≤ 5 ∧ 6 ≤ Stage.vented.ordinal ∧ 8 < (9 : BitVec 4).toNat ∧
      mem.img.members.head? ≠ some 19 := by decide +kernel

/-! ## The statements' hypotheses are met: filtered inputs and doors -/

/-- A pin that starts, returns within 20 ms and at 20 ms, moves before the blocks run, and is held. -/
theorem met_InputsAreFiltered :
    let call : InputEvent → Bool → InputCall := fun e x => { input := .dca, level := x, event := e }
    let s := filtering .dca false 20000 mem
    (inputCall (.doorContactOpens (.moves 5) .a) = some (call (.moves 5) true) ∧ mem.pins.raw .dca ≠ true ∧
      mem.running = true ∧ mem.pins.filter .dca = none ∧ mem.pins.raw .dca = false ∧ State.reset.running = false ∧
      State.reset.pins.raw .dca ≠ true) ∧
    (inputCall (.doorContactCloses (.moves 19999) .a) = some (call (.moves 19999) false) ∧ s.pins.raw .dca ≠ false ∧
      s.running = true ∧ s.pins.filter .dca = some 20000 ∧ s.now + 19999 < 20000 ∧ 20000 ≤ s.now + 20000) ∧
    (inputCall (.doorContactOpens .held .a) = some (call .held true) ∧ s.pins.level .dca ≠ true ∧
      mem.pins.level .dca = false) ∧
    exec (.doorContactOpens .held .a) (s.elapse 20000) = .next (after (.doorContactOpens .held .a) (s.elapse 20000)) :=
  ⟨by decide +kernel, by decide +kernel, by decide +kernel, after_eq (by decide +kernel)⟩

/-- Absent in effect, released, open, and secure with a reservation at door B, out of lockout. -/
theorem met_ContactOpenings :
    let opening := filtering .dca false 5
    let met : State → Prop := fun s => s.pins.filter (contactInput .a) = some 5 ∧ s.pins.level (contactInput .a) = false
    (met (opening State.reset) ∧
      ¬((opening State.reset).running = true ∧ ((opening State.reset).door .a).absent = false)) ∧
    (let s := opening (withDoor .a (releasedDoor (entry 5)) mem);
      met s ∧ s.running = true ∧ (s.door .a).absent = false ∧ (s.door .a).state = .released) ∧
    (let s := opening (withDoor .a (openDoor (entry 5)) mem); met s ∧ (s.door .a).state = .opened) ∧
    (let s := opening reserved;
      met s ∧ s.running = true ∧ (s.door .a).absent = false ∧ (s.door .a).state = .secure ∧
        s.lockoutStage = s.doors.a.lockout ∧ (s.reservation .b).isSome = true) := by decide +kernel

/-- Door A passing, with a request of its own, its contact closing. -/
def waitingAtA (s : State) : State :=
  closing 5 (withDoor .a { openDoor (entry 5) with request := some (waiting (entry 6) 1) } s)

theorem met_ContactClosings :
    let met : State → Prop := fun s => s.pins.filter (contactInput .a) = some 5 ∧ s.pins.level (contactInput .a) = true
    (let s := closing 5 State.reset; met s ∧ ¬(s.running = true ∧ (s.door .a).absent = false)) ∧
    (let s := closing 5 (withDoor .a (releasedDoor (entry 5)) mem);
      met s ∧ s.running = true ∧ (s.door .a).absent = false ∧ (s.door .a).state = .released) ∧
    (let s := closing 5 (passing (entry 5) mem);
      met s ∧ (s.door .a).state = .opened ∧ s.lockoutStage = s.doors.a.lockout ∧
        (s.door .b).request = none ∧ (s.door .a).request = none) ∧
    (met (waitingAtA mem) ∧ ((waitingAtA mem).door .a).request = some (waiting (entry 6) 1) ∧
      (waitingAtA mem).PartnerClear .a) ∧
    ¬(waitingAtA (withDoor .b (openDoor (entry 7)) mem)).PartnerClear .a := by decide +kernel

/-- Door B SECURE with a request that waits for door A. -/
def waitingAtB (s : State) : State :=
  let s := withDoor .b { Door.reset with request := some (waiting (entry 7) 2) } s
  s.setDoors { s.doors with counter := 2 }

/-- R90, R92: the closing of door A frees the request at door B, or its own, which is the earlier of two. -/
theorem met_ContactClosings_interlock :
    let s := closing 5 (passing (entry 5) (waitingAtB mem))
    let u := waitingAtA (waitingAtB mem)
    let c : Instr := .doorContactCloses .held .a
    (s.pins.filter (contactInput .a) = some 5 ∧ (s.door .a).state = .opened ∧ (s.door .b).request = some (waiting (entry 7) 2) ∧
      (s.door .b).state = .secure ∧ s.lockoutStage = s.doors.a.lockout) ∧
    ((after c s).doors.a.state = .secure ∧ (after c s).doors.b.state = .released ∧ (after c s).doors.b.lastPending = .granted) ∧
    ((u.door .a).request = some (waiting (entry 6) 1) ∧ (u.door .b).request = some (waiting (entry 7) 2) ∧
      (u.doors.counter - 2).toNat < (u.doors.counter - 1).toNat) ∧
    ((after c u).doors.a.state = .released ∧ (after c u).doors.b = u.doors.b) := by decide +kernel

/-- Fifteen holders inside. -/
def fifteen : List RosterEntry := (List.range 15).map (fun k => inside (100 + k))

/-- An escort, and an escortee. -/
def escort : RosterEntry := { holder := { who 712 with escortCapable := true }, time := 0 }

/-- An escortee. -/
def escortee : RosterEntry := { holder := { who 640 with escorted := true }, time := 0 }

theorem met_PassagesMoveTheRoster_entries :
    let s := closing 5 (passing (entry 5) (withRoster fifteen mem))
    (s.pins.filter (contactInput .a) = some 5 ∧ s.pins.level (contactInput .a) = true ∧ s.running = true ∧ (s.door .a).absent = false ∧ (s.door .a).state = .opened ∧
      (s.door .a).credit = some (entry 5) ∧ (entry 5).kind = .entry ∧ (entry 5).holders = [who 5] ∧
      (¬∃ e ∈ s.roster.entries, e.holder.id = 5) ∧ s.roster.entries.length < 16) ∧
    (∃ e ∈ (withRoster [inside 5] s).roster.entries, e.holder.id = 5) ∧
    (let t := withRoster (inside 99 :: fifteen) s; (¬∃ e ∈ t.roster.entries, e.holder.id = 5) ∧ 16 ≤ t.roster.entries.length) ∧
    ((creditOf .entry [who 5, who 6]).holders = [who 5, who 6] ∧ (who 5).id ≠ (who 6).id ∧
      (withRoster (fifteen.drop 1) s).roster.entries.length < 15) ∧
    (mem.door .b).credit = none := by decide +kernel

theorem met_PassagesMoveTheRoster_exits :
    (let s := closing 5 (passing (creditOf .egress [who 712]) (withRoster [escort, escortee] mem))
      let t := after (.doorContactCloses .held .a) s
      s.pins.filter (contactInput .a) = some 5 ∧ s.pins.level (contactInput .a) = true ∧ (s.door .a).credit = some (creditOf .egress [who 712]) ∧
        s.roster.entries.find? (fun e => e.holder.id == 712) = some escort ∧ escort.holder.escortCapable = true ∧
        (∃ x ∈ t.roster.entries, x.holder.escorted = true) ∧ ∀ x ∈ t.roster.entries, x.holder.escortCapable = false) ∧
    (¬∃ e ∈ (withRoster fifteen mem).roster.entries, e.holder.id = 712) ∧
    ((creditOf .exitRequest []).kind = .exitRequest ∧ (withRoster [inside 5] mem).roster.entries.length ≤ 1 ∧
      2 ≤ (withRoster [inside 5, inside 6] mem).roster.entries.length) := by decide +kernel

/-- Door A released, with requests at the doors. -/
def pairOfRequests (a b : Option PendingRequest) : State :=
  let s := withDoor .b { Door.reset with request := b } (withDoor .a { releasedDoor (entry 5) with request := a } mem)
  s.setDoors { s.doors with counter := 2 }

/-- Chapter 5's second example at 8.0: of orders 1 and 2 the first lies further behind. -/
theorem met_WindowExpiryAndInterlock :
    let r := waiting (entry 501) 1
    let q := waiting (entry 602) 2
    let s := pairOfRequests (some r) (some q)
    ((s.door .a).state = .released ∧ (s.door .a).window = some 8000000 ∧ s.lockoutStage = s.doors.a.lockout ∧
      (s.door .a).request = some r ∧ (s.door .b).request = some q ∧ (s.door .b).state = .secure ∧
      (s.doors.counter - q.order).toNat < (s.doors.counter - r.order).toNat) ∧
    (let t := pairOfRequests (some q) (some r);
      (t.door .a).request = some q ∧ (t.door .b).request = some r ∧
        (t.doors.counter - q.order).toNat < (t.doors.counter - r.order).toNat) ∧
    (let t := pairOfRequests none none; (t.door .a).request = none ∧ (t.door .b).request = none) ∧
    (let t := pairOfRequests none (some q);
      (t.door .a).request = none ∧ (t.door .b).request = some q ∧ (t.door .b).state = .secure) ∧
    (let t := pairOfRequests (some r) none;
      (t.door .a).request = some r ∧ t.PartnerClear .a ∧ (t.door .b).request = none) := by decide +kernel

theorem met_ExitPressesAndDoorTimers :
    (let s := filtering .rexB false 5 mem;
      s.pins.filter (exitInput .b) = some 5 ∧ s.pins.level (exitInput .b) = !true ∧ s.running = true ∧
        (s.door .b).absent = false ∧ (s.door .b).state = .secure) ∧
    (let s := filtering .rexA true 5 mem;
      s.pins.filter (exitInput .a) = some 5 ∧ s.pins.level (exitInput .a) = !false) ∧ State.reset.running = false ∧
    (let s := passing (entry 5) reserved;
      (s.door .a).state = .opened ∧ (s.door .a).state ≠ .secure ∧ (s.door .a).heldTimer = some 30000000 ∧
        s.lockoutStage = s.doors.a.lockout ∧ s.running = true ∧ (s.reservation .b).isSome = true) ∧
    ((waitingAtA mem).door .a).request = some (waiting (entry 6) 1) := by decide +kernel

/-- A release station by its own stage: a manual release from NORMAL, and SUPPRESSION_RESET in VENTED. -/
theorem met_LockoutAtTheDoors_own :
    (let s := filtering .manrel false 5 rel;
      s.running = true ∧ s.role = .release ∧ s.pins.filter .manrel = some 5 ∧ s.pins.manrel = false ∧
        s.seq.stage = .normal ∧ s.doors.a.lockout = false) ∧
    (withDoor .a { Door.reset with lockout := true } rel).doors.a.lockout = true ∧
    (let s := withDoor .a { Door.reset with lockout := true } vented;
      s.AtPanel ∧ s.role = .release ∧ s.seq.stage = .vented ∧ (∀ l, (s.line l).stage ≠ .alarm) ∧
        (∀ m ∈ s.img.members, (s.peer m).presence = .live → (s.peer m).said.alarmMask = 0) ∧
        s.doors.a.lockout = true ∧ vented.doors.a.lockout = false) := by decide +kernel

/-- Lockout withdraws door B, which frees an EGRESS that waits at door A. -/
theorem met_LockoutAtTheDoors_interlock :
    let f : Frame := .releaseNotice 3 3 0 false
    let s := withDoor .b (releasedDoor (entry 650))
      (withDoor .a { Door.reset with request := some (waiting (creditOf .egress [who 6]) 1) } mem)
    let t := after (.releaseNoticeFrame 0 (sent 7 f)) s
    (Reaches (heard 7 f) s 7 f ∧ s.doors.a.lockout = false ∧ (s.door .b).state = .released ∧
      (s.door .b).credit.any (fun c => c.kind == .entry) = true ∧ (s.door .a).request.isSome = true) ∧
    (t.doors.b.state = .secure ∧ t.doors.a.state = .released ∧ t.doors.a.request = none) := by decide +kernel

/-- The lowest ordinal with lockout, and the highest without. -/
theorem met_LockoutAtTheDoors :
    let f : Frame := .releaseNotice 3 3 0 false
    let g : Frame := .releaseNotice 3 2 0 false
    let s := withDoor .b (releasedDoor (entry 650)) (passing (creditOf .exitRequest []) reserved)
    let w := withDoor .b { Door.reset with request := some (waiting (entry 6) 1) } mem
    let held := (withDoor .a { Door.reset with lockout := true } mem)
    (Reaches (heard 7 f) s 7 f ∧ s.role = .member ∧ s.img.members.head? = some 7 ∧ (3 : BitVec 4).toNat = s.area ∧
      Stage.ofNat? (3 : BitVec 4).toNat = some .inhibited ∧ 3 ≤ Stage.inhibited.ordinal ∧ s.doors.a.lockout = false ∧
      (s.door .b).state = .released ∧ (∃ c ∈ (s.door .b).credit, c.kind = .entry) ∧ (s.door .a).request = none ∧
      (s.door .b).request = none ∧ (s.door .a).state ≠ .released ∧ (s.reservation .b).isSome = true) ∧
    (Reaches (heard 7 f) w 7 f ∧ (w.door .a).state ≠ .released ∧ (w.door .b).state ≠ .released ∧
      (w.door .b).request.isSome = true) ∧
    (Reaches (heard 7 g) held 7 g ∧ Stage.ofNat? (2 : BitVec 4).toNat = some .firstAlarm ∧ Stage.firstAlarm.ordinal < 3 ∧
      held.doors.a.lockout = true) := by decide +kernel

/-! ## The statements' hypotheses are met: entry rules -/

/-- A presentation of holder 55 at a door, from a side. -/
def present55 (d : DoorId) (side : Side) (cls : Nat) (v : Verdict) : Presentation :=
  { door := d, side := side, id := 55, cls := cls, verdict := v }

/-- Nobody inside: no passback and no lack of room, so the plain checks decide. -/
theorem admitted_of {s : State} {p : Presentation} (h : s.roster.entries = [])
    (g : (s.door p.door).Free ∧ p.verdict = .valid ∧ (s.door p.door).lockout = false ∧ (s.mode p.door).mode ≠ .barred ∧
      ClassPasses (s.mode p.door) p.cls) : Admitted s p ∧ ¬PassbackFound s p := by
  have n : ¬PassbackFound s p := by
    rintro ⟨-, e, he, -⟩
    rw [h] at he
    cases he
  refine ⟨⟨g.1, g.2.1, g.2.2.1, g.2.2.2.1, g.2.2.2.2, fun q => absurd q n, ?_⟩, n⟩
  rintro ⟨-, q | ⟨-, q⟩⟩ <;> rw [h] at q <;> revert q <;> decide

/-- Every mode of door A and B is `m`. -/
def allModes (m : ModeEntry) : State :=
  { mem with image := some { img with modesA := Vector.replicate 5 m, modesB := Vector.replicate 5 m, softPassback := true } }

theorem met_InsidePresentations :
    let p := present55 .b .inside 7 .expired
    (mem.AtPanel ∧ presentOperands mem [1, 1, 0, 55, 7, 1] = some p ∧ p.side = .inside ∧ (mem.door p.door).Free ∧
      mem.PartnerClear p.door) ∧
    ¬((withDoor .b (openDoor (entry 5)) mem).door p.door).Free ∧
    ¬(withDoor .a (openDoor (entry 5)) mem).PartnerClear p.door := by decide +kernel

theorem met_OutsideRefusals_plain :
    let p := present55 .b .outside 3 .valid
    (mem.AtPanel ∧ presentOperands mem [1, 0, 0, 55, 3, 0] = some p ∧ p.side = .outside ∧ (mem.door p.door).Free ∧
      p.verdict = .valid ∧ (mem.door p.door).lockout = false ∧ (mem.mode p.door).mode ≠ .barred ∧
      ClassPasses (mem.mode p.door) p.cls) ∧
    ¬((withDoor .b (openDoor (entry 5)) mem).door p.door).Free ∧
    presentOperands mem [1, 0, 0, 55, 3, 2] = some (present55 .b .outside 3 .unknown) ∧
    ((withDoor .b { Door.reset with lockout := true } mem).door p.door).lockout = true ∧
    ((allModes { mode := .barred, minClass := 0, floor := 0 }).mode p.door).mode = .barred ∧
    ¬ClassPasses (mem.mode p.door) 2 := by decide +kernel

/-- Passback, and a full roster, at door A. -/
theorem met_OutsideRefusals_roster :
    (mem.door .a).Free ∧ (mem.door .a).lockout = false ∧ ClassPasses (mem.mode .a) 3 ∧ mem.img.softPassback = false ∧
    PassbackFound (withRoster [inside 55] mem) (present55 .a .outside 3 .valid) ∧
    Overfull (withRoster (inside 99 :: fifteen) mem) (present55 .a .outside 3 .valid) ∧
    ∀ e ∈ (inside 99 :: fifteen), e.holder.id ≠ 55 :=
  ⟨by decide +kernel, by decide +kernel, by decide +kernel, by decide +kernel,
    ⟨rfl, inside 55, by decide +kernel, .inl rfl⟩, ⟨rfl, .inl (by decide +kernel)⟩, by decide +kernel⟩

/-- An escortee at the floor, and nobody to escort. -/
theorem met_OutsideRefusals_escort :
    let s := allModes { mode := .escorted, minClass := 4, floor := 1 }
    let s := withRoster [] s
    let p := present55 .a .outside 1 .valid
    Admitted s p ∧ (s.mode p.door).mode = .escorted ∧ p.cls < (s.mode p.door).minClass ∧
      ∀ e ∈ s.roster.entries, e.holder.escortCapable = false :=
  ⟨(admitted_of (by decide +kernel) (by decide +kernel)).1, by decide +kernel, by decide +kernel, by decide +kernel⟩

/-- A SINGLE door with nobody inside, its partner secure or open. -/
theorem met_SinglesAndEscorts_single :
    let p := present55 .a .outside 3 .valid
    (mem.AtPanel ∧ presentOperands mem [0, 0, 0, 55, 3, 0] = some p ∧ p.side = .outside) ∧
    (Admitted mem p ∧ (false = true ↔ PassbackFound mem p)) ∧ (mem.mode p.door).mode = .single ∧ mem.PartnerClear p.door ∧
    (Admitted (withDoor .b (openDoor (entry 5)) mem) p ∧ ¬(withDoor .b (openDoor (entry 5)) mem).PartnerClear p.door) := by
  have a := admitted_of (s := mem) (p := present55 .a .outside 3 .valid) (by decide +kernel) (by decide +kernel)
  have b := admitted_of (s := withDoor .b (openDoor (entry 5)) mem) (p := present55 .a .outside 3 .valid) (by decide +kernel)
    (by decide +kernel)
  exact ⟨by decide +kernel, ⟨a.1, ⟨nofun, fun h => absurd h a.2⟩⟩, by decide +kernel, by decide +kernel, b.1, by decide +kernel⟩

/-- An escortee with an escort inside, found there by a SOFT passback. -/
theorem met_SinglesAndEscorts_escort :
    let s := withRoster [inside 55, escort] (allModes { mode := .escorted, minClass := 4, floor := 1 })
    let p := present55 .a .outside 1 .valid
    Admitted s p ∧ (true = true ↔ PassbackFound s p) ∧ (s.mode p.door).mode = .escorted ∧ p.cls < (s.mode p.door).minClass ∧
      ∃ e ∈ s.roster.entries, e.holder.escortCapable = true := by
  intro s p
  have f : PassbackFound s p := ⟨rfl, inside 55, by decide +kernel, .inl rfl⟩
  refine ⟨⟨by decide +kernel, rfl, by decide +kernel, by decide +kernel, by decide +kernel, fun _ => by decide +kernel, ?_⟩,
    ⟨fun _ => f, fun _ => rfl⟩, by decide +kernel, by decide +kernel, by decide +kernel⟩
  rintro ⟨-, h | ⟨-, h⟩⟩ <;> revert h <;> decide +kernel

/-- A first holder, the same holder again, and another, at door B. -/
theorem met_PairReservations :
    let p := present55 .b .outside 3 .valid
    let same := { reserved with entry := { reserved.entry with resB := some { held with holder := 55 } } }
    (mem.AtPanel ∧ presentOperands mem [1, 0, 0, 55, 3, 0] = some p ∧ p.side = .outside ∧ Admitted mem p ∧
      (mem.mode p.door).mode = .pairedRemote ∧ mem.reservation p.door = none) ∧
    (Admitted same p ∧ same.reservation p.door = some { held with holder := 55 }) ∧
    (Admitted reserved p ∧ reserved.reservation p.door = some held ∧ held.holder ≠ p.id ∧
      (false = true ↔ PassbackFound reserved p) ∧ reserved.PartnerClear p.door) := by
  intro p same
  have a := admitted_of (s := mem) (p := p) (by decide +kernel) (by decide +kernel)
  have b := admitted_of (s := same) (p := p) (by decide +kernel) (by decide +kernel)
  have c := admitted_of (s := reserved) (p := p) (by decide +kernel) (by decide +kernel)
  exact ⟨⟨by decide +kernel, by decide +kernel, rfl, a.1, by decide +kernel, by decide +kernel⟩, ⟨b.1, by decide +kernel⟩,
    c.1, by decide +kernel, by decide +kernel, ⟨nofun, fun h => absurd h c.2⟩, by decide +kernel⟩

theorem met_PairWindowsAndRemoteCalls_overrun :
    let s := withQueue crowded mem
    let u := withQueue urgent mem
    (s.bus.Wf ∧ s.bus.queue.length = 6 ∧ s.NoStart ∧ s.AtPanel ∧
      (Frame.confirm 1 0 1 1 0).urgency < Frame.query.urgency) ∧
    (u.bus.Wf ∧ u.bus.queue.length = 6 ∧ u.NoStart ∧ u.AtPanel ∧
      (Frame.duress 4 true 3).urgency ≤ (Frame.confirm 1 0 1 1 0).urgency) := by decide +kernel

theorem met_PairWindowsAndRemoteCalls :
    reserved.reservation .b = some held ∧ mem.AtPanel ∧ argumentsOk mem 8 [48, 1, 255, 255, 255, 7] ∧
      argumentsOk mem 8 [1, 0, 1, 0, 1, 0] ∧ mem.bus.queue.length ≤ 3 := by
  refine ⟨by decide +kernel, by decide +kernel, ?_, ?_, by decide +kernel⟩ <;> simp only [argumentsOk] <;> decide +kernel

/-- Fields at the ends of their ranges, and past them. -/
theorem met_ConfirmationsAreJudged_frame :
    let f : Frame := .confirm 12 1 255 65535 7
    let g : Frame := .confirm 12 2 1 1 8
    Reaches (heard 9 f) reserved 9 f ∧ Reaches (heard 9 g) reserved 9 g ∧ (12 : Byte).toNat = reserved.address ∧
      doorCode .b = (1 : Byte).toNat ∧ (255 : Byte) ≠ 0 ∧ (65535 : BitVec 16) ≠ 0 ∧ (7 : Byte).toNat ≤ 7 ∧
      1 < (2 : Byte).toNat ∧ 7 < (8 : Byte).toNat ∧ (13 : Byte).toNat ≠ reserved.address := by decide +kernel

/-- The tests of a confirmation of tag 9 by holder 300 of class 6, one state for each outcome. -/
theorem met_ConfirmationsAreJudged_outcomes :
    ((mem.mode .a).mode ≠ .pairedRemote) ∧ ((mem.mode .b).mode = .pairedRemote ∧ (mem.door .b).absent = false) ∧
    mem.reservation .b = none ∧ (reserved.reservation .b = some held ∧ held.tag ≠ (8 : Byte).toNat ∧
      held.tag = (9 : Byte).toNat ∧ held.holder = (501 : BitVec 16).toNat ∧ held.holder ≠ (300 : BitVec 16).toNat ∧
      (2 : Byte).toNat < (reserved.mode .b).minClass ∧ ¬(3 : Byte).toNat < (reserved.mode .b).minClass) ∧
    ((reserved.door .b).Free ∧ (reserved.door .b).lockout = false ∧ reserved.lockoutStage = reserved.doors.a.lockout ∧
      reserved.PartnerClear .b ∧ reserved.bus.queue.length ≤ 2) ∧
    ¬((withDoor .b (openDoor (entry 5)) reserved).door .b).Free := by decide +kernel

/-- A reservation at door A, with a list of holders inside. -/
def reservedAtA (l : List RosterEntry) : State :=
  (withRoster l (allModes { mode := .pairedRemote, minClass := 3, floor := 0 })).setEntry { mem.entry with resA := some held }

/-- At door A: the last place on the roster, none left, the reserving holder on it, and a reservation broken by a change
of mode (log entry 31). -/
theorem met_ConfirmationsAreJudged_doorA :
    let s := reservedAtA fifteen
    let full := reservedAtA (inside 99 :: fifteen)
    let broken := mem.setEntry { mem.entry with brokenA := true }
    (doorCode .a = (0 : Byte).toNat ∧ s.reservation .a = some held ∧ (s.mode .a).mode = .pairedRemote ∧
      (s.door .a).Free ∧ (s.door .a).lockout = false ∧ s.roster.entries.length + 1 ≤ 16 ∧ s.PartnerClear .a) ∧
    (full.reservation .a = some held ∧ (full.door .a).Free ∧ ¬full.roster.entries.length + 1 ≤ 16) ∧
    ((reservedAtA [inside 501]).img.softPassback = true ∧
      ∃ e ∈ (reservedAtA [inside 501]).roster.entries, e.holder.id = held.holder) ∧
    broken.reservation .a = none ∧ broken.broken .a = true ∧ (broken.mode .a).mode ≠ .pairedRemote :=
  ⟨by decide +kernel, by decide +kernel, ⟨rfl, inside 501, by decide +kernel, rfl⟩, by decide +kernel⟩

/-! ## The statements' hypotheses are met: postures, outputs, alarms -/

theorem met_ZoneSweeps :
    (mem.AtPanel ∧ mem.doors.a.state = .secure ∧ (mem.doors.b.absent = true ∨ mem.doors.b.state = .secure)) ∧
    (let s := withDoor .b (openDoor (entry 5)) mem; s.AtPanel ∧ ¬(s.doors.b.absent = true ∨ s.doors.b.state = .secure)) := by
  decide +kernel

/-- An image without lockdown flags. -/
def calm : State := { atEpoch 254 with image := some { img with lockdown := Vector.replicate 32 false } }

theorem met_PosturesPrevail_set :
    ((mem.AtPanel ∧ mem.address ∈ mem.img.authorities ∧ mem.startup.phase = .run ∧ mem.bus.queue.length ≤ 2) ∧
      (rel.AtPanel ∧ rel.address ∉ rel.img.authorities) ∧
      (joining.AtPanel ∧ joining.address ∈ joining.img.authorities ∧ joining.startup.phase ≠ .run)) ∧
    calm.AtPanel ∧ calm.address ∈ calm.img.authorities ∧ (∀ x, calm.lockdownFlag x = false) ∧ calm.ann.remote = [] ∧
      Posture.closed ≠ calm.posture.effective ∧ 2 ≤ Posture.closed.num := by
  refine ⟨by decide +kernel, by decide +kernel, by decide +kernel, ?_, by decide +kernel⟩
  intro x
  cases x <;> decide +kernel

/-- The last epoch that is newer, the first that is not, and a tie. -/
theorem met_PosturesPrevail_adopt :
    let f : Frame := .posture 0 126
    let g : Frame := .posture 0 127
    let h : Frame := .posture 4 255
    let s := atEpoch 255
    let c : Announcement := { said with epoch := 126 }
    (Reaches (heard 5 f) s 5 f ∧ 5 ∈ s.img.authorities ∧ Posture.ofNat? (0 : Byte).toNat = some .opened ∧
      ((126 : Byte) - s.posture.view.epoch).toNat ≤ 127 ∧ (126 : Byte) ≠ s.posture.view.epoch) ∧
    (Reaches (heard 5 g) s 5 g ∧ ¬((127 : Byte) - s.posture.view.epoch).toNat ≤ 127) ∧
    (Reaches (heard 5 h) s 5 h ∧ (255 : Byte) = s.posture.view.epoch ∧ s.posture.view.posture.num < Posture.lockdown.num) ∧
    (Reaches (heard 19 (.status c)) s 19 (.status c) ∧ c.posture = .opened ∧ c.epoch = 126) ∧
    (19 ∉ s.img.authorities ∧ 4 < (5 : Byte).toNat) := by decide +kernel

theorem met_PosturesPrevail_runs :
    exec (.postureFrame 0 (sent 5 (.posture 0 126))) (atEpoch 255) =
      .next (after (.postureFrame 0 (sent 5 (.posture 0 126))) (atEpoch 255)) := after_eq (by decide +kernel)

/-- A manual release takes line 0, which follows STAGE, to its active level. -/
theorem met_OutputLines_change :
    let s := filtering .manrel false 5 rel
    let c : Instr := .manrelMade .held true
    exec c s = .next (after c s) ∧ s.running = true ∧ (after c s).running = true ∧
      ((after c s).output 0).driven ≠ (s.output 0).driven :=
  ⟨after_eq (by decide +kernel), by decide +kernel, by decide +kernel, by decide +kernel⟩

/-- One line for each source. -/
def allSources : State :=
  { emptied mem with image := some { img with outputs := Vector.ofFn (fun l : Fin 12 =>
      { source := if l = 1 then .effectivePosture else if l = 2 then .alarmLevel else if l = 3 then .areaOccupancy else .stage
        threshold := 2, activeHigh := true }) } }

/-- PASSBACK alone gives alarm level 2; none gives 0. -/
theorem met_OutputLines_sources :
    allSources.AtPanel ∧ allSources.img.outputs[(1 : Fin 12)].source = .effectivePosture ∧
      allSources.img.outputs[(2 : Fin 12)].source = .alarmLevel ∧ allSources.img.outputs[(3 : Fin 12)].source = .areaOccupancy ∧
      (let t := after (.releaseOutput 0 ⟨[1, 2], 0⟩) (raised .passback allSources);
        t.isActive .passback = true ∧ (t.source .passback).masked = false ∧ 2 = 6 - Source.passback.cls.val ∧
          (t.output 2).driven = true ∧ ∀ x ∈ Source.all, t.isActive x = true → 6 - x.cls.val ≤ 2) := by decide +kernel

theorem met_OutputLines :
    (mem.AtPanel ∧ mem.img.outputs[(0 : Fin 12)].source = .stage ∧ mem.img.outputs[(11 : Fin 12)].source ≠ .stage ∧
      mem.img.outputs[(11 : Fin 12)].source = .noSource) ∧
    (mem.pins.sense[(3 : Fin 12)] = !true ∧ mem.running = true ∧ (mem.output 3).driven ≠ true ∧
      State.reset.pins.sense[(3 : Fin 12)] = !true ∧ State.reset.running = false) ∧
    (let s := mem.setOutput 3 { OutLine.reset with driven := true, mismatch := some 500000 };
      (s.output 3).driven = true ∧ (s.output 3).mismatch = some 500000 ∧ s.running = true) := by decide +kernel

theorem met_DuressAndTamper :
    (let s := filtering .dur2 false 5 mem;
      s.pins.filter (duressPin .dur2) = some 5 ∧ s.pins.level (duressPin .dur2) = false ∧ s.running = true ∧
        (s.source (duressSource .dur2)).pending = false ∧ s.bus.queue.length ≤ 3 ∧
        s.lockdownFlag (duressSource .dur2) = true ∧ s.lockoutStage = s.doors.a.lockout ∧ s.NoStart) ∧
    (let s := filtering .tamper false 5 mem;
      s.pins.filter .tamper = some 5 ∧ s.pins.tamperOpen = false ∧ s.running = true ∧ (s.source .tamper).pending = false ∧
        ((raised .tamper s).source .tamper).pending = true) ∧
    (let s := filtering .dur1 true 5 (filtering .tamper true 5 mem);
      s.pins.filter (duressPin .dur1) = some 5 ∧ s.pins.level (duressPin .dur1) = true ∧
        s.pins.filter .tamper = some 5 ∧ s.pins.tamperOpen = true) := by decide +kernel

/-- A class 2 source, an auto-restored one, and PEER_DURESS. -/
theorem met_NextAlarmAcknowledges :
    (let s := raised .doorAForced (raised .passback mem);
      s.AtPanel ∧ s.ann.rotation[Source.doorAForced.cls].find? s.isCandidate = some .doorAForced ∧
        (∀ c : Fin 6, c < Source.doorAForced.cls → ∀ y ∈ s.ann.rotation[c], s.isCandidate y = false) ∧
        Source.doorAForced.cls = 2) ∧
    (let s := raised .passback mem;
      s.ann.rotation[Source.passback.cls].find? s.isCandidate = some .passback ∧ Source.passback.cls = 4) ∧
    (let s := withRemote ([{ told 19 .duress with acked := true }] ++ told 41 .duress :: [told 30 .firstAlarm]) mem;
      s.ann.rotation[Source.peerDuress.cls].find? s.isCandidate = some .peerDuress ∧
        (∀ z ∈ [{ told 19 .duress with acked := true }], z.kind ≠ .duress ∨ z.acked = true)) := by decide +kernel

theorem met_NextAlarmAcknowledges_none : mem.AtPanel ∧ ∀ x, mem.isCandidate x = false := by
  refine ⟨by decide +kernel, ?_⟩
  intro x
  cases x <;> decide +kernel

theorem met_RestoringAndMasking :
    (mem.AtPanel ∧ mem.isInService .tamper = false ∧ (serviced .tamper mem).isInService .tamper = true) ∧
    (let s := serviced .duress1 mem;
      s.isInService .duress1 = true ∧ s.pins.dur1 = false ∧ (s.setPins { s.pins with dur1 := true }).pins.dur1 = true ∧
        s.bus.queue.length ≤ 3) ∧
    (let s := mem.setSource .busFault { SourceState.reset with inService := true, condition := true };
      s.isInService .busFault = true ∧ Source.busFault.kind = .level ∧ (s.source .busFault).condition = true) ∧
    Source.duress1.cls = 0 ∧ Source.tamper.cls ≠ 0 := by decide +kernel

/-- A list with seven entries and with eight. -/
theorem met_RemoteAlarmList :
    let on : Frame := .duress 5 true 3
    let off : Frame := .duress 4 false 3
    let other : Frame := .duress 6 true 3
    let some7 := (List.range 7).map (fun k => told (20 + k) .duress)
    let s := withRemote some7 mem
    let f := withRemote (told 27 .duress :: some7) mem
    (Reaches (heard 19 on) s 19 on ∧ (¬∃ e ∈ s.ann.remote, e.station = 19 ∧ e.kind = .duress) ∧ s.ann.remote.length < 8) ∧
    (Reaches (heard 19 on) f 19 on ∧ (¬∃ e ∈ f.ann.remote, e.station = 19 ∧ e.kind = .duress) ∧ 8 ≤ f.ann.remote.length) ∧
    (Reaches (heard 20 on) f 20 on ∧ ∃ e ∈ f.ann.remote, e.station = 20 ∧ e.kind = .duress) ∧
    (Reaches (heard 20 off) f 20 off ∧ Reaches (heard 20 other) f 20 other ∧ f.AtPanel ∧
      f.lockoutStage = f.doors.a.lockout) := by decide +kernel

/-- The overlay held by one station in scope, with no source flagged; and another in scope. -/
theorem met_RemoteAlarmList_overlay :
    let s := withRemote [told 19 .duress, told 30 .duress] calm
    (Reaches (heard 19 (.duress 4 false 3)) s 19 (.duress 4 false 3) ∧
      (∀ e ∈ s.ann.remote, e.kind = .duress → e.station ≠ 19 →
        ¬(s.img.scope = .all ∨ s.img.scope = .sameArea ∧ e.station ∈ s.img.members))) ∧
    (Reaches (heard 7 (.duress 5 true 3)) s 7 (.duress 5 true 3) ∧ s.img.scope = .sameArea ∧ 7 ∈ s.img.members) ∧
    ∀ x, s.lockdownFlag x = false := by
  refine ⟨by decide +kernel, by decide +kernel, ?_⟩
  intro x
  cases x <;> decide +kernel

/-! ## The statements' hypotheses are met: the bus, the port, every step -/

/-- At 11 recessive bits, and at 10; on an empty queue. -/
theorem met_SendingAndCompleting :
    (let s := withQueue busy mem;
      s.bus.queue = queued (.duress 4 true 3) 5 :: busy.drop 1 ∧ s.startup.phase = .run ∧ s.bus.inFlight = none ∧
        s.bus.quiet = none ∧ s.bus.stuck = false ∧ s.bus.listenOnly = false ∧
        11 ≤ ((s.elapse 0).hear (List.replicate 11 true)).bus.recessive ∧
        ¬11 ≤ ((s.elapse 0).hear (List.replicate 10 true)).bus.recessive) ∧
    mem.bus.queue = [] ∧ sending.bus.inFlight = some (queued (.duress 4 true 3) 5) := by decide +kernel

/-- A STATUS in flight while a newer one waits. -/
def outdated : State :=
  let s := withQueue [queued (.status said) 7] mem
  s.setBus { s.bus with inFlight := some (queued (.status elsewhere) 5), abandoned := 7 }

/-- A full queue whose last entry gives way, and one that takes no more. -/
theorem met_BusTrouble_overrun :
    let full : List QueueEntry → Frame → State := fun q f =>
      (withQueue q mem).setBus { (withQueue q mem).bus with inFlight := some (queued f 5) }
    let s := full crowded (.duress 4 true 3)
    let u := full urgent (.detect 3 0 1 true 1)
    (s.bus.Wf ∧ s.bus.queue.length = 6 ∧ s.NoStart ∧ s.bus.queue.getLast? = some (queued .query 16) ∧
      (Frame.duress 4 true 3).urgency < Frame.query.urgency ∧ (Frame.duress 4 true 3).supersedes = false) ∧
    (u.bus.Wf ∧ u.bus.queue.length = 6 ∧ u.NoStart ∧
      u.bus.queue.getLast? = some (queued (.duress 4 true 3) 16) ∧
      (Frame.duress 4 true 3).urgency ≤ (Frame.detect 3 0 1 true 1).urgency) := by decide +kernel

theorem met_BusTrouble :
    (sending.bus.inFlight = some (queued (.duress 4 true 3) 5) ∧ sending.bus.queue.length ≤ 3 ∧
      (Frame.duress 4 true 3).supersedes = false ∧ sending.bus.abandoned ≠ 7) ∧
    (outdated.bus.inFlight = some (queued (.status elsewhere) 5) ∧ (Frame.status elsewhere).supersedes = true ∧
      (∃ q ∈ outdated.bus.queue, q.frame.kind = (Frame.status elsewhere).kind) ∧ outdated.bus.abandoned = 7 ∧
      outdated.running = true) ∧
    (mem.setBus { mem.bus with quiet := some 2000000 }).bus.quiet = some 2000000 ∧
    State.reset.running = false ∧ mem.running = true ∧ mem.receiving = true ∧ mem.bus.recessive ≤ 11 := by decide +kernel

theorem met_StatusTiming :
    (let s := mem.setBus { mem.bus with firstStatus := some 240000 };
      s.bus.firstStatus = some 240000 ∧ s.bus.queue.length ≤ 3 ∧ s.NoStart) ∧
    (let s := (alarmed 130).setBus { mem.bus with statusTimer := some 10000000 };
      s.bus.statusTimer = some 10000000 ∧ s.role = .member ∧ s.bus.queue.length ≤ 3 ∧ (s.line 0).stage = .alarm ∧
        s.seq.list.length ≤ 4 ∧ ∀ e ∈ s.seq.list, ¬(e.station = s.address ∧ e.line = 0)) ∧
    ∀ l, (mem.line l).stage ≠ .alarm := by decide +kernel

/-- A release station whose status timer ends at 10 s, its lines 0 and 1 in ALARM, of groups 1 and 2; the own roster and
the members empty. -/
def missing (st : Stage) (list : List Detection) : State :=
  let s := { emptied rel with image := some { relImg with lines := relImg.lines.set 1 { cfg with group := .g2 } } }
  let burnt : Line := { steady 130 120 with stage := .alarm, pulse := none, stuck := none, openTimer := none }
  let s := withList list (atStage st ((s.setLine 0 burnt).setLine 1 burnt))
  s.setBus { s.bus with statusTimer := some 10000000 }

/-- R45 at a release station: line 1 alone is missed beside another of its group; both lines are missed, and complete
coincidence, in a clear area, in an occupied one and under abort; and in ISOLATED they are recorded. -/
theorem met_StatusTiming_release :
    let c : Instr := .statusTimerExpiry
    let s := missing .normal [detected 7 0 .g2]
    let m := missing .normal []
    let o := (withRoster [inside 5] m).setSeq { m.seq with occupied := true }
    let h := m.setSeq { m.seq with abortSet := [12] }
    let i := missing .isolated []
    (s.bus.statusTimer = some 10000000 ∧ s.role = .release ∧ s.seq.list.length ≤ 4 ∧ s.bus.queue.length ≤ 3 ∧
      (s.line 1).stage = .alarm ∧ (after c s).seq.stage = .firstAlarm ∧ (after c s).seq.list.length = 2) ∧
    (m.areaOccupied = m.seq.occupied ∧ m.areaOccupied = false ∧ m.seq.abortSet = [] ∧ m.img.tpd ≠ 0 ∧
      (after c m).seq.stage = .countdown ∧ (after c m).seq.countdown = some 40000000 ∧
      (after c m).seq.list.map Detection.consumed = [true, true]) ∧
    (o.areaOccupied = o.seq.occupied ∧ o.areaOccupied = true ∧ (after c o).seq.stage = .inhibited) ∧
    (h.seq.abortSet ≠ [] ∧ (after c h).seq.stage = .held ∧ (after c h).seq.frozen = 30000000) ∧
    ((after c i).seq.stage = .isolated ∧ (after c i).seq.list.map Detection.consumed = [false, false]) := by decide +kernel

/-- The widest STATUS that a station announces. -/
def widest : Announcement := { said with
  area := 15, posture := .lockdown, epoch := 255, stage := .vented, doubtful := true, count := 16, alarmMask := 15
  groupMask := 15, abortHeld := true, duressActive := true, alarmLevel := 6, period := 16
  outcome := some { door := .b, tag := 255, outcome := .notAllowed } }

theorem met_FramesSurviveTheLine :
    1 ≤ 48 ∧ (Frame.status widest).Wf ∧ acceptBits ((Frame.status widest).lineBits 48) = some (48, .status widest) ∧
      acceptBits [] = none := by
  decide +kernel

/-- RESET_DETECTION with a line out of its range, and with a wrong length, in every port state. -/
theorem met_PanelFrames :
    (panelCall (.resetDetection 0 ⟨[1, 4], 0⟩) = some { code := 12, length := 1, dt := 0, rest := ⟨[1, 4], 0⟩ } ∧ mem.AtPanel ∧
      mem.portTakes = true ∧ State.reset.portTakes = false ∧ answeredState.port.reply = some [16, 0, 0, 0] ∧
      (mem.setPort { mem.port with state := .busy }).port.state = .busy ∧ answeredState.port.state = .reply ∧
      (loading.setStartup { loading.startup with phase := .configFault }).portTakes = true) ∧
    ((([2, 0] : List Byte).head?.map BitVec.toNat).getD 0 ≠ 1 ∧ (([1] : List Byte).drop 1).length < 1) ∧
    (([true, false, true] : List Bool).length < 8 ∧ 1 ≤ (21 : Byte).toNat ∧ (21 : Byte).toNat ≤ 21 ∧
      22 ≤ (255 : Byte).toNat) ∧ ¬argumentsOk mem 12 [4] := by
  refine ⟨by decide +kernel, by decide +kernel, by decide +kernel, ?_⟩
  simp only [argumentsOk]
  decide +kernel

/-- R184: RESET_DETECTION with one byte and with two bytes past its parameter. -/
theorem met_PanelFrames_extra :
    let i : Instr := .resetDetection 0 ⟨[1, 0], 0⟩
    let j : Instr := .resetDetection 0 ⟨[1, 0, 9, 8], 0⟩
    let c : PanelCall := { code := 12, length := 1, dt := 0, rest := ⟨[1, 0], 0⟩ }
    (panelCall i = some c ∧ panelCall j = some { c with rest := { c.rest with bytes := c.rest.bytes ++ [9, 8] } } ∧
      c.rest.bytes = 1 :: [0] ∧ (1 : Byte).toNat ≤ ([0] : List Byte).length ∧ (alarmed 110).portTakes = true ∧
      (alarmed 110).port.state = .idle) ∧
    (after j (alarmed 110)).setPort { (after j (alarmed 110)).port with psdo := [] } =
      (after i (alarmed 110)).setPort { (after i (alarmed 110)).port with psdo := [] } ∧
    (after j (alarmed 110)).port.psdo = List.replicate 5 0 := by decide +kernel

theorem met_ReportingCommands :
    mem.AtPanel ∧ mem.port.snapshot = none ∧ mem.portTakes = true ∧ mem.port.state = .idle := by decide +kernel

/-- A held snapshot. -/
def latched : State := mem.setPort { mem.port with snapshot := some {
  running := 63, countdown := 0, soak := 0, doorA := 0, doorB := 0, pairA := 0, pairB := 0 } }

theorem met_ReadTimesReleasesTheSnapshot :
    latched.AtPanel ∧ latched.port.snapshot.isSome = true ∧ mem.AtPanel ∧ mem.port.snapshot = none ∧
    exec .pinReset latched = .next (after .pinReset latched) :=
  ⟨by decide +kernel, by decide +kernel, by decide +kernel, by decide +kernel, after_eq (by decide +kernel)⟩

/-- A reply of four bytes, read whole with four and short with three. -/
theorem met_ReplyReads :
    answeredState.portTakes = true ∧ answeredState.port.state = .reply ∧ answeredState.port.reply = some [16, 0, 0, 0] ∧
      ([16, 0, 0, 0] : List Byte).length ≤ 4 ∧ 3 < ([16, 0, 0, 0] : List Byte).length ∧ mem.port.state = .idle ∧
      mem.portTakes = true := by decide +kernel

/-- The state a step answers. -/
def stepped (s : State) : State :=
  match step s with
  | .next t => t
  | .fault _ => s
  | .refused _ => s

theorem stepped_eq {s : State}
    (h : (match step s with | .next _ => true | .fault _ => false | .refused _ => false) = true) :
    step s = .next (stepped s) := by
  unfold stepped
  split at h <;> rename_i e
  · rw [e]
  · cases h
  · cases h

/-- The step that energises the valve, with a door released, frames queued and every table in use. -/
def working : State :=
  let s := withRemote [told 19 .duress] (withRoster fifteen (withList full (withDoor .a (releasedDoor (entry 5)) valving)))
  let s := withQueue busy s
  { s with pending := [.valveDelayExpiry] }

theorem met_every_step : step working = .next (stepped working) ∧ (stepped working).seq.valve = true ∧ working.Safe :=
  ⟨stepped_eq (by decide +kernel), by decide +kernel, by decide +kernel⟩

set_option synthInstance.maxSize 1000 in
/-- Before the blocks run: the inputs pass into the LOAD's end. -/
theorem met_OutputsAndConditionsFollow_stopped :
    let s := { loading with pending := [.imageLoadComplete 2000 (Vector.replicate 96 0)] }
    s.Following ∧ s.running = false ∧ step s = .next (stepped s) :=
  ⟨by decide +kernel, by decide +kernel, stepped_eq (by decide +kernel)⟩

set_option synthInstance.maxSize 1000 in
/-- The step in which a manual release brings lockout, and line 0, which follows STAGE from ordinal 3, to its active
level. -/
theorem met_OutputsAndConditionsFollow :
    let s := filtering .manrel false 5 (settle (recomputeAlarms rel))
    s.Following ∧ s.running = true ∧ step s = .next (stepped s) ∧ ((stepped s).door .b).lockout = true ∧
      (s.output 0).driven = false ∧ ((stepped s).output 0).driven = true :=
  ⟨by decide +kernel, by decide +kernel, stepped_eq (by decide +kernel), by decide +kernel, by decide +kernel, by decide +kernel⟩

end Sys2Proof.Tests
end

section
/-! SUPPORT. What a command keeps between the settlings of its event: the lockout at both doors, the sounder's cadence, the
alarm levels, lines in ALARM and the stage ISOLATED. -/

namespace Sys2Proof.Machine

/-! ## What holds between two settlings -/

/-- What `Following` asks of the fields that no operation but a settling moves: one lockout at both doors (R79), a
cadence that fits its pattern (R74), and every line's alarm level (R13). -/
structure Grounded (s : State) : Prop where
  lockout : s.doors.a.lockout = s.doors.b.lockout
  cadence : s.seq.CadenceFits
  alarmed : s.running = true → Alarmed s

/-- What every operation keeps: `Grounded`, that the blocks run, a line in ALARM (R15) and the stage ISOLATED (R71). -/
structure Keeps (s t : State) : Prop where
  running : s.running = true → t.running = true
  grounded : Grounded s → Grounded t
  alarm : ∀ l, (s.line l).stage = .alarm → (t.line l).stage = .alarm
  isolated : s.seq.stage = .isolated → t.seq.stage = .isolated

theorem Keeps.refl (s : State) : Keeps s s := ⟨id, id, fun _ => id, id⟩

theorem Keeps.trans {s t u : State} (h : Keeps s t) (k : Keeps t u) : Keeps s u :=
  ⟨fun r => k.running (h.running r), fun g => k.grounded (h.grounded g), fun l a => k.alarm l (h.alarm l a),
    fun i => k.isolated (h.isolated i)⟩

/-- The cadence, its pattern and its phase are as they were, and ISOLATED stays. -/
structure SeqKeeps (s t : State) : Prop where
  cadence : t.seq.cadence = s.seq.cadence
  pattern : t.seq.pattern = s.seq.pattern
  phaseEnd : t.seq.phaseEnd = s.seq.phaseEnd
  isolated : s.seq.stage = .isolated → t.seq.stage = .isolated

theorem SeqKeeps.refl (s : State) : SeqKeeps s s := ⟨rfl, rfl, rfl, id⟩

theorem SeqKeeps.trans {s t u : State} (h : SeqKeeps s t) (k : SeqKeeps t u) : SeqKeeps s u :=
  ⟨k.cadence.trans h.cadence, k.pattern.trans h.pattern, k.phaseEnd.trans h.phaseEnd,
    fun i => k.isolated (h.isolated i)⟩

theorem SeqKeeps.of_eq {s t : State} (h : t.seq = s.seq) : SeqKeeps s t := by
  constructor <;> rw [h]
  exact id

/-- The Sequencer is written, its sounder and its stage left alone. -/
theorem SeqKeeps.write (s : State) (q : Sequencer) (hc : q.cadence = s.seq.cadence := by rfl)
    (hp : q.pattern = s.seq.pattern := by rfl) (he : q.phaseEnd = s.seq.phaseEnd := by rfl)
    (hi : q.stage = s.seq.stage := by rfl) : SeqKeeps s (s.setSeq q) :=
  ⟨hc, hp, he, hi.trans⟩

/-- The Sequencer is written in another stage than ISOLATED, its sounder left alone. -/
theorem SeqKeeps.leave (s : State) (h : s.seq.stage ≠ .isolated) (q : Sequencer)
    (hc : q.cadence = s.seq.cadence := by rfl) (hp : q.pattern = s.seq.pattern := by rfl)
    (he : q.phaseEnd = s.seq.phaseEnd := by rfl) : SeqKeeps s (s.setSeq q) :=
  ⟨hc, hp, he, fun i => absurd i h⟩

theorem BusOnly.seqKeeps {s t : State} (h : BusOnly s t) : SeqKeeps s t := .of_eq h.seq_eq

theorem SeqKeeps.cadenceFits {s t : State} (h : SeqKeeps s t) (f : s.seq.CadenceFits) : t.seq.CadenceFits := by
  simpa only [Sequencer.CadenceFits, h.cadence, h.pattern, h.phaseEnd] using f

theorem Grounded.of_fields {s t : State} (image : t.image = s.image) (running : t.running = s.running)
    (lockout : ∀ d, (t.door d).lockout = (s.door d).lockout) (seq : s.seq.CadenceFits → t.seq.CadenceFits)
    (effective : t.posture.effective = s.posture.effective) (alarms : ∀ l, (t.line l).effAlarm = (s.line l).effAlarm)
    (g : Grounded s) : Grounded t := by
  refine ⟨(lockout .a).trans (g.lockout.trans (lockout .b).symm), seq g.cadence, fun hr l => ?_⟩
  have hi : t.img = s.img := by unfold State.img; rw [image]
  rw [alarms l, g.alarmed (running ▸ hr) l, effective, State.lineCfg, State.lineCfg, hi]

/-- An operation that moves none of the fields that `Keeps` reads. -/
theorem Keeps.of_fields {s t : State} (image : t.image = s.image) (running : t.running = s.running)
    (lockout : ∀ d, (t.door d).lockout = (s.door d).lockout) (seq : SeqKeeps s t)
    (effective : t.posture.effective = s.posture.effective)
    (lines : ∀ l, (t.line l).effAlarm = (s.line l).effAlarm ∧ ((s.line l).stage = .alarm → (t.line l).stage = .alarm)) :
    Keeps s t where
  running := running.trans
  grounded := .of_fields image running lockout seq.cadenceFits effective fun l => (lines l).1
  alarm l := (lines l).2
  isolated := seq.isolated

theorem SeqOnly.line {s t : State} (h : SeqOnly s t) (l : Fin 4) : t.line l = s.line l := by
  unfold State.line
  rw [h.lines_eq]

theorem SeqOnly.grounded {s t : State} (h : SeqOnly s t) (k : s.seq.CadenceFits → t.seq.CadenceFits) (g : Grounded s) :
    Grounded t :=
  .of_fields h.image h.toHanded.running (fun d => by cases d <;> simp only [State.door, h.doors_eq]) k
    (by rw [h.posture_eq]) (fun l => by rw [h.line]) g

/-- An operation that moves the Sequencer, the queue and the sources alone. -/
theorem SeqOnly.keeps {s t : State} (h : SeqOnly s t) (k : SeqKeeps s t) : Keeps s t :=
  .of_fields h.image h.toHanded.running (fun d => by cases d <;> simp only [State.door, h.doors_eq]) k
    (by rw [h.posture_eq]) (fun l => by simp only [State.line, h.lines_eq, true_and]; exact id)

theorem BusOnly.keeps {s t : State} (h : BusOnly s t) : Keeps s t := h.toSeqOnly.keeps h.seqKeeps

/-! ## Writes of one block -/

theorem elapse_keeps (s : State) (dt : Nat) : Keeps s (s.elapse dt) :=
  .of_fields rfl rfl (fun d => by cases d <;> rfl) (.of_eq rfl) rfl fun _ => ⟨rfl, id⟩

theorem reach_keeps (s : State) (t : Nat) : Keeps s (s.reach t) :=
  .of_fields rfl rfl (fun d => by cases d <;> rfl) (.of_eq rfl) rfl fun _ => ⟨rfl, id⟩

theorem setPins_keeps (s : State) (p : Pins) : Keeps s (s.setPins p) :=
  .of_fields rfl rfl (fun d => by cases d <;> rfl) (.of_eq rfl) rfl fun _ => ⟨rfl, id⟩

theorem setAnn_keeps (s : State) (a : Annunciator) : Keeps s (s.setAnn a) :=
  .of_fields rfl rfl (fun d => by cases d <;> rfl) (.of_eq rfl) rfl fun _ => ⟨rfl, id⟩

theorem setBus_keeps (s : State) (b : Bus) : Keeps s (s.setBus b) :=
  .of_fields rfl rfl (fun d => by cases d <;> rfl) (.of_eq rfl) rfl fun _ => ⟨rfl, id⟩

theorem setRoster_keeps (s : State) (r : Roster) : Keeps s (s.setRoster r) :=
  .of_fields rfl rfl (fun d => by cases d <;> rfl) (.of_eq rfl) rfl fun _ => ⟨rfl, id⟩

theorem setEntry_keeps (s : State) (e : EntryUnit) : Keeps s (s.setEntry e) :=
  .of_fields rfl rfl (fun d => by cases d <;> rfl) (.of_eq rfl) rfl fun _ => ⟨rfl, id⟩

theorem setSeq_keeps (s : State) (q : Sequencer) (h : SeqKeeps s (s.setSeq q)) : Keeps s (s.setSeq q) :=
  (setSeq_only s q).keeps h

theorem setPosture_keeps (s : State) (p : PostureUnit) (h : p.effective = s.posture.effective := by rfl) :
    Keeps s (s.setPosture p) :=
  .of_fields rfl rfl (fun d => by cases d <;> rfl) (.of_eq rfl) h fun _ => ⟨rfl, id⟩

theorem setPeer_keeps (s : State) (a : Nat) (p : Peer) : Keeps s (s.setPeer a p) :=
  .of_fields (by simp) (by simp [State.running]) (fun d => by cases d <;> simp [State.door]) (.of_eq (by simp))
    (by simp) fun l => by simp [State.line]

theorem setSource_keeps (s : State) (x : Source) (y : SourceState) : Keeps s (s.setSource x y) := setAnn_keeps s _

theorem setOutput_keeps (s : State) (l : Fin 12) (x : OutLine) : Keeps s (s.setOutput l x) := setPosture_keeps s _ rfl

theorem setStartup_keeps (s : State) (x : Startup) (h : (s.setStartup x).running = s.running) :
    Keeps s (s.setStartup x) :=
  .of_fields rfl h (fun d => by cases d <;> rfl) (.of_eq rfl) rfl fun _ => ⟨rfl, id⟩

theorem setDoor_keeps (s : State) (d : DoorId) (x : Door) (h : x.lockout = (s.door d).lockout := by rfl) :
    Keeps s (s.setDoor d x) :=
  .of_fields (by simp) (by simp [State.running])
    (fun e => by rw [State.setDoor_door]; split <;> simp_all) (.of_eq (by simp)) (by simp) fun l => by simp [State.line]

theorem setLine_keeps (s : State) (l : Fin 4) (x : Line) (he : x.effAlarm = (s.line l).effAlarm)
    (ha : (s.line l).stage = .alarm → x.stage = .alarm) : Keeps s (s.setLine l x) :=
  .of_fields rfl rfl (fun d => by cases d <;> rfl) (.of_eq rfl) rfl fun k => by
    rw [State.setLine_line]
    split
    · next h => subst h; exact ⟨he, ha⟩
    · exact ⟨rfl, id⟩

theorem hear_keeps (s : State) (levels : List Bool) : Keeps s (s.hear levels) := by
  unfold State.hear
  split
  · exact setBus_keeps s _
  · exact .refl s

/-! ## The Sequencer -/

theorem sendNotice_seqKeeps (s : State) : SeqKeeps s (sendNotice s) :=
  (SeqKeeps.write s _).trans (enqueue_only _ _).seqKeeps

theorem confirmFlow_seqKeeps (s : State) : SeqKeeps s (confirmFlow s) :=
  (SeqKeeps.write s _).trans (sendNotice_seqKeeps _)

/-- R52: another stage is entered from any stage but ISOLATED. -/
theorem enterStage_seqKeeps (st : Stage) (s : State) (h : s.seq.stage ≠ .isolated) :
    SeqKeeps s (enterStage st s) :=
  (SeqKeeps.leave s h _).trans (sendNotice_seqKeeps _)

theorem energiseValve_seqKeeps (s : State) : SeqKeeps s (energiseValve s) := by
  unfold energiseValve
  dsimp only
  have h : SeqKeeps s (trigger .discharge (s.setSeq { s.seq with
      valve := true, valveDelay := none, valvePulse := some (s.now + Config.ms s.img.pv),
      flowWait := some (s.now + Config.sec s.img.tf), flowConfirmed := false })) :=
    (SeqKeeps.write s _).trans (trigger_only .discharge _ (by decide)).seqKeeps
  split
  · exact h.trans (confirmFlow_seqKeeps _)
  · exact h

theorem enterReleasing_seqKeeps (s : State) (h : s.seq.stage ≠ .isolated) : SeqKeeps s (enterReleasing s) := by
  unfold enterReleasing
  dsimp only
  split
  · exact (enterStage_seqKeeps _ s h).trans (energiseValve_seqKeeps _)
  · exact (enterStage_seqKeeps _ s h).trans (.write _ _)

theorem enterCountdown_seqKeeps (r : Nat) (s : State) (h : s.seq.stage ≠ .isolated) :
    SeqKeeps s (enterCountdown r s) := by
  unfold enterCountdown
  split
  · exact enterReleasing_seqKeeps s h
  · exact (SeqKeeps.leave s h _).trans (sendNotice_seqKeeps _)

theorem enterHeld_seqKeeps (r : Nat) (s : State) (h : s.seq.stage ≠ .isolated) : SeqKeeps s (enterHeld r s) :=
  (SeqKeeps.leave s h _).trans (sendNotice_seqKeeps _)

theorem startCountdown_seqKeeps (r : Nat) (s : State) (h : s.seq.stage ≠ .isolated) :
    SeqKeeps s (startCountdown r s) := by
  unfold startCountdown
  split
  · exact enterCountdown_seqKeeps r s h
  · exact enterHeld_seqKeeps r s h

theorem coincidenceMet_seqKeeps (s : State) : SeqKeeps s (coincidenceMet s) := by
  unfold coincidenceMet
  split
  · next h =>
    have hn : s.seq.stage ≠ .isolated := fun i => by simp [i] at h
    split
    · exact enterStage_seqKeeps _ s hn
    · exact startCountdown_seqKeeps _ s hn
  · exact .refl _

theorem followList_seqKeeps (s : State) : SeqKeeps s (followList s) := by
  unfold followList
  split
  · next h => exact enterStage_seqKeeps _ s (fun i => by simp [i] at h)
  · split
    · next h => exact enterStage_seqKeeps _ s (fun i => by simp [i] at h)
    · exact .refl _

theorem listChanged_seqKeeps (s : State) : SeqKeeps s (listChanged s) := by
  unfold listChanged
  split
  · split
    · exact ((SeqKeeps.write s _).trans (coincidenceMet_seqKeeps _)).trans (followList_seqKeeps _)
    · exact followList_seqKeeps s
  · exact .refl _

theorem setList_seqKeeps (s : State) (list : List Detection) :
    SeqKeeps s (listChanged (s.setSeq { s.seq with list := list })) :=
  (SeqKeeps.write s _).trans (listChanged_seqKeeps _)

theorem detect_seqKeeps (r : Bool) (a : Nat) (l : Fin 4) (g : Group) (s : State) :
    SeqKeeps s (detect r a l g s) := by
  unfold detect
  split
  · exact .refl _
  · split
    · split
      · exact .refl _
      · exact setList_seqKeeps s _
    · split
      · exact setList_seqKeeps s _
      · exact .refl _

theorem dropDetection_seqKeeps (a : Nat) (l : Fin 4) (s : State) : SeqKeeps s (dropDetection a l s) := by
  unfold dropDetection
  split
  · exact setList_seqKeeps s _
  · exact .refl _

theorem withdraw_seqKeeps (a : Nat) (l : Fin 4) (s : State) : SeqKeeps s (withdraw a l s) := by
  unfold withdraw
  split
  · exact .refl _
  · exact dropDetection_seqKeeps a l s

theorem abortJoin_seqKeeps (a : Nat) (s : State) : SeqKeeps s (abortJoin a s) := by
  unfold abortJoin
  dsimp only
  split
  · exact .refl _
  · split
    · split
      · next h =>
        exact (SeqKeeps.write s _).trans (enterHeld_seqKeeps _ _ (by rw [h]; decide))
      · exact .write s _
    · exact .write s _

theorem abortLeave_seqKeeps (a : Nat) (s : State) : SeqKeeps s (abortLeave a s) := by
  unfold abortLeave
  dsimp only
  split
  · split
    · split
      · next h =>
        exact (SeqKeeps.write s _).trans (enterCountdown_seqKeeps _ _ (by rw [h]; decide))
      · exact .write s _
    · exact .write s _
  · exact .refl _

theorem manualRelease_seqKeeps (s : State) : SeqKeeps s (manualRelease s) := by
  unfold manualRelease
  split
  case h_1 h => exact startCountdown_seqKeeps _ s (by simp [h])
  case h_2 h => exact startCountdown_seqKeeps _ s (by simp [h])
  case h_3 h => exact startCountdown_seqKeeps _ s (by simp [h])
  case h_4 h =>
    split
    · exact enterCountdown_seqKeeps _ s (by simp [h])
    · exact .refl _
  case h_5 h =>
    split
    · exact enterHeld_seqKeeps _ s (by simp [h])
    · exact .refl _
  all_goals exact .refl _

theorem actOnCall_seqKeeps (a : Nat) (call : Byte) (s : State) : SeqKeeps s (actOnCall a call s) := by
  unfold actOnCall
  split
  · exact manualRelease_seqKeeps s
  · exact abortJoin_seqKeeps a s
  · exact abortLeave_seqKeeps a s
  · exact .refl _

theorem evalOccupancy_seqKeeps (s : State) : SeqKeeps s (evalOccupancy s) := by
  unfold evalOccupancy
  dsimp only
  split
  · exact .refl _
  · split
    · next h =>
      exact (SeqKeeps.write s _).trans (startCountdown_seqKeeps _ _ (by rw [h.2.1]; decide))
    · exact .write s _

theorem setMirror_seqKeeps (m : Mirror) (s : State) : SeqKeeps s (setMirror m s) := by
  unfold setMirror
  dsimp only
  split
  · exact (SeqKeeps.write s _).trans (trigger_only .discharge _ (by decide)).seqKeeps
  · exact .write s _

/-- R47, R70: a reset of the sequence is refused in ISOLATED. -/
theorem resetSequence_seqKeeps (s : State) (h : s.seq.stage ≠ .isolated) : SeqKeeps s (resetSequence s) :=
  (SeqKeeps.write s _).trans (enterStage_seqKeeps _ _ h)

theorem endValvePulse_seqKeeps (s : State) (h : s.seq.stage ≠ .isolated) : SeqKeeps s (endValvePulse s) :=
  (SeqKeeps.write s _).trans (enterStage_seqKeeps _ _ h)

/-! ## Reservations and doors -/

theorem setReservation_keeps (s : State) (d : DoorId) (x : Option Reservation) : Keeps s (s.setReservation d x) := by
  cases d <;> exact setEntry_keeps s _

theorem setBroken_keeps (s : State) (d : DoorId) (x : Bool) : Keeps s (s.setBroken d x) := by
  cases d <;> exact setEntry_keeps s _

theorem breakAt_keeps (d : DoorId) (s : State) : Keeps s (breakAt d s) := by
  unfold breakAt
  split
  · exact (setReservation_keeps s d _).trans (setBroken_keeps _ d _)
  · exact .refl s

theorem trigger_keeps (x : Source) (s : State) (hx : x.kind ≠ .level) : Keeps s (trigger x s) :=
  (trigger_only x s hx).keeps

theorem enqueue_keeps (f : Frame) (s : State) : Keeps s (enqueue f s) := (enqueue_only f s).keeps

theorem breakReservations_keeps (s : State) : Keeps s (breakReservations s) := by
  unfold breakReservations
  split
  · exact ((breakAt_keeps .a s).trans (breakAt_keeps .b _)).trans (trigger_keeps _ _ (by decide))
  · exact .refl s

theorem setDoubt_keeps (c : DoubtCause) (s : State) : Keeps s (setDoubt c s) := by
  unfold setDoubt
  split
  · exact .refl s
  · exact setRoster_keeps s _

theorem releaseDoor_keeps (d : DoorId) (c : Credit) (s : State) : Keeps s (releaseDoor d c s) := setDoor_keeps s d _

theorem grantRequest_keeps (d : DoorId) (s : State) : Keeps s (grantRequest d s) := by
  unfold grantRequest
  split
  · exact .refl s
  · exact (setDoor_keeps s d { s.door d with request := none, lastPending := .granted } rfl).trans (releaseDoor_keeps d _ _)

theorem interlockTest_keeps (s : State) : Keeps s (interlockTest s) := by
  unfold interlockTest
  split
  · split
    · exact grantRequest_keeps .b s
    · exact grantRequest_keeps .a s
  · split
    · exact grantRequest_keeps .b s
    · exact .refl s

theorem secureDoor_keeps (d : DoorId) (s : State) : Keeps s (secureDoor d s) :=
  (setDoor_keeps s d (s.door d).secured rfl).trans (interlockTest_keeps _)

theorem admitHolder_keeps (time : Nat) (s : State) (h : Holder) : Keeps s (admitHolder time s h) := by
  unfold admitHolder
  split
  · exact .refl s
  · split
    · exact setRoster_keeps s _
    · exact setDoubt_keeps _ s

theorem Keeps.foldl {α : Type} {f : State → α → State} (h : ∀ s x, Keeps s (f s x)) (xs : List α) (s : State) :
    Keeps s (xs.foldl f s) := by
  induction xs generalizing s with
  | nil => exact .refl s
  | cons x xs ih => exact (h s x).trans (ih _)

theorem identifiedExit_keeps (id : Nat) (s : State) : Keeps s (identifiedExit id s) := by
  unfold identifiedExit
  split
  · exact trigger_keeps _ s (by decide)
  · dsimp only
    split
    · exact (setRoster_keeps s _).trans (trigger_keeps _ _ (by decide))
    · exact setRoster_keeps s _

theorem anonymousExit_keeps (s : State) : Keeps s (anonymousExit s) := by
  unfold anonymousExit
  split
  · exact .refl s
  · exact setRoster_keeps s _
  · exact setDoubt_keeps _ s

theorem consummate_keeps (d : DoorId) (s : State) : Keeps s (consummate d s) := by
  unfold consummate
  split
  · split
    · exact Keeps.foldl (admitHolder_keeps _) _ s
    · split
      · exact identifiedExit_keeps _ s
      · exact .refl s
    · exact anonymousExit_keeps s
  · exact .refl s
  · exact .refl s

theorem enterHeldOpen_keeps (d : DoorId) (s : State) : Keeps s (enterHeldOpen d s) := by
  refine ((setDoor_keeps s d _ ?_).trans (setDoubt_keeps _ _)).trans (breakReservations_keeps _)
  rfl

theorem forceDoor_keeps (d : DoorId) (s : State) : Keeps s (forceDoor d s) := by
  refine (((setDoor_keeps s d _ ?_).trans (trigger_keeps _ _ ?_)).trans (setDoubt_keeps _ _)).trans
    (breakReservations_keeps _)
  · rfl
  · cases d <;> decide

theorem openContact_keeps (d : DoorId) (s : State) : Keeps s (openContact d s) := by
  unfold openContact
  split
  case h_1 => exact setDoor_keeps s d _
  case h_2 => exact forceDoor_keeps d s
  all_goals exact setDoor_keeps s d _

theorem closeContact_keeps (d : DoorId) (s : State) : Keeps s (closeContact d s) := by
  unfold closeContact
  split
  · exact (consummate_keeps d s).trans (secureDoor_keeps d _)
  · exact (consummate_keeps d s).trans (secureDoor_keeps d _)
  · exact secureDoor_keeps d s
  · exact .refl s
  · exact .refl s

theorem pressExit_keeps (d : DoorId) (s : State) : Keeps s (pressExit d s) := by
  unfold pressExit
  split
  · exact releaseDoor_keeps d _ s
  all_goals exact .refl s

theorem setCounter_keeps (s : State) (n : BitVec 16) : Keeps s (s.setDoors { s.doors with counter := n }) :=
  .of_fields rfl rfl (fun d => by cases d <;> rfl) (.of_eq rfl) rfl fun _ => ⟨rfl, id⟩

theorem pendCredit_keeps (d : DoorId) (c : Credit) (s : State) : Keeps s (pendCredit d c s) :=
  (setCounter_keeps s _).trans (setDoor_keeps _ d _ rfl)

theorem handCredit_keeps (d : DoorId) (c : Credit) (s : State) : Keeps s (handCredit d c s).2 := by
  unfold handCredit
  split
  · exact .refl s
  · split
    · exact .refl s
    · split
      · exact releaseDoor_keeps d c s
      · exact pendCredit_keeps d c s

end Sys2Proof.Machine
end

section
namespace Sys2Proof.Machine

/-! ## What follows an event -/

theorem interlockTest_lockout (s : State) (d : DoorId) : ((interlockTest s).door d).lockout = (s.door d).lockout := by
  have grant : ∀ e, ((grantRequest e s).door d).lockout = (s.door d).lockout := fun e => by
    unfold grantRequest releaseDoor
    split
    · rfl
    · cases d <;> cases e <;> rfl
  unfold interlockTest
  split
  · split
    · exact grant .b
    · exact grant .a
  · split
    · exact grant .b
    · rfl

/-- R93: what lockout on leaves is held at both doors. -/
theorem lockoutOn_lockout (s : State) (d : DoorId) : ((lockoutOn s).door d).lockout = true := by
  have h : ∀ x : Door, x.lockOut.lockout = true := fun x => by unfold Door.lockOut; split <;> rfl
  unfold lockoutOn
  dsimp only
  split
  · rw [interlockTest_lockout]
    cases d <;> exact h _
  · cases d <;> exact h _

/-- R75, R79, R93: doors that hold one lockout hold the area stage's once it has been handed on. -/
theorem settleLockout_lockout (s : State) (h : s.doors.a.lockout = s.doors.b.lockout) (d : DoorId) :
    ((settleLockout s).door d).lockout = s.lockoutStage := by
  unfold settleLockout
  split
  · next hs => cases d <;> simp only [State.door, hs, ← h]
  · split
    · next hl =>
      have hd := (breakReservations_rest (lockoutOn s)).2.1
      rw [hl, ← lockoutOn_lockout s d]
      cases d <;> simp only [State.door, hd]
    · next hl => cases d <;> simpa [lockoutOff, State.door] using hl

/-- R75, R79: after an event in a running station both doors hold the area stage's lockout. -/
theorem settle_lockout (s : State) (hr : s.running = true) (h : s.doors.a.lockout = s.doors.b.lockout) (d : DoorId) :
    ((settle s).door d).lockout = (settle s).lockoutStage := by
  have he := (evalOccupancy_only s).doors_eq
  have hl : (settle s).lockoutStage = (evalOccupancy s).lockoutStage := by
    unfold State.lockoutStage State.ordinal
    rw [Handed.stage (s := evalOccupancy s) (t := settle s) ?_ (settle_seq s hr).1]
    unfold settle
    rw [if_pos hr]
    exact ((settleLockout_pushed _).toHanded.trans (settleCadence_only _).toHanded).trans (settleLoop_handed _ _)
  have hd : (settle s).doors = (settleLockout (evalOccupancy s)).doors := by
    unfold settle
    rw [if_pos hr, (settleLoop_rest _ _).2, (settleCadence_only _).doors_eq]
  rw [hl, ← settleLockout_lockout (evalOccupancy s) (by rw [he]; exact h) d]
  cases d <;> simp only [State.door, hd]

/-- R74: the sounder that a settling leaves fits its pattern. -/
theorem Sounds.cadenceFits {s t : State} (h : Sounds s t) (f : s.seq.CadenceFits) : t.seq.CadenceFits := by
  obtain ⟨-, same, starts⟩ := h
  by_cases hp : t.seq.pattern = s.seq.pattern
  · obtain ⟨hc, he⟩ := same hp
    simpa only [Sequencer.CadenceFits, hc, hp, he] using f
  · obtain ⟨hc, he⟩ := starts hp
    simp only [Sequencer.CadenceFits, hc, he]
    cases t.seq.pattern <;> simp

/-- R28: area occupied, clause by clause. -/
theorem areaOccupied_iff (s : State) : s.areaOccupied = true ↔ s.Occupied := by
  have hsum : ∀ ms : List Nat,
      0 < (ms.map (fun m => if (s.peer m).presence = .live then (s.peer m).said.count else 0)).sum ↔
        ∃ m ∈ ms, (s.peer m).presence = .live ∧ 0 < (s.peer m).said.count := by
    intro ms
    induction ms with
    | nil => simp
    | cons m ms ih =>
      rw [List.map_cons, List.sum_cons, List.exists_mem_cons_iff, ← ih, Nat.add_pos_iff_pos_or_pos]
      split <;> simp [*]
  unfold State.areaOccupied State.areaCount State.areaDoubt State.Occupied
  simp only [Bool.or_eq_true, decide_eq_true_eq, Nat.add_pos_iff_pos_or_pos, List.length_pos_iff, hsum,
    List.any_eq_true, bne_iff_ne, Bool.not_eq_true']
  constructor
  · rintro ((h | ⟨m, hm, -, h⟩) | h | ⟨m, hm, (h | h) | h⟩)
    · exact .inl h
    · exact .inr (.inr ⟨m, hm, .inr (.inr (.inr h))⟩)
    · exact .inr (.inl h)
    · exact .inr (.inr ⟨m, hm, .inl h⟩)
    · exact .inr (.inr ⟨m, hm, .inr (.inr (.inl h))⟩)
    · exact .inr (.inr ⟨m, hm, .inr (.inl h)⟩)
  · rintro (h | h | ⟨m, hm, h | h | h | h⟩)
    · exact .inl (.inl h)
    · exact .inr (.inl h)
    · exact .inr (.inr ⟨m, hm, .inl (.inl h)⟩)
    · exact .inr (.inr ⟨m, hm, .inr h⟩)
    · exact .inr (.inr ⟨m, hm, .inl (.inr h)⟩)
    · by_cases hl : (s.peer m).presence = .live
      · exact .inl (.inr ⟨m, hm, hl, h⟩)
      · exact .inr (.inr ⟨m, hm, .inl (.inl hl)⟩)

/-- R28: after an event in a running station with an area, the Sequencer holds the area occupancy. -/
theorem settle_occupied (s : State) (hr : s.running = true) (ha : s.role ≠ .noArea) :
    (settle s).seq.occupied = (settle s).areaOccupied := by
  rw [(settle_handed s).areaOccupied, (settle_seq s hr).2]
  have key : ∀ (r : Nat) (q : State), (startCountdown r q).seq.occupied = q.seq.occupied := fun r q => by
    unfold startCountdown enterCountdown enterHeld enterReleasing energiseValve confirmFlow enterStage sendNotice
    dsimp only
    (repeat' split) <;> simp [(enqueue_only _ _).seq_eq, (trigger_only .discharge _ (by decide)).seq_eq]
  unfold evalOccupancy
  dsimp only
  split
  · next h => exact (h.resolve_left ha).symm
  · split
    · rw [key]; rfl
    · rfl

theorem settle_alarmed (s : State) (h : Alarmed s) : Alarmed (settle s) := by
  cases hr : s.running
  · rwa [settle_of_stopped s hr]
  · have p : Posed s (settle s) := by
      unfold settle
      rw [if_pos hr]
      exact (entered_posed s).trans (settleLoop_posed _ _)
    rcases p.change with ⟨he, hl⟩ | ⟨-, ha⟩
    · intro l
      rw [hl l, h l, he, p.handed.lineCfg, p.handed.img]
    · exact ha

/-- R28, R75, R141, R145, R154: a settling keeps what `Keeps` names. -/
theorem settle_keeps (s : State) : Keeps s (settle s) where
  running := (settle_handed s).running.trans
  grounded g := by
    cases hr : s.running
    · rwa [settle_of_stopped s hr]
    · exact ⟨(settle_lockout s hr g.lockout .a).trans (settle_lockout s hr g.lockout .b).symm,
        (settle_sounds s hr).cadenceFits g.cadence, fun _ => settle_alarmed s (g.alarmed hr)⟩
  alarm l h := by rw [(settle_handed s).line_stage l, h]
  isolated h := by
    cases hr : s.running
    · rwa [settle_of_stopped s hr]
    · rw [(apart_fields (settle_seq s hr).1).1]
      exact (evalOccupancy_seqKeeps s).isolated h

/-- R13: the alarm level of a line under a posture. -/
theorem effectiveAlarm_eq (c : LineCfg) (ko : Nat) (p : Posture) :
    effectiveAlarm c ko p = if 2 ≤ p.num then max (c.at_ - ko) (c.wt + 1) else c.at_ := by
  cases p <;> rfl

theorem following_of_stopped {s : State} (hr : s.running = false) (g : Grounded s) : s.Following :=
  ⟨g.lockout, g.cadence, alert_spec s, fun h => by rw [hr] at h; cases h⟩

/-- What follows the state does, once an event has been settled. -/
theorem settle_following {s : State} (g : Grounded s) : (settle s).Following := by
  cases hr : s.running
  · rw [settle_of_stopped s hr]
    exact following_of_stopped hr g
  · have k := (settle_keeps s).grounded g
    have ht : (settle s).running = true := (settle_handed s).running.trans hr
    have hs := settle_settled s hr
    refine ⟨k.lockout, k.cadence, alert_spec _, fun _ => ⟨fun ha => ?_, settle_lockout s hr g.lockout .a,
      (settle_sounds s hr).pattern, (settle_after s).lines hr, Settled.posture hs, fun l => ?_, Settled.conditions hs⟩⟩
    · rw [settle_occupied s hr (by rwa [(settle_handed s).role] at ha)]
      exact areaOccupied_iff _
    · rw [← effectiveAlarm_eq]
      exact k.alarmed ht l

theorem Following.grounded {s : State} (h : s.Following) : Grounded s := by
  obtain ⟨hl, hc, -, hr⟩ := h
  refine ⟨hl, hc, fun r l => ?_⟩
  obtain ⟨-, -, -, -, -, ha, -⟩ := hr r
  rw [ha l, effectiveAlarm_eq]

/-! ## Writes that nothing follows -/

/-- `t` differs from `s` in fields that `Following` does not read, but for a phase of the cadence, and keeps lines in ALARM
and the stage ISOLATED. -/
structure Still (s t : State) : Prop where
  image : t.image = s.image
  phase : t.startup.phase = s.startup.phase
  fallback : t.startup.fallback = s.startup.fallback
  abort : t.pins.abort = s.pins.abort
  vsup : t.pins.vsupOpen = s.pins.vsupOpen
  peers : t.peers = s.peers
  roster : t.roster = s.roster
  posture : t.posture = s.posture
  sources : ∀ x, t.source x = s.source x
  duress : t.ann.remote.filter (·.isDuress) = s.ann.remote.filter (·.isDuress)
  bus : t.bus.quiet = s.bus.quiet ∧ t.bus.stuck = s.bus.stuck ∧ t.bus.listenOnly = s.bus.listenOnly
  doors : ∀ d, (t.door d).lockout = (s.door d).lockout ∧ (t.door d).state = (s.door d).state
  lines : ∀ l, (t.line l).stage = (s.line l).stage ∧ (t.line l).fault = (s.line l).fault ∧
    (t.line l).effAlarm = (s.line l).effAlarm
  seq : t.seq.list = s.seq.list ∧ t.seq.stage = s.seq.stage ∧ t.seq.mirror = s.seq.mirror ∧
    t.seq.abortSet = s.seq.abortSet ∧ t.seq.occupied = s.seq.occupied ∧ t.seq.pattern = s.seq.pattern
  cadence : s.seq.CadenceFits → t.seq.CadenceFits

end Sys2Proof.Machine
end

section
namespace Sys2Proof.Machine

namespace Still

theorem refl (s : State) : Still s s :=
  ⟨rfl, rfl, rfl, rfl, rfl, rfl, rfl, rfl, fun _ => rfl, rfl, ⟨rfl, rfl, rfl⟩, fun _ => ⟨rfl, rfl⟩,
    fun _ => ⟨rfl, rfl, rfl⟩, ⟨rfl, rfl, rfl, rfl, rfl, rfl⟩, id⟩

variable {s t : State} (h : Still s t)
include h

theorem img : t.img = s.img := by unfold State.img; rw [h.image]

theorem role : t.role = s.role := by unfold State.role; rw [h.img]

theorem running : t.running = s.running := by unfold State.running; rw [h.phase]

theorem peer (a : Nat) : t.peer a = s.peer a := by unfold State.peer; rw [h.peers]

theorem lineCfg (l : Fin 4) : t.lineCfg l = s.lineCfg l := by unfold State.lineCfg; rw [h.img]

theorem output (l : Fin 12) : t.output l = s.output l := by unfold State.output; rw [h.posture]

theorem lockdownFlag (x : Source) : t.lockdownFlag x = s.lockdownFlag x := by unfold State.lockdownFlag; rw [h.image]

/-- The DURESS entries of the remote list are the same. -/
theorem remote (p : RemoteEntry → Bool) :
    t.ann.remote.any (fun e => e.isDuress && p e) = s.ann.remote.any (fun e => e.isDuress && p e) := by
  rw [← List.any_filter, ← List.any_filter, h.duress]

theorem isActive (x : Source) : t.isActive x = s.isActive x := by
  unfold State.isActive State.isPending State.isInService
  rw [h.sources, h.remote, h.remote]

theorem stage : t.stage = s.stage := by
  unfold State.stage
  rw [h.role, h.seq.2.1, h.seq.2.2.1]

theorem alarmLevel : t.alarmLevel = s.alarmLevel := by
  unfold State.alarmLevel
  simp only [h.isActive, h.sources]

theorem areaCount : t.areaCount = s.areaCount := by
  unfold State.areaCount
  simp only [h.roster, h.img, h.peer]

theorem areaOccupied : t.areaOccupied = s.areaOccupied := by
  unfold State.areaOccupied State.areaDoubt
  simp only [h.areaCount, h.roster, h.img, h.peer]

theorem driveLevel (l : Fin 12) : t.driveLevel l = s.driveLevel l := by
  have hv : ∀ o, t.sourceValue o = s.sourceValue o := fun o => by
    unfold State.sourceValue State.ordinal
    rw [h.posture, h.stage, h.alarmLevel, h.role, h.roster, h.areaCount]
  unfold State.driveLevel State.followLevel
  rw [h.output, h.img, hv]

theorem overlay : t.overlay = s.overlay := by
  have hi : t.inScope = s.inScope := by
    funext e
    unfold State.inScope State.isMember
    rw [h.img]
  unfold State.overlay State.localRequest
  rw [hi]
  unfold State.inScope
  rw [h.remote]
  simp only [h.isActive, h.lockdownFlag]

theorem conditions (k : s.ConditionsFollow) : t.ConditionsFollow := by
  obtain ⟨hl, hs, hm, ha, -, -⟩ := h.seq
  obtain ⟨hq, hk, ho⟩ := h.bus
  have hst : t.shownStage = s.shownStage := by rw [← shownStage_eq, ← shownStage_eq, h.stage]
  have hda : t.doors.a.state = s.doors.a.state := (h.doors .a).2
  have hdb : t.doors.b.state = s.doors.b.state := (h.doors .b).2
  have hls : ∀ l, (t.line l).stage = (s.line l).stage := fun l => (h.lines l).1
  have hlf : ∀ l, (t.line l).fault = (s.line l).fault := fun l => (h.lines l).2.1
  unfold State.ConditionsFollow at k ⊢
  simpa only [h.sources, hst, hl, h.role, ha, h.abort, hda, hdb, h.lineCfg, hls, hlf, h.vsup, h.phase, h.img, h.peer,
    h.output, hq, hk, ho, h.fallback] using k

theorem following (k : s.Following) : t.Following := by
  have hlock : ∀ d, (t.door d).lockout = (s.door d).lockout := fun d => (h.doors d).1
  obtain ⟨k1, k2, -, kr⟩ := k
  refine ⟨(hlock .a).trans (k1.trans (hlock .b).symm), h.cadence k2, alert_spec t, fun hr => ?_⟩
  obtain ⟨ko, kl, ks, kd, kp, ka, kc⟩ := kr (h.running ▸ hr)
  obtain ⟨-, -, -, -, hocc, hpat⟩ := h.seq
  refine ⟨fun hn => ?_, ?_, ?_, fun l => ?_, ?_, fun l => ?_, h.conditions kc⟩
  · rw [hocc, ko (h.role ▸ hn), ← areaOccupied_iff, ← areaOccupied_iff, h.areaOccupied]
  · refine (hlock .a).trans (kl.trans ?_)
    unfold State.lockoutStage State.ordinal
    rw [h.stage]
  · rw [hpat, ks, ← shownStage_eq, ← shownStage_eq, h.stage]
  · rw [h.output, h.driveLevel]
    exact kd l
  · unfold State.PostureFollows at kp ⊢
    rw [← overlay_spec, h.overlay, overlay_spec, h.posture]
    exact kp
  · rw [(h.lines l).2.2, h.posture, h.lineCfg, h.img]
    exact ka l

theorem keeps : Keeps s t where
  running := h.running.trans
  grounded := .of_fields h.image h.running (fun d => (h.doors d).1) h.cadence (by rw [h.posture])
    fun l => (h.lines l).2.2
  alarm l ha := (h.lines l).1.trans ha
  isolated i := h.seq.2.1.trans i

end Still

/-! ## What a command obeys -/

/-- A whole command: what follows the state still does (O59's invariant), and `Keeps`. -/
structure Obeys (s t : State) : Prop extends Keeps s t where
  following : s.Following → t.Following

theorem Obeys.refl (s : State) : Obeys s s := ⟨.refl s, id⟩

theorem Obeys.trans {s t u : State} (h : Obeys s t) (k : Obeys t u) : Obeys s u :=
  ⟨h.toKeeps.trans k.toKeeps, fun f => k.following (h.following f)⟩

theorem Still.obeys {s t : State} (h : Still s t) : Obeys s t := ⟨h.keeps, h.following⟩

/-- A command whose event is settled. -/
theorem Keeps.settled {s u : State} (h : Keeps s u) : Obeys s (settle u) :=
  ⟨h.trans (settle_keeps u), fun f => settle_following (h.grounded (Following.grounded f))⟩

/-- A command that leaves a station whose blocks do not run. -/
theorem Keeps.stopped {s t : State} (h : Keeps s t) (hr : t.running = false) : Obeys s t := by
  rw [← settle_of_stopped t hr]
  exact h.settled

end Sys2Proof.Machine
end

section
namespace Sys2Proof.Machine

/-! ## Single writes that nothing follows -/

theorem elapse_still (s : State) (dt : Nat) : Still s (s.elapse dt) :=
  { Still.refl s with doors := fun d => by cases d <;> exact ⟨rfl, rfl⟩ }

theorem reach_still (s : State) (t : Nat) : Still s (s.reach t) :=
  { Still.refl s with doors := fun d => by cases d <;> exact ⟨rfl, rfl⟩ }

theorem setPort_still (s : State) (p : Port) : Still s (s.setPort p) :=
  { Still.refl s with doors := fun d => by cases d <;> exact ⟨rfl, rfl⟩ }

theorem setEntry_still (s : State) (e : EntryUnit) : Still s (s.setEntry e) :=
  { Still.refl s with doors := fun d => by cases d <;> exact ⟨rfl, rfl⟩ }

theorem setPins_still (s : State) (p : Pins) (ha : p.abort = s.pins.abort := by rfl)
    (hv : p.vsupOpen = s.pins.vsupOpen := by rfl) :
    Still s (s.setPins p) :=
  { Still.refl s with abort := ha, vsup := hv, doors := fun d => by cases d <;> exact ⟨rfl, rfl⟩ }

theorem setStartup_still (s : State) (x : Startup) (hp : x.phase = s.startup.phase := by rfl)
    (hf : x.fallback = s.startup.fallback := by rfl) : Still s (s.setStartup x) :=
  { Still.refl s with phase := hp, fallback := hf, doors := fun d => by cases d <;> exact ⟨rfl, rfl⟩ }

theorem setBus_still (s : State) (b : Bus) (hq : b.quiet = s.bus.quiet := by rfl) (hs : b.stuck = s.bus.stuck := by rfl)
    (hl : b.listenOnly = s.bus.listenOnly := by rfl) : Still s (s.setBus b) :=
  { Still.refl s with bus := ⟨hq, hs, hl⟩, doors := fun d => by cases d <;> exact ⟨rfl, rfl⟩ }

theorem setFree_still (s : State) (n : Nat) : Still s { s with free := n } :=
  { Still.refl s with doors := fun d => by cases d <;> exact ⟨rfl, rfl⟩ }

theorem hear_still (s : State) (levels : List Bool) : Still s (s.hear levels) := by
  unfold State.hear
  split
  · exact setBus_still s _
  · exact .refl s

theorem setLine_still (s : State) (l : Fin 4) (x : Line) (hs : x.stage = (s.line l).stage := by rfl)
    (hf : x.fault = (s.line l).fault := by rfl) (he : x.effAlarm = (s.line l).effAlarm := by rfl) : Still s (s.setLine l x) :=
  { Still.refl s with
    doors := fun d => by cases d <;> exact ⟨rfl, rfl⟩
    lines := fun k => by
      rw [State.setLine_line]
      split
      · next h => subst h; exact ⟨hs, hf, he⟩
      · exact ⟨rfl, rfl, rfl⟩ }

theorem setDoor_still (s : State) (d : DoorId) (x : Door) (hl : x.lockout = (s.door d).lockout := by rfl)
    (hs : x.state = (s.door d).state := by rfl) : Still s (s.setDoor d x) := by
  have hd : ∀ e, ((s.setDoor d x).door e).lockout = (s.door e).lockout ∧
      ((s.setDoor d x).door e).state = (s.door e).state := fun e => by
    rw [State.setDoor_door]
    split
    · next h => subst h; exact ⟨hl, hs⟩
    · exact ⟨rfl, rfl⟩
  cases d <;> exact { Still.refl s with doors := hd }

/-- R74: a phase of the cadence follows the other. -/
theorem cadenceExpiry_still (s : State) : Still s (cadenceExpiry s) := by
  unfold cadenceExpiry
  split
  · exact .refl s
  · next t ht =>
    refine { Still.refl s with
      doors := fun d => by cases d <;> exact ⟨rfl, rfl⟩
      cadence := fun ⟨off, on, beat⟩ => ?_ }
    cases hp : s.seq.pattern
    case off => have := (off hp).2; rw [ht] at this; cases this
    case continuous => have := (on hp).2; rw [ht] at this; cases this
    all_goals
      have hc := (beat (by simp [hp])).1
      cases h : s.seq.cadence <;> simp_all [Sequencer.CadenceFits, Cadence.next, Pattern.phaseTime]

/-- R167: READ_REMOTE_LIST acknowledges FIRST_ALARM entries, which no condition reads. -/
theorem markRead_still (s : State) : Still s (markRead s) := by
  refine { Still.refl s with
    doors := fun d => by cases d <;> exact ⟨rfl, rfl⟩
    duress := ?_ }
  show (s.ann.remote.map _).filter _ = _
  generalize s.ann.remote = r
  induction r with
  | nil => rfl
  | cons e es ih =>
    rw [List.map_cons, List.filter_cons, List.filter_cons, ih]
    by_cases h : e.kind = .firstAlarm
    · simp [h, RemoteEntry.isDuress]
    · simp [h]

/-! ## Command frames, bus frames and filtered inputs -/

/-- What a state `P` becomes under a command frame: `Q`, where the owner makes it so and the port shows in neither. -/
theorem commandFrame_induction {P Q : State → Prop} (hp : ∀ u p, P u → P (u.setPort p))
    (hq : ∀ u p, Q u → Q (u.setPort p)) (hpq : ∀ u, P u → Q u) {code : Nat} {rest : PanelRest}
    {owner : State → Answer × State} (howner : ∀ u, P u → Q (owner u).2) {s : State} (hs : P s) :
    Q (commandFrame code rest owner s) := by
  have h : Q (answerCommand code rest owner s) := hq _ _ (howner _ (hp _ _ hs))
  unfold commandFrame
  split
  · refine hq _ _ ?_
    split
    · exact hpq _ (hp _ _ hs)
    · exact h
    · exact h
  · exact hpq _ (hp _ _ hs)

theorem panelCommand_induction {P Q : State → Prop} (hp : ∀ u p, P u → P (u.setPort p))
    (hq : ∀ u p, Q u → Q (u.setPort p)) (hpq : ∀ u, P u → Q u) {α : Type} {code len : Nat}
    {parse : State → List Byte → Option α} {act : α → State → Answer × State} {dt : Nat} {rest : PanelRest}
    (hact : ∀ x u, P u → Q (act x u).2) {s : State} (hs : P (s.elapse dt)) :
    Q (panelCommand code len parse act dt rest s) := by
  refine commandFrame_induction hp hq hpq (fun u hu => ?_) hs
  unfold checked
  split
  · exact hpq u hu
  · split
    · split
      · exact hact _ u hu
      · exact hpq u hu
    · exact hpq u hu

/-- A panel command obeys as its owner does. -/
theorem panelCommand_obeys {α : Type} {code len : Nat} {parse : State → List Byte → Option α}
    {act : α → State → Answer × State} {dt : Nat} {rest : PanelRest} (hact : ∀ x u, Obeys u (act x u).2) (s : State) :
    Obeys s (panelCommand code len parse act dt rest s) := by
  have hp : ∀ u p, Obeys s u → Obeys s (u.setPort p) := fun u p h => h.trans (setPort_still u p).obeys
  exact panelCommand_induction hp hp (fun _ h => h) (fun x u h => h.trans (hact x u)) (elapse_still s dt).obeys

/-- A bus frame obeys where its owner keeps. -/
theorem receiveFrame_obeys {kind : Nat} {owner : Nat → Frame → State → State} {bits : List Bool}
    (howner : ∀ a f u, Keeps u (owner a f u)) (s : State) (dt : Nat) :
    Obeys s (receiveFrame kind owner bits (s.elapse dt)) := by
  refine (elapse_still s dt).obeys.trans ?_
  have hd : ∀ a f (u : State), Obeys u (deliver a f owner u) := fun a f u => by
    unfold deliver
    split
    · exact (setBus_keeps u _).settled
    · refine Keeps.settled (Keeps.trans ?_ (howner a f _))
      exact (setPeer_keeps u _ _).trans ((evalOccupancy_only _).keeps (evalOccupancy_seqKeeps _))
  have hh := fun u => (hear_still u bits).obeys
  unfold receiveFrame
  split
  · split
    · split
      · exact (hh _).trans (hd _ _ _)
      · exact hh _
    · exact hh _
  · exact hh _

/-- A filtered input obeys where the taking of its level does. -/
theorem inputEvent_obeys {i : Input} {act : Bool → State → State}
    (hact : ∀ b u, Obeys u (act b (u.setPins (u.pins.take i b)))) (level : Bool) (e : InputEvent) (s : State) :
    Obeys s (inputEvent i level act e s) := by
  have filter : ∀ (u : State) x, Still u (u.setPins (u.pins.setFilter i x)) := fun u x => setPins_still u _
  unfold inputEvent
  split
  · next dt =>
    refine (elapse_still s dt).obeys.trans ?_
    unfold pinMoves
    split
    · exact .refl _
    · split
      · split
        · exact (filter _ _).obeys
        · unfold pinReturns
          split
          · exact (hact _ _).trans (filter _ _).obeys
          · exact (filter _ _).obeys
      · next hr => exact (setPins_keeps _ _).stopped (by simpa [State.running] using hr)
  · split
    · split
      · exact .refl s
      · exact (reach_still s _).obeys.trans (hact _ _)
    · exact .refl s

/-- A level that only a settled effect reads. -/
theorem takePins_keeps (i : Input) (b : Bool) (s : State) : Keeps s (s.setPins (s.pins.take i b)) := setPins_keeps s _

/-- The level of an input other than ABORT is read by no condition. -/
theorem takePins_still (i : Input) (b : Bool) (s : State) (h : i ≠ .abort) : Still s (s.setPins (s.pins.take i b)) := by
  refine setPins_still s _ ?_ ?_ <;> cases i <;> first | rfl | exact absurd rfl h

end Sys2Proof.Machine
end

section
namespace Sys2Proof.Machine

/-! ## Detector lines -/

/-- A line's alarm level is as it was, and ALARM is kept (R13, R15). -/
structure Line.Keeps (x y : Line) : Prop where
  effAlarm : y.effAlarm = x.effAlarm
  alarm : x.stage = .alarm → y.stage = .alarm

theorem Line.Keeps.trans {x y z : Line} (h : x.Keeps y) (k : y.Keeps z) : x.Keeps z :=
  ⟨k.effAlarm.trans h.effAlarm, fun a => k.alarm (h.alarm a)⟩

/-- A line that differs in other fields keeps the same. -/
theorem Line.Keeps.of_same {x y z : Line} (k : y.Keeps z) (he : y.effAlarm = x.effAlarm := by rfl)
    (hs : y.stage = x.stage := by rfl) : x.Keeps z :=
  ⟨k.effAlarm.trans he, fun a => k.alarm (hs.trans a)⟩

theorem Line.detectFault_keeps (k : FaultKind) (x : Line) : x.Keeps (x.detectFault k) := by
  unfold Line.detectFault
  split
  · exact ⟨rfl, fun h => if_pos h⟩
  · exact ⟨rfl, id⟩

theorem Line.interruptClearing_keeps (x : Line) : x.Keeps x.interruptClearing := by
  unfold Line.interruptClearing
  split <;> exact ⟨rfl, id⟩

theorem Line.longDiscard_keeps (x : Line) : x.Keeps x.longDiscard :=
  ⟨x.interruptClearing_keeps.effAlarm, x.interruptClearing_keeps.alarm⟩

theorem Line.shortDiscard_keeps (x : Line) : x.Keeps x.shortDiscard := by
  unfold Line.shortDiscard
  dsimp only
  have h := x.interruptClearing_keeps
  split
  · have k := Line.detectFault_keeps .short { x.interruptClearing with noiseRun := 0 }
    exact ⟨k.effAlarm.trans h.effAlarm, fun a => k.alarm (h.alarm a)⟩
  · exact ⟨h.effAlarm, h.alarm⟩

theorem Line.noiseDiscard_keeps (x : Line) : x.Keeps x.noiseDiscard := by
  unfold Line.noiseDiscard
  dsimp only
  have h := x.interruptClearing_keeps
  split
  · have k := Line.detectFault_keeps .noisy { x.interruptClearing with shortRun := 0 }
    exact ⟨k.effAlarm.trans h.effAlarm, fun a => k.alarm (h.alarm a)⟩
  · exact ⟨h.effAlarm, h.alarm⟩

theorem Line.countClearing_keeps (c : LineCfg) (x : Line) : x.Keeps (x.countClearing c) := by
  unfold Line.countClearing
  split
  · exact ⟨rfl, fun h => by simp [h]⟩
  · exact ⟨rfl, id⟩

theorem Line.decide_keeps (c : LineCfg) (x : Line) : x.Keeps (x.decide c) := by
  unfold Line.decide
  dsimp only
  split
  · next h => exact ⟨rfl, fun a => by simp [h] at a⟩
  · next h => exact ⟨rfl, fun a => by simp [h] at a⟩
  · exact ⟨rfl, id⟩
  · exact ⟨rfl, id⟩

theorem Line.validPulse_keeps (c : LineCfg) (r : Nat) (x : Line) : x.Keeps (x.validPulse c r) := by
  unfold Line.validPulse
  dsimp only
  split
  · have h : x.Keeps (if x.seeded then { x with shortRun := 0, noiseRun := 0, lastReading := r }.track r
        else { x with shortRun := 0, noiseRun := 0, lastReading := r }.seed r) := by split <;> exact ⟨rfl, id⟩
    exact h.trans (Line.decide_keeps c _)
  · exact (Line.countClearing_keeps c _).of_same

/-- R2 to R15: the end of a pulse keeps a line's alarm level and a latched ALARM. -/
theorem Line.endPulse_keeps (c : LineCfg) (long : Bool) (w : Nat) (p : Option Nat) (x : Line) :
    x.Keeps (x.endPulse c long w p) := by
  unfold Line.endPulse
  dsimp only
  split
  · exact (Line.longDiscard_keeps _).of_same
  · exact (Line.shortDiscard_keeps _).of_same
  · exact (Line.noiseDiscard_keeps _).of_same
  · exact (Line.validPulse_keeps c _ _).of_same

theorem Line.falling_keeps (c : LineCfg) (now : Nat) (x : Line) : x.Keeps (x.falling c now) := by
  unfold Line.falling
  split
  · exact ⟨rfl, id⟩
  · split <;> exact (Line.endPulse_keeps c _ _ _ _).of_same

theorem Line.Keeps.setLine {s : State} {l : Fin 4} {x : Line} (h : (s.line l).Keeps x) :
    Machine.Keeps s (s.setLine l x) := setLine_keeps s l x h.effAlarm h.alarm

/-- R16: a line that becomes ALARM moves the Sequencer, and what it hands on. -/
theorem alarmEntered_only (l : Fin 4) (s : State) : SeqOnly s (alarmEntered l s) := by
  unfold alarmEntered
  split
  · exact .refl s
  · exact (detect_only _ _ _ _ s).trans (enqueue_only _ _).toSeqOnly

theorem alarmEntered_keeps (l : Fin 4) (s : State) : Keeps s (alarmEntered l s) := by
  unfold alarmEntered
  split
  · exact .refl s
  · exact ((detect_only _ _ _ _ s).keeps (detect_seqKeeps _ _ _ _ s)).trans (enqueue_keeps _ _)

theorem putLine_keeps {l : Fin 4} {x : Line} {s : State} (h : (s.line l).Keeps x) : Keeps s (putLine l x s) := by
  unfold putLine
  split
  · exact h.setLine.trans (alarmEntered_keeps l _)
  · exact h.setLine

theorem risingEdge_obeys (l : Fin 4) (s : State) : Obeys s (risingEdge l s) := by
  have pins : Still s (setDet l true s) := setPins_still s _
  unfold risingEdge
  split
  · exact .refl s
  · split
    · exact pins.obeys.trans (setLine_still _ l _).obeys
    · exact pins.obeys

theorem fallingEdge_obeys (l : Fin 4) (s : State) : Obeys s (fallingEdge l s) := by
  have pins : Still s (setDet l false s) := setPins_still s _
  unfold fallingEdge
  split
  · split
    · exact (pins.keeps.trans (putLine_keeps (s := setDet l false s) (Line.falling_keeps _ _ _))).settled
    · exact pins.obeys
  · exact .refl s

theorem longPulse_obeys (l : Fin 4) (s : State) : Obeys s (longPulse l s) := by
  unfold longPulse
  split
  · exact .refl s
  · exact ((reach_keeps s _).trans (putLine_keeps (s := s.reach _) (Line.endPulse_keeps _ _ _ _ _))).settled

theorem stuckTimerExpiry_obeys (l : Fin 4) (s : State) : Obeys s (stuckTimerExpiry l s) := by
  unfold stuckTimerExpiry
  split
  · exact .refl s
  · split
    · have h : (s.line l).Keeps ({ s.line l with stuck := none }.detectFault .stuck) :=
        (Line.detectFault_keeps _ _).of_same
      exact ((reach_keeps s _).trans (Line.Keeps.setLine (s := s.reach _) h)).settled
    · exact (reach_still s _).obeys.trans (setLine_still _ l _).obeys

theorem openTimerExpiry_obeys (l : Fin 4) (s : State) : Obeys s (openTimerExpiry l s) := by
  unfold openTimerExpiry
  split
  · exact .refl s
  · split
    · exact (reach_still s _).obeys.trans (setLine_still _ l _).obeys
    · have h : (s.line l).Keeps ({ s.line l with openTimer := none }.detectFault .opened) :=
        (Line.detectFault_keeps _ _).of_same
      exact ((reach_keeps s _).trans (Line.Keeps.setLine (s := s.reach _) h)).settled

/-! ## The peer view and the remote alarm list -/

theorem addRemote_keeps (a : Nat) (k : RemoteKind) (s : State) : Keeps s (addRemote a k s) := by
  unfold addRemote
  split
  · exact .refl s
  · split
    · exact setAnn_keeps s _
    · exact ((setAnn_keeps s _).trans (settle_keeps _)).trans (setAnn_keeps _ _)

theorem removeRemote_keeps (a : Nat) (k : RemoteKind) (s : State) : Keeps s (removeRemote a k s) := setAnn_keeps s _

theorem askStatus_keeps (s : State) : Keeps s (askStatus s) := (askStatus_only s).keeps

theorem adoptPosture_keeps (a : Nat) (p : Posture) (e : Byte) (s : State) : Keeps s (adoptPosture a p e s) := by
  unfold adoptPosture
  split
  · exact (setPosture_keeps s { s.posture with view := { posture := p, epoch := e, source := a } } rfl).trans
      (askStatus_keeps _)
  · exact .refl s

theorem detect_keeps (r : Bool) (a : Nat) (l : Fin 4) (g : Group) (s : State) : Keeps s (detect r a l g s) :=
  (detect_only r a l g s).keeps (detect_seqKeeps r a l g s)

theorem withdraw_keeps (a : Nat) (l : Fin 4) (s : State) : Keeps s (withdraw a l s) :=
  (withdraw_only a l s).keeps (withdraw_seqKeeps a l s)

theorem recoverDetections_keeps (a : Nat) (c : Announcement) (s : State) : Keeps s (recoverDetections a c s) := by
  unfold recoverDetections
  split
  · refine Keeps.foldl (fun u l => ?_) _ s
    unfold recoverLine
    split
    · exact detect_keeps _ _ _ _ u
    · exact .refl u
  · exact .refl s

theorem recoverDuress_keeps (a : Nat) (c : Announcement) (s : State) : Keeps s (recoverDuress a c s) := by
  unfold recoverDuress
  split
  · exact addRemote_keeps a _ s
  · exact removeRemote_keeps a _ s

theorem recoverFirstAlarm_keeps (a : Nat) (c : Announcement) (s : State) : Keeps s (recoverFirstAlarm a c s) := by
  unfold recoverFirstAlarm
  split
  · exact removeRemote_keeps a _ s
  · split
    · exact addRemote_keeps a _ s
    · exact .refl s

theorem abortLeave_keeps (a : Nat) (s : State) : Keeps s (abortLeave a s) :=
  (abortLeave_only a s).keeps (abortLeave_seqKeeps a s)

theorem abortJoin_keeps (a : Nat) (s : State) : Keeps s (abortJoin a s) :=
  (abortJoin_only a s).keeps (abortJoin_seqKeeps a s)

theorem setMirror_keeps (m : Mirror) (s : State) : Keeps s (setMirror m s) :=
  (setMirror_only m s).keeps (setMirror_seqKeeps m s)

theorem recoverAbort_keeps (a : Nat) (c : Announcement) (s : State) : Keeps s (recoverAbort a c s) := by
  unfold recoverAbort
  split
  · exact abortLeave_keeps a s
  · exact .refl s

theorem mirrorStatus_keeps (a : Nat) (c : Announcement) (s : State) : Keeps s (mirrorStatus a c s) := by
  unfold mirrorStatus
  split
  · exact setMirror_keeps _ s
  · exact .refl s

theorem statusOwner_keeps (a : Nat) (f : Frame) (s : State) : Keeps s (statusOwner a f s) := by
  unfold statusOwner
  split
  case h_1 c =>
    exact ((recoverDetections_keeps a c s).trans (settle_keeps _)).trans
      (((recoverDuress_keeps a c _).trans (settle_keeps _)).trans
        (((recoverFirstAlarm_keeps a c _).trans (settle_keeps _)).trans
          (((recoverAbort_keeps a c _).trans (settle_keeps _)).trans
            (((adoptPosture_keeps a c.posture c.epoch _).trans (settle_keeps _)).trans (mirrorStatus_keeps a c _)))))
  all_goals exact .refl s

theorem queryOwner_keeps (a : Nat) (f : Frame) (s : State) : Keeps s (queryOwner a f s) := by
  unfold queryOwner
  split
  · exact askStatus_keeps s
  · exact .refl s

theorem duressOwner_keeps (a : Nat) (f : Frame) (s : State) : Keeps s (duressOwner a f s) := by
  unfold duressOwner
  split
  case h_1 =>
    split
    · split
      · exact addRemote_keeps a _ s
      · exact removeRemote_keeps a _ s
    · exact .refl s
  all_goals exact .refl s

theorem detectOwner_keeps (a : Nat) (f : Frame) (s : State) : Keeps s (detectOwner a f s) := by
  unfold detectOwner
  split
  case h_1 =>
    split
    · split
      · split
        · exact detect_keeps _ _ _ _ s
        · exact withdraw_keeps _ _ s
      · exact .refl s
    · exact .refl s
  all_goals exact .refl s

theorem callOwner_keeps (a : Nat) (f : Frame) (s : State) : Keeps s (callOwner a f s) := by
  unfold callOwner
  split
  case h_1 =>
    split
    · exact (settle_keeps s).trans ((actOnCall_only _ _ _).keeps (actOnCall_seqKeeps _ _ _))
    · exact .refl s
  all_goals exact .refl s

theorem noticeOwner_keeps (a : Nat) (f : Frame) (s : State) : Keeps s (noticeOwner a f s) := by
  unfold noticeOwner
  split
  case h_1 =>
    split
    · split
      · exact setMirror_keeps _ s
      · exact .refl s
    · exact .refl s
  all_goals exact .refl s

theorem postureOwner_keeps (a : Nat) (f : Frame) (s : State) : Keeps s (postureOwner a f s) := by
  unfold postureOwner
  split
  case h_1 =>
    split
    · split
      · exact adoptPosture_keeps a _ _ s
      · exact .refl s
    · exact .refl s
  all_goals exact .refl s

theorem notePassback_keeps (hit : Bool) (s : State) : Keeps s (notePassback hit s) := by
  unfold notePassback
  split
  · exact trigger_keeps _ s (by decide)
  · exact .refl s

theorem completeConfirm_keeps (d : DoorId) (s : State) : Keeps s (completeConfirm d s) := by
  unfold completeConfirm
  split
  · exact .refl s
  · exact ((setReservation_keeps s d none).trans (handCredit_keeps d _ _)).trans (notePassback_keeps _ _)

theorem takeConfirm_keeps (d : DoorId) (tag : Byte) (holder cls : Nat) (s : State) :
    Keeps s (takeConfirm d tag holder cls s) := by
  have h : ∀ o u, Keeps u (recordOutcome o u) := fun o u => (setEntry_keeps u _).trans (askStatus_keeps _)
  unfold takeConfirm
  split
  · exact (completeConfirm_keeps d s).trans (h _ _)
  · exact h _ s

theorem confirmOwner_keeps (a : Nat) (f : Frame) (s : State) : Keeps s (confirmOwner a f s) := by
  unfold confirmOwner
  split
  case h_1 =>
    split
    · split
      · exact takeConfirm_keeps _ _ _ _ s
      · exact .refl s
    · exact .refl s
  all_goals exact .refl s

theorem silenceExpiry_obeys (a : Nat) (s : State) : Obeys s (silenceExpiry a s) := by
  unfold silenceExpiry
  split
  · exact .refl s
  · exact ((reach_keeps s _).trans (setPeer_keeps _ a _)).settled

end Sys2Proof.Machine
end

section
namespace Sys2Proof.Machine

/-! ## Start-up -/

/-- R192: after a reset nothing is left that a door or a line should follow. -/
theorem resetKeeping_following (cold : Bool) (s : State) : (resetKeeping cold s).Following :=
  following_of_stopped rfl ⟨rfl, (by decide : Sequencer.reset.CadenceFits), fun h => by cases h⟩

theorem initExpiry_obeys (s : State) : Obeys s (initExpiry s) := by
  unfold initExpiry
  split
  · next hp _ =>
    exact ((reach_keeps s _).trans (setStartup_keeps _ _ (by simp [State.running, hp]))).stopped rfl
  · exact .refl s

/-- R13, R22, R136: the lines take the alarm level of the start posture, which is the effective one. -/
theorem startLines_keeps (i : Image) (s : State) : Keeps s (startLines (keepImage i s)) := by
  have hl : ∀ l, (startLines (keepImage i s)).line l =
      startLine i s.now s.pins.det[l] (i.lines[l]) (s.line l) := fun l => by
    simp [startLines, State.line, keepImage, State.img, State.lineCfg]
  refine ⟨fun _ => rfl, fun g => ⟨g.lockout, g.cadence, fun _ l => ?_⟩, fun l h => ?_, id⟩
  · rw [hl]; rfl
  · rw [hl]; exact h

theorem startDoor_keeps (d : DoorId) (isOpen made : Bool) (s : State) : Keeps s (startDoor d isOpen made s) := by
  unfold startDoor
  split
  · exact .refl s
  · have h : Keeps s (s.setDoor d { s.door d with contactOpen := isOpen, rex := made }) := setDoor_keeps s d _
    dsimp only
    split
    · exact h.trans (enterHeldOpen_keeps d _)
    · exact h

theorem startDoors_keeps (s : State) : Keeps s (startDoors s) := by
  have h : Keeps s (s.setDoor .b { s.door .b with absent := !s.img.twoDoors }) := setDoor_keeps s .b _
  exact (h.trans (startDoor_keeps .a _ _ _)).trans (startDoor_keeps .b _ _ _)

theorem abortInput_keeps (made : Bool) (s : State) : Keeps s (abortInput made s) := by
  unfold abortInput
  split
  · split
    · exact abortJoin_keeps _ s
    · exact abortLeave_keeps _ s
  · exact enqueue_keeps _ s
  · exact .refl s

/-- An operation that is made only where a test holds. -/
theorem Keeps.ite {p : Prop} [Decidable p] {s t : State} (h : Keeps s t) : Keeps s (if p then t else s) := by
  split
  · exact h
  · exact .refl s

theorem startInputs_keeps (s : State) : Keeps s (startInputs s) := by
  unfold startInputs
  dsimp only
  exact ((((Keeps.ite (abortInput_keeps true s)).trans (Keeps.ite (trigger_keeps .manualRelease _ (by decide)))).trans
    (Keeps.ite (trigger_keeps .duress1 _ (by decide)))).trans (Keeps.ite (trigger_keeps .duress2 _ (by decide)))).trans
    (Keeps.ite (trigger_keeps .tamper _ (by decide)))

theorem startOutputs_keeps (s : State) : Keeps s (startOutputs s) := Keeps.foldl (fun u l => setOutput_keeps u l _) _ s

theorem enterJoin_keeps (s : State) (hr : s.running = true) : Keeps s (enterJoin s) := setStartup_keeps s _ hr.symm

theorem enterClock_keeps (s : State) (hr : s.running = true) : Keeps s (enterClock s) := by
  unfold enterClock
  split
  · exact setStartup_keeps s _ rfl
  · exact enterJoin_keeps s hr

theorem imageLoaded_obeys (m : Vector Byte 96) (s : State) : Obeys s (imageLoaded m s) := by
  unfold imageLoaded
  split
  case h_1 hp =>
    split
    · have h := startLines_keeps (imageOf m) s
      have k := ((startDoors_keeps (startLines (keepImage (imageOf m) s))).trans (startInputs_keeps _)).trans
        (startOutputs_keeps _)
      exact ((h.trans k).trans (enterClock_keeps _ (k.running rfl))).settled
    · exact (setStartup_keeps s _ (by simp [State.running, hp])).stopped rfl
  all_goals exact .refl s

theorem running_of_stabilising {s : State} (h : s.stabilising = true) : s.running = true := by
  have hp : s.startup.phase = .clock := by simp [State.stabilising] at h; exact h.1
  simp [State.running, hp]

theorem referenceCycle_obeys (s : State) : Obeys s (referenceCycle s) := by
  unfold referenceCycle
  split
  · next h =>
    split
    · exact ((setStartup_keeps s { s.startup with stable := s.startup.stable + 1, clock := .external } rfl).trans
        (enterJoin_keeps _ (running_of_stabilising h))).settled
    · exact (setStartup_still s _).obeys
  · exact .refl s

theorem referenceGap_obeys (s : State) : Obeys s (referenceGap s) := by
  unfold referenceGap
  split
  · exact (setStartup_still s _).obeys
  · exact .refl s

theorem clockLimitExpiry_obeys (s : State) : Obeys s (clockLimitExpiry s) := by
  unfold clockLimitExpiry
  split
  · next t hp _ =>
    have hr : s.running = true := by simp [State.running, hp]
    exact (((reach_keeps s t).trans (setStartup_keeps _ { s.startup with fallback := true } rfl)).trans
      (enterJoin_keeps _ hr)).settled
  · exact .refl s

theorem clockFallback_obeys (s : State) : Obeys s (clockFallback s) := by
  unfold clockFallback
  split
  · exact ((elapse_keeps s Config.fallbackGap).trans
      (setStartup_keeps _ { s.startup with clock := .internal, fallback := true } rfl)).settled
  · exact .refl s

theorem sendNotice_keeps (s : State) : Keeps s (sendNotice s) := (sendNotice_only s).keeps (sendNotice_seqKeeps s)

theorem enterRun_keeps (s : State) (hr : s.running = true) : Keeps s (enterRun s) := by
  unfold enterRun
  dsimp only
  have h : Keeps s (s.setStartup { s.startup with phase := .run, join := none }) := setStartup_keeps s _ hr.symm
  have k := h.trans (setBus_keeps _ { s.bus with firstStatus := some (s.now + s.address * Config.firstStatusUnit) })
  split
  · exact k.trans (sendNotice_keeps _)
  · exact k

theorem joinTimerExpiry_obeys (s : State) : Obeys s (joinTimerExpiry s) := by
  unfold joinTimerExpiry
  split
  · next t hp _ =>
    have hr : s.running = true := by simp [State.running, hp]
    have k := (reach_keeps s t).trans (enqueue_keeps .query _)
    exact (k.trans (enterRun_keeps _ (k.running hr))).settled
  · exact .refl s

/-! ## The discharge sequence -/

theorem windowExpiry_obeys (a : Nat) (l : Fin 4) (s : State) : Obeys s (windowExpiry a l s) := by
  unfold windowExpiry
  split
  · exact .refl s
  · exact ((reach_keeps s _).trans ((dropDetection_only a l _).keeps (dropDetection_seqKeeps a l _))).settled

/-- A filtered input whose level no condition reads, and whose owner settles or leaves the station alone. -/
theorem abortChange_obeys (b : Bool) (s : State) : Obeys s (abortChange b (s.setPins (s.pins.take .abort b))) := by
  unfold abortChange
  split
  · exact ((takePins_keeps .abort b s).trans (abortInput_keeps b _)).settled
  · next hr => exact (takePins_keeps .abort b s).stopped (by simpa using hr)

theorem manualRelease_keeps (s : State) : Keeps s (manualRelease s) :=
  (manualRelease_only s).keeps (manualRelease_seqKeeps s)

theorem manualPress_keeps (s : State) : Keeps s (manualPress s) := by
  have h := trigger_keeps .manualRelease s (by decide)
  unfold manualPress
  split
  · exact h.trans (manualRelease_keeps _)
  · exact h.trans (enqueue_keeps _ _)
  · exact h

/-- A level is taken that no condition reads; where its owner acts, the event is settled. -/
theorem takenInput_obeys {i : Input} (hi : i ≠ .abort) {p : Prop} [Decidable p] {f : State → State}
    (hf : ∀ u, Keeps u (f u)) (b : Bool) (s : State) :
    Obeys s (if p then settle (f (s.setPins (s.pins.take i b))) else s.setPins (s.pins.take i b)) := by
  split
  · exact ((takePins_keeps i b s).trans (hf _)).settled
  · exact (takePins_still i b s hi).obeys

theorem manrelChange_obeys (b : Bool) (s : State) : Obeys s (manrelChange b (s.setPins (s.pins.take .manrel b))) :=
  takenInput_obeys (by decide) manualPress_keeps b s

theorem confirmFlow_keeps (s : State) : Keeps s (confirmFlow s) := (confirmFlow_only s).keeps (confirmFlow_seqKeeps s)

theorem flowChange_obeys (b : Bool) (s : State) : Obeys s (flowChange b (s.setPins (s.pins.take .flow b))) :=
  takenInput_obeys (by decide) confirmFlow_keeps b s

theorem duressChange_obeys (d : DuressInput) (b : Bool) (s : State) :
    Obeys s (duressChange d b (s.setPins (s.pins.take (duressPin d) b))) :=
  takenInput_obeys (by cases d <;> decide) (fun u => trigger_keeps _ u (by cases d <;> decide)) b s

theorem tamperChange_obeys (b : Bool) (s : State) : Obeys s (tamperChange b (s.setPins (s.pins.take .tamper b))) :=
  takenInput_obeys (by decide) (fun u => trigger_keeps .tamper u (by decide)) b s

/-- A timer of the Sequencer stops, and what its expiry does keeps. -/
theorem setSeq_obeys {s u : State} (q : Sequencer) (t : Nat) (h : SeqKeeps s (s.setSeq q))
    (k : Keeps ((s.reach t).setSeq q) u) : Obeys s (settle u) :=
  (((reach_keeps s t).trans (setSeq_keeps _ q ⟨h.cadence, h.pattern, h.phaseEnd, h.isolated⟩)).trans k).settled

theorem abortStuckExpiry_obeys (s : State) : Obeys s (abortStuckExpiry s) := by
  unfold abortStuckExpiry
  split
  · exact .refl s
  · exact setSeq_obeys _ _ (.write s _) (trigger_keeps .abortStuck _ (by decide))

theorem flowWaitExpiry_obeys (s : State) : Obeys s (flowWaitExpiry s) := by
  unfold flowWaitExpiry
  split
  · exact .refl s
  · exact setSeq_obeys _ _ (.write s _) (trigger_keeps .releaseFailure _ (by decide))

theorem countdownExpiry_obeys (s : State) : Obeys s (countdownExpiry s) := by
  unfold countdownExpiry
  split
  · next t hs _ =>
    exact ((reach_keeps s t).trans ((enterReleasing_only _).keeps
      (enterReleasing_seqKeeps (s.reach t) (by rw [show (s.reach t).seq.stage = _ from hs]; decide)))).settled
  · exact .refl s

theorem valveDelayExpiry_obeys (s : State) : Obeys s (valveDelayExpiry s) := by
  unfold valveDelayExpiry
  split
  · exact ((reach_keeps s _).trans ((energiseValve_only _).keeps (energiseValve_seqKeeps _))).settled
  · exact .refl s

theorem valvePulseExpiry_obeys (s : State) : Obeys s (valvePulseExpiry s) := by
  unfold valvePulseExpiry
  split
  · next t hs _ =>
    have h := endValvePulse_seqKeeps (s.reach t) (by rw [show (s.reach t).seq.stage = _ from hs]; decide)
    exact ((reach_keeps s t).trans (((setSeq_only _ _).trans (enterStage_only _ _)).keeps h)).settled
  · exact .refl s

theorem soakExpiry_obeys (s : State) : Obeys s (soakExpiry s) := by
  unfold soakExpiry
  split
  · next t hs _ =>
    have hn : s.seq.stage ≠ .isolated := by rw [hs]; decide
    exact setSeq_obeys { s.seq with soak := none } t (.write s _)
      ((enterStage_only _ _).keeps (enterStage_seqKeeps _ ((s.reach t).setSeq { s.seq with soak := none }) hn))
  · exact .refl s

theorem noticeExpiry_obeys (s : State) : Obeys s (noticeExpiry s) := by
  unfold noticeExpiry
  split
  · exact .refl s
  · exact ((reach_keeps s _).trans (sendNotice_keeps _)).settled

/-- R47, R70: a reset of the sequence is refused in ISOLATED. -/
theorem suppressionReset_obeys (x : Unit) (s : State) : Obeys s (suppressionReset x s).2 := by
  unfold suppressionReset
  split
  · exact .refl s
  · split
    · exact .refl s
    · next hn =>
      split
      · exact .refl s
      · have hi : s.seq.stage ≠ .isolated := fun i => hn (by rw [i]; rfl)
        have h := ((resetSequence_only s).keeps (resetSequence_seqKeeps s hi)).settled
        show Obeys s (rejoinAbort (settle (resetSequence s)))
        unfold rejoinAbort
        split
        · exact h.trans (abortJoin_keeps _ _).settled
        · exact h

/-! ## Doors and presentations -/

theorem contactChange_obeys (d : DoorId) (b : Bool) (s : State) :
    Obeys s (contactChange d b (s.setPins (s.pins.take (contactInput d) b))) := by
  have hp := takePins_still (contactInput d) b s (by cases d <;> decide)
  unfold contactChange
  split
  · split
    · exact (hp.keeps.trans (openContact_keeps d _)).settled
    · exact ((hp.keeps.trans (setDoor_keeps _ d _)).trans (closeContact_keeps d _)).settled
  · exact hp.obeys

theorem exitChange_obeys (d : DoorId) (b : Bool) (s : State) :
    Obeys s (exitChange d b (s.setPins (s.pins.take (exitInput d) b))) := by
  have hp := takePins_still (exitInput d) b s (by cases d <;> decide)
  unfold exitChange
  split
  · have hd := fun u : State => setDoor_still u d { u.door d with rex := b }
    dsimp only
    split
    · exact ((hp.keeps.trans (hd _).keeps).trans (pressExit_keeps d _)).settled
    · exact hp.obeys.trans (hd _).obeys
  · exact hp.obeys

theorem releaseExpiry_obeys (d : DoorId) (s : State) : Obeys s (releaseExpiry d s) := by
  unfold releaseExpiry
  split
  · exact ((reach_keeps s _).trans (secureDoor_keeps d _)).settled
  · exact .refl s

theorem heldExpiry_obeys (d : DoorId) (s : State) : Obeys s (heldExpiry d s) := by
  unfold heldExpiry
  split
  · exact ((reach_keeps s _).trans (enterHeldOpen_keeps d _)).settled
  · exact .refl s

theorem waitExpiry_obeys (d : DoorId) (s : State) : Obeys s (waitExpiry d s) := by
  unfold waitExpiry
  split
  · exact .refl s
  · next r _ =>
    have h : s.door d = (s.reach r.wait).door d := by cases d <;> rfl
    rw [h]
    exact (reach_still s r.wait).obeys.trans (setDoor_still _ d _).obeys

theorem pairExpiry_obeys (d : DoorId) (s : State) : Obeys s (pairExpiry d s) := by
  have he : ∀ u : State, Still u ((u.setReservation d none).setBroken d true) := fun u => by
    cases d <;> exact setEntry_still u _
  unfold pairExpiry
  split
  · exact .refl s
  · next r _ =>
    refine (reach_still s r.window).obeys.trans ?_
    unfold breakAt
    split
    · exact (he _).obeys
    · exact .refl _

theorem grantEntry_keeps (p : Presentation) (holders : List Holder) (result : Result) (tag : Nat) (hit : Bool) (s : State) :
    Keeps s (grantEntry p holders result tag hit s).after := by
  have h := handCredit_keeps p.door (newCredit .entry holders) s
  unfold grantEntry
  split <;> next e =>
    rw [e] at h
    first
      | exact .refl s
      | exact h.trans (notePassback_keeps hit _)

theorem presentInside_keeps (p : Presentation) (s : State) : Keeps s (presentInside p s).after := by
  have h := handCredit_keeps p.door (newCredit .egress [plainHolder p.id p.cls]) s
  unfold presentInside
  split <;> next e =>
    rw [e] at h
    first
      | exact .refl s
      | exact h

theorem presentPaired_keeps (p : Presentation) (hit : Bool) (s : State) : Keeps s (presentPaired p hit s).after := by
  unfold presentPaired
  split
  · exact (setReservation_keeps s p.door _).trans (setEntry_keeps _ _)
  · split
    · exact .refl s
    · exact (setReservation_keeps s p.door none).trans (grantEntry_keeps _ _ _ _ _ _)

theorem modeStep_keeps (p : Presentation) (hit : Bool) (s : State) : Keeps s (modeStep p hit s).after := by
  unfold modeStep
  split
  · exact grantEntry_keeps _ _ _ _ _ s
  · exact grantEntry_keeps _ _ _ _ _ s
  · unfold presentEscorted
    split
    · exact grantEntry_keeps _ _ _ _ _ s
    · split
      · exact grantEntry_keeps _ _ _ _ _ s
      · exact .refl s
  · exact presentPaired_keeps p hit s
  · exact presentPaired_keeps p hit s
  · exact .refl s

theorem presentOutside_keeps (p : Presentation) (s : State) : Keeps s (presentOutside p s).after := by
  unfold presentOutside
  iterate 7
    split
    · exact .refl s
  exact modeStep_keeps p _ s

theorem decidePresentation_keeps (p : Presentation) (s : State) : Keeps s (decidePresentation p s).after := by
  unfold decidePresentation
  split
  · exact presentInside_keeps p s
  · exact presentOutside_keeps p s

theorem presentCredential_obeys (p : Presentation) (s : State) : Obeys s (presentCredential p s).2 :=
  ((decidePresentation_keeps p s).trans (setBroken_keeps _ p.door false)).settled

/-! ## Postures, outputs and alarms -/

theorem setPosture_obeys (p : Posture) (s : State) : Obeys s (setPosture p s).2 := by
  unfold setPosture
  split
  · exact .refl s
  · split
    · exact .refl s
    · exact (((setPosture_keeps s _).trans (enqueue_keeps _ _)).trans (askStatus_keeps _)).settled

theorem forceOutput_obeys (x : Fin 12 × Bool) (s : State) : Obeys s (forceOutput x s).2 := by
  unfold forceOutput
  split
  · exact .refl s
  · exact (setOutput_keeps s _ _).settled

theorem senseChange_obeys (l : Fin 12) (high : Bool) (s : State) : Obeys s (senseChange l high s) := by
  unfold senseChange
  split
  · exact .refl s
  · have hp : Still s (s.setPins { s.pins with sense := s.pins.sense.set l high }) := setPins_still s _
    dsimp only
    split
    · exact (hp.keeps.trans (setOutput_keeps _ l _)).settled
    · exact hp.obeys

theorem mismatchExpiry_obeys (l : Fin 12) (s : State) : Obeys s (mismatchExpiry l s) := by
  unfold mismatchExpiry
  split
  · exact .refl s
  · exact ((reach_keeps s _).trans (setOutput_keeps _ l _)).settled

theorem rotate_keeps (x : Source) (s : State) : Keeps s (rotate x s) := by
  unfold rotate
  split
  · exact setAnn_keeps s _
  · exact .refl s

theorem nextAlarm_obeys (x : Unit) (s : State) : Obeys s (nextAlarm x s).2 := by
  unfold nextAlarm
  split
  · refine Keeps.settled ?_
    unfold acknowledge
    split
    · exact (setAnn_keeps s _).trans (rotate_keeps _ _)
    · exact (setSource_keeps s _ _).trans (rotate_keeps _ _)
  · exact (setFree_still s _).obeys

theorem restoreSource_keeps (x : Source) (s : State) : Keeps s (restoreSource x s) := by
  have h := setSource_keeps s x { s.source x with inService := false }
  unfold restoreSource
  dsimp only
  split
  · exact h.trans (enqueue_keeps _ _)
  · exact h

theorem restoreAlarm_obeys (x : Source) (s : State) : Obeys s (restoreAlarm x s).2 := by
  unfold restoreAlarm
  iterate 4
    split
    · exact .refl s
  exact (restoreSource_keeps x s).settled

theorem maskAlarm_obeys (x : Source × Bool) (s : State) : Obeys s (maskAlarm x s).2 := by
  unfold maskAlarm
  split
  · exact .refl s
  · exact (setSource_keeps s _ _).settled

theorem zoneSweep_obeys (x : Unit) (s : State) : Obeys s (zoneSweep x s).2 := by
  unfold zoneSweep
  split
  · exact (setRoster_keeps s _).settled
  · exact .refl s

/-! ## The zone bus and the panel port -/

theorem beginFrame_obeys (s : State) : Obeys s (beginFrame s) := by
  unfold beginFrame
  split
  · exact .refl s
  · split
    · exact (setBus_still s _).obeys
    · exact .refl s

theorem loseArbitration_obeys (s : State) : Obeys s (loseArbitration s) := by
  unfold loseArbitration
  split
  · exact .refl s
  · refine Keeps.settled ((setBus_keeps s { s.bus with inFlight := none, recessive := 0 }).trans ?_)
    unfold returnFrame
    split
    · exact .refl _
    · exact (setBus_keeps _ _).trans (overrunIf_only _ _).keeps

theorem bitError_obeys (bits : List Bool) (s : State) : Obeys s (bitError bits s) := by
  unfold bitError
  split
  · exact .refl s
  · refine Keeps.settled ((hear_keeps s bits).trans ?_)
    unfold abandonFrame
    split <;> exact setBus_keeps _ _

theorem quietExpiry_obeys (s : State) : Obeys s (quietExpiry s) := by
  unfold quietExpiry
  split
  · exact .refl s
  · exact ((reach_keeps s _).trans (setBus_keeps _ _)).settled

theorem completeFrame_obeys (s : State) : Obeys s (completeFrame s) := by
  unfold completeFrame
  split
  · exact .refl s
  · exact (hear_still s _).obeys.trans (setBus_still _ _).obeys

theorem setStuck_obeys (b : Bool) (s : State) : Obeys s (setStuck b s) := by
  unfold setStuck
  split
  · exact (setBus_keeps s _).settled
  · exact .refl s

theorem sendStatus_keeps (s : State) : Keeps s (sendStatus s) := (setBus_keeps s _).trans (enqueue_keeps _ _)

theorem firstStatusExpiry_obeys (s : State) : Obeys s (firstStatusExpiry s) := by
  unfold firstStatusExpiry
  split
  · exact .refl s
  · exact ((reach_keeps s _).trans (sendStatus_keeps _)).settled

theorem ownCheck_keeps (s : State) : Keeps s (ownCheck s) := by
  refine Keeps.foldl (fun u l => ?_) _ s
  unfold ownCheckLine
  split
  · exact detect_keeps _ _ _ _ u
  · exact .refl u

theorem statusExpiry_obeys (s : State) : Obeys s (statusExpiry s) := by
  unfold statusExpiry
  split
  · exact .refl s
  · exact (((reach_keeps s _).trans (ownCheck_keeps _)).trans (sendStatus_keeps _)).settled

theorem readReply_obeys (clocked before : Nat) (s : State) : Obeys s (readReply clocked before s) := by
  have h := fun p => (setPort_still s p).obeys
  unfold readReply
  split
  · exact .refl s
  · split
    · split
      · exact h _
      · exact h _
    · exact h _

theorem unknownCode_obeys (code : Nat) (rest : PanelRest) (s : State) : Obeys s (unknownCode code rest s) := by
  have hp : ∀ u p, Obeys s u → Obeys s (u.setPort p) := fun u p h => h.trans (setPort_still u p).obeys
  unfold unknownCode
  split
  · exact commandFrame_induction hp hp (fun _ h => h) (fun _ h => h) (.refl s)
  · exact .refl s

theorem getStatus_obeys (x : Unit) (s : State) : Obeys s (getStatus x s).2 :=
  (setStartup_still s { s.startup with coldStart := false }).obeys.trans (setFree_still _ _).obeys

theorem latchTimes_obeys (x : Unit) (s : State) : Obeys s (latchTimes x s).2 := by
  unfold latchTimes
  split
  · exact .refl s
  · exact (setPort_still s _).obeys

theorem readTimes_obeys (x : Unit) (s : State) : Obeys s (readTimes x s).2 := by
  unfold readTimes
  split
  · exact (setPort_still s _).obeys
  · exact .refl s

end Sys2Proof.Machine
end

section
/-! SUPPORT. RESET_DETECTION and SUPPRESSION_ISOLATE, the two commands that end ALARM and ISOLATED, and what every command
keeps. -/

namespace Sys2Proof.Machine

/-! ## Detection reset and isolation -/

theorem resetAccepted_only (l : Fin 4) (s : State) :
    SeqOnly (s.setLine l ((s.line l).resetAlarm (s.lineCfg l))) (resetAccepted l s) := by
  unfold resetAccepted
  dsimp only
  split
  · exact .refl _
  · exact (withdraw_only _ _ _).trans (enqueue_only _ _).toSeqOnly

theorem resetAccepted_seqKeeps (l : Fin 4) (s : State) : SeqKeeps s (resetAccepted l s) := by
  unfold resetAccepted
  dsimp only
  split
  · exact .of_eq rfl
  · have h : SeqKeeps s (s.setLine l ((s.line l).resetAlarm (s.lineCfg l))) := .of_eq rfl
    exact h.trans ((withdraw_seqKeeps _ _ _).trans (enqueue_only _ _).seqKeeps)

theorem resetLine_grounded (s : State) (l : Fin 4) (g : Grounded s) : Grounded (resetLine s l) := by
  unfold resetLine
  split
  · have h : Grounded (s.setLine l ((s.line l).resetAlarm (s.lineCfg l))) := by
      refine Grounded.of_fields (s := s) rfl rfl (fun d => by cases d <;> rfl) id rfl (fun k => ?_) g
      rw [State.setLine_line]
      split
      · next h => rw [h]; rfl
      · rfl
    exact (resetAccepted_only l s).grounded (resetAccepted_seqKeeps l s).cadenceFits h
  · exact g

theorem resetLine_isolated (s : State) (l : Fin 4) (h : s.seq.stage = .isolated) :
    (resetLine s l).seq.stage = .isolated := by
  unfold resetLine
  split
  · exact (resetAccepted_seqKeeps l s).isolated h
  · exact h

/-- R18: what the resets of lines do to a line, which is that line's own affair. -/
theorem resetLine_line (s : State) (l k : Fin 4) : (resetLine s l).line k =
    if k = l ∧ resetOutcome s l = .reset then (s.line l).resetAlarm (s.lineCfg l) else s.line k := by
  unfold resetLine
  split
  · next h => rw [(resetAccepted_only l s).line, State.setLine_line]; simp [h]
  · next h => simp [h]

theorem resetOutcome_congr {s t : State} {l : Fin 4} (h : t.line l = s.line l) :
    resetOutcome t l = resetOutcome s l := by
  unfold resetOutcome
  rw [h]

/-- R18: a line that is not reset stays as it is. -/
theorem resetLine_line_of_ne (s : State) (l k : Fin 4) (h : resetOutcome s k ≠ .reset) :
    (resetLine s l).line k = s.line k := by
  rw [resetLine_line, if_neg]
  rintro ⟨rfl, hr⟩
  exact h hr

theorem resetLines_line_of_ne (ls : List (Fin 4)) (s : State) (k : Fin 4) (h : resetOutcome s k ≠ .reset) :
    (ls.foldl resetLine s).line k = s.line k := by
  induction ls generalizing s with
  | nil => rfl
  | cons l ls ih =>
    have hk := resetLine_line_of_ne s l k h
    rw [List.foldl_cons, ih _ (by rwa [resetOutcome_congr hk]), hk]

/-- R18, R19: RESET_DETECTION refuses, or resets lines one after the other and settles. -/
theorem resetDetection_cases (x : Option (Fin 4)) (s : State) :
    (resetDetection x s).2 = s ∨ ∃ ls : List (Fin 4), (resetDetection x s).2 = settle (ls.foldl resetLine s) := by
  cases x with
  | none => exact .inr ⟨allLines, by simp only [resetDetection]⟩
  | some l =>
    simp only [resetDetection]
    split
    · exact .inl rfl
    · exact .inr ⟨[l], rfl⟩

theorem resetLines_induction {P : State → Prop} (h : ∀ u l, P u → P (resetLine u l)) (ls : List (Fin 4)) {s : State}
    (hs : P s) : P (ls.foldl resetLine s) := by
  induction ls generalizing s with
  | nil => exact hs
  | cons l ls ih => exact ih (h s l hs)

theorem resetDetection_following (x : Option (Fin 4)) (s : State) (h : s.Following) :
    (resetDetection x s).2.Following := by
  have key : ∀ u, (u = s ∨ ∃ ls : List (Fin 4), u = settle (ls.foldl resetLine s)) → u.Following := by
    rintro u (rfl | ⟨ls, rfl⟩)
    · exact h
    · exact settle_following (resetLines_induction resetLine_grounded ls (Following.grounded h))
  exact key _ (resetDetection_cases x s)

theorem resetDetection_isolated (x : Option (Fin 4)) (s : State) (h : s.seq.stage = .isolated) :
    (resetDetection x s).2.seq.stage = .isolated := by
  rcases resetDetection_cases x s with e | ⟨ls, e⟩ <;> rw [e]
  · exact h
  · exact (settle_keeps _).isolated (resetLines_induction (P := fun u => u.seq.stage = .isolated) resetLine_isolated ls h)

/-- R18: a line in ALARM that has not fallen below its alarm level stays in ALARM. -/
theorem resetDetection_alarm (x : Option (Fin 4)) (s : State) (l : Fin 4) (h : (s.line l).stage = .alarm)
    (hl : ¬(s.line l).level < (s.line l).effAlarm) : ((resetDetection x s).2.line l).stage = .alarm := by
  have hr : resetOutcome s l ≠ .reset := by simp [resetOutcome, h, hl]
  rcases resetDetection_cases x s with e | ⟨ls, e⟩ <;> rw [e]
  · exact h
  · exact (settle_keeps _).alarm l (by rw [resetLines_line_of_ne ls s l hr, h])

/-- R71: SUPPRESSION_ISOLATE leaves the station alone, or enters a stage and settles. -/
theorem suppressionIsolate_cases (on : Bool) (s : State) :
    (suppressionIsolate on s).2 = s ∨ ∃ st, (suppressionIsolate on s).2 = settle (enterStage st s) := by
  unfold suppressionIsolate
  split
  · exact .inl rfl
  · split
    · unfold isolateOn
      split
      case h_1 => exact .inr ⟨_, rfl⟩
      case h_2 => exact .inr ⟨_, rfl⟩
      all_goals exact .inl rfl
    · unfold isolateOff
      split
      case h_1 =>
        split
        · exact .inl rfl
        · exact .inr ⟨_, rfl⟩
      all_goals exact .inl rfl

theorem suppressionIsolate_following (on : Bool) (s : State) (h : s.Following) : (suppressionIsolate on s).2.Following := by
  have key : ∀ u, (u = s ∨ ∃ st, u = settle (enterStage st s)) → u.Following := by
    rintro u (rfl | ⟨st, rfl⟩)
    · exact h
    · refine settle_following ((enterStage_only st s).grounded (fun f => ?_) (Following.grounded h))
      obtain ⟨-, hc, hp, he⟩ := enterStage_soundStays st s
      simpa only [Sequencer.CadenceFits, hc, hp, he] using f
  exact key _ (suppressionIsolate_cases on s)

theorem suppressionIsolate_alarm (on : Bool) (s : State) (l : Fin 4) (h : (s.line l).stage = .alarm) :
    ((suppressionIsolate on s).2.line l).stage = .alarm := by
  rcases suppressionIsolate_cases on s with e | ⟨st, e⟩ <;> rw [e]
  · exact h
  · exact (settle_keeps _).alarm l (by rw [(enterStage_only st s).line, h])

/-! ## Every command -/

/-- The owner of a panel command that only reports leaves the station alone. -/
theorem report_obeys {α : Type} {act : α → State → Answer × State} (h : ∀ x u, (act x u).2 = u) (x : α) (u : State) :
    Obeys u (act x u).2 := by
  rw [h]
  exact .refl u

/-- Every command but the two resets, RESET_DETECTION and SUPPRESSION_ISOLATE obeys. -/
theorem exec_obeys (c : Instr) (s : State) :
    (∃ t, exec c s = .next t ∧ Obeys s t) ∨ c = .powerOnReset ∨ c = .pinReset ∨
      (∃ dt rest, c = .resetDetection dt rest) ∨ ∃ dt rest, c = .suppressionIsolate dt rest := by
  have late := fun dt => (elapse_still s dt).obeys
  cases c with
  | powerOnReset => exact .inr (.inl rfl)
  | pinReset => exact .inr (.inr (.inl rfl))
  | resetDetection dt rest => exact .inr (.inr (.inr (.inl ⟨dt, rest, rfl⟩)))
  | suppressionIsolate dt rest => exact .inr (.inr (.inr (.inr ⟨dt, rest, rfl⟩)))
  | initExpiry => exact .inl ⟨_, rfl, initExpiry_obeys s⟩
  | imageLoadComplete dt m => exact .inl ⟨_, rfl, (late dt).trans (imageLoaded_obeys m _)⟩
  | referenceCycle dt => exact .inl ⟨_, rfl, (late dt).trans (referenceCycle_obeys _)⟩
  | referenceGap dt => exact .inl ⟨_, rfl, (late dt).trans (referenceGap_obeys _)⟩
  | clockLimitExpiry => exact .inl ⟨_, rfl, clockLimitExpiry_obeys s⟩
  | clockFallback dt => exact .inl ⟨_, rfl, (late dt).trans (clockFallback_obeys _)⟩
  | joinTimerExpiry => exact .inl ⟨_, rfl, joinTimerExpiry_obeys s⟩
  | detectorRisingEdge dt l => exact .inl ⟨_, rfl, (late dt).trans (risingEdge_obeys l _)⟩
  | detectorFallingEdge dt l => exact .inl ⟨_, rfl, (late dt).trans (fallingEdge_obeys l _)⟩
  | longPulse l => exact .inl ⟨_, rfl, longPulse_obeys l s⟩
  | stuckTimerExpiry l => exact .inl ⟨_, rfl, stuckTimerExpiry_obeys l s⟩
  | openTimerExpiry l => exact .inl ⟨_, rfl, openTimerExpiry_obeys l s⟩
  | readDetector dt rest => exact .inl ⟨_, rfl, panelCommand_obeys (report_obeys fun _ _ => rfl) s⟩
  | statusFrame dt bits => exact .inl ⟨_, rfl, receiveFrame_obeys statusOwner_keeps s dt⟩
  | silenceTimerExpiry a => exact .inl ⟨_, rfl, silenceExpiry_obeys a s⟩
  | queryFrame dt bits => exact .inl ⟨_, rfl, receiveFrame_obeys queryOwner_keeps s dt⟩
  | readPeer dt rest => exact .inl ⟨_, rfl, panelCommand_obeys (report_obeys fun _ _ => rfl) s⟩
  | detectFrame dt bits => exact .inl ⟨_, rfl, receiveFrame_obeys detectOwner_keeps s dt⟩
  | windowTimerExpiry a l => exact .inl ⟨_, rfl, windowExpiry_obeys a l s⟩
  | abortInputChange e b => exact .inl ⟨_, rfl, inputEvent_obeys abortChange_obeys b e s⟩
  | releaseCallFrame dt bits => exact .inl ⟨_, rfl, receiveFrame_obeys callOwner_keeps s dt⟩
  | manrelMade e b => exact .inl ⟨_, rfl, inputEvent_obeys manrelChange_obeys b e s⟩
  | abortStuckExpiry => exact .inl ⟨_, rfl, abortStuckExpiry_obeys s⟩
  | countdownExpiry => exact .inl ⟨_, rfl, countdownExpiry_obeys s⟩
  | valveDelayExpiry => exact .inl ⟨_, rfl, valveDelayExpiry_obeys s⟩
  | valvePulseExpiry => exact .inl ⟨_, rfl, valvePulseExpiry_obeys s⟩
  | flowMade e b => exact .inl ⟨_, rfl, inputEvent_obeys flowChange_obeys b e s⟩
  | flowWaitExpiry => exact .inl ⟨_, rfl, flowWaitExpiry_obeys s⟩
  | soakTimerExpiry => exact .inl ⟨_, rfl, soakExpiry_obeys s⟩
  | vsupChange dt b => exact .inl ⟨_, rfl, (late dt).trans (setPins_keeps _ _).settled⟩
  | noticeTimerExpiry => exact .inl ⟨_, rfl, noticeExpiry_obeys s⟩
  | suppressionReset dt rest => exact .inl ⟨_, rfl, panelCommand_obeys suppressionReset_obeys s⟩
  | releaseNoticeFrame dt bits => exact .inl ⟨_, rfl, receiveFrame_obeys noticeOwner_keeps s dt⟩
  | cadencePhaseExpiry => exact .inl ⟨_, rfl, (cadenceExpiry_still s).obeys⟩
  | doorContactOpens e d => exact .inl ⟨_, rfl, inputEvent_obeys (contactChange_obeys d) true e s⟩
  | doorContactCloses e d => exact .inl ⟨_, rfl, inputEvent_obeys (contactChange_obeys d) false e s⟩
  | requestToExitPress e d b => exact .inl ⟨_, rfl, inputEvent_obeys (exitChange_obeys d) b e s⟩
  | releaseWindowExpiry d => exact .inl ⟨_, rfl, releaseExpiry_obeys d s⟩
  | heldTimerExpiry d => exact .inl ⟨_, rfl, heldExpiry_obeys d s⟩
  | pendingWaitExpiry d => exact .inl ⟨_, rfl, waitExpiry_obeys d s⟩
  | presentCredential dt rest => exact .inl ⟨_, rfl, panelCommand_obeys presentCredential_obeys s⟩
  | pairWindowExpiry d => exact .inl ⟨_, rfl, pairExpiry_obeys d s⟩
  | confirmRemote dt rest =>
    exact .inl ⟨_, rfl, panelCommand_obeys (act := confirmRemote) (fun f u => (enqueue_keeps f u).settled) s⟩
  | confirmFrame dt bits => exact .inl ⟨_, rfl, receiveFrame_obeys confirmOwner_keeps s dt⟩
  | zoneSweep dt rest => exact .inl ⟨_, rfl, panelCommand_obeys zoneSweep_obeys s⟩
  | readRoster dt rest => exact .inl ⟨_, rfl, panelCommand_obeys (report_obeys fun _ _ => rfl) s⟩
  | setPosture dt rest => exact .inl ⟨_, rfl, panelCommand_obeys setPosture_obeys s⟩
  | postureFrame dt bits => exact .inl ⟨_, rfl, receiveFrame_obeys postureOwner_keeps s dt⟩
  | forceOutput dt rest => exact .inl ⟨_, rfl, panelCommand_obeys forceOutput_obeys s⟩
  | releaseOutput dt rest =>
    exact .inl ⟨_, rfl, panelCommand_obeys (act := releaseOutput) (fun l u => (setOutput_keeps u l _).settled) s⟩
  | readOutputs dt rest => exact .inl ⟨_, rfl, panelCommand_obeys (report_obeys fun _ _ => rfl) s⟩
  | senseInputChange dt l b => exact .inl ⟨_, rfl, (late dt).trans (senseChange_obeys l b _)⟩
  | mismatchTimerExpiry l => exact .inl ⟨_, rfl, mismatchExpiry_obeys l s⟩
  | duressInputChange e d b => exact .inl ⟨_, rfl, inputEvent_obeys (duressChange_obeys d) b e s⟩
  | tamperInputChange e b => exact .inl ⟨_, rfl, inputEvent_obeys tamperChange_obeys b e s⟩
  | nextAlarm dt rest => exact .inl ⟨_, rfl, panelCommand_obeys nextAlarm_obeys s⟩
  | restoreAlarm dt rest => exact .inl ⟨_, rfl, panelCommand_obeys restoreAlarm_obeys s⟩
  | maskAlarm dt rest => exact .inl ⟨_, rfl, panelCommand_obeys maskAlarm_obeys s⟩
  | readSources dt rest => exact .inl ⟨_, rfl, panelCommand_obeys (report_obeys fun _ _ => rfl) s⟩
  | duressFrame dt bits => exact .inl ⟨_, rfl, receiveFrame_obeys duressOwner_keeps s dt⟩
  | readRemoteList dt rest =>
    exact .inl ⟨_, rfl, panelCommand_obeys (act := readRemoteList) (fun _ u => (markRead_still u).obeys) s⟩
  | beginTransmission dt levels =>
    exact .inl ⟨_, rfl, ((late dt).trans (hear_still _ levels).obeys).trans (beginFrame_obeys _)⟩
  | arbitrationLoss dt => exact .inl ⟨_, rfl, (late dt).trans (loseArbitration_obeys _)⟩
  | ownBitError back => exact .inl ⟨_, rfl, (late back.dt).trans (bitError_obeys back.bits _)⟩
  | quietSpellExpiry => exact .inl ⟨_, rfl, quietExpiry_obeys s⟩
  | transmissionComplete dt => exact .inl ⟨_, rfl, (late dt).trans (completeFrame_obeys _)⟩
  | busStuck dt => exact .inl ⟨_, rfl, (late dt).trans (setStuck_obeys true _)⟩
  | busStuckEnd dt => exact .inl ⟨_, rfl, (late dt).trans (setStuck_obeys false _)⟩
  | receiveDiscard dt bits => exact .inl ⟨_, rfl, (late dt).trans (hear_still _ bits).obeys⟩
  | firstStatusDelayExpiry => exact .inl ⟨_, rfl, firstStatusExpiry_obeys s⟩
  | statusTimerExpiry => exact .inl ⟨_, rfl, statusExpiry_obeys s⟩
  | replyRead dt n b => exact .inl ⟨_, rfl, (late dt).trans (readReply_obeys n b _)⟩
  | unknownCommand dt k rest => exact .inl ⟨_, rfl, (late dt).trans (unknownCode_obeys k rest _)⟩
  | getStatus dt rest => exact .inl ⟨_, rfl, panelCommand_obeys getStatus_obeys s⟩
  | latchTimes dt rest => exact .inl ⟨_, rfl, panelCommand_obeys latchTimes_obeys s⟩
  | readTimes dt rest => exact .inl ⟨_, rfl, panelCommand_obeys readTimes_obeys s⟩

theorem panelCommand_following {α : Type} {code len : Nat} {parse : State → List Byte → Option α}
    {act : α → State → Answer × State} {dt : Nat} {rest : PanelRest} (hact : ∀ x u, u.Following → (act x u).2.Following)
    {s : State} (h : s.Following) : (panelCommand code len parse act dt rest s).Following := by
  have hp : ∀ (u : State) p, u.Following → (u.setPort p).Following := fun u p => (setPort_still u p).following
  exact panelCommand_induction (P := State.Following) (Q := State.Following) hp hp (fun _ h => h) hact
    ((elapse_still s dt).following h)

/-- Every command keeps what follows the state. -/
theorem exec_following {c : Instr} {s t : State} (h : s.Following) (hc : exec c s = .next t) : t.Following := by
  rcases exec_obeys c s with ⟨u, hu, ho⟩ | rfl | rfl | ⟨dt, rest, rfl⟩ | ⟨dt, rest, rfl⟩
  · rw [hu] at hc
    injection hc with e
    exact e ▸ ho.following h
  · injection hc with e
    exact e ▸ resetKeeping_following _ s
  · injection hc with e
    exact e ▸ resetKeeping_following _ s
  · injection hc with e
    exact e ▸ panelCommand_following resetDetection_following h
  · injection hc with e
    exact e ▸ panelCommand_following suppressionIsolate_following h

/-- Settles O59: every event is settled, and a settled state follows; the commands that settle nothing write only what
`Following` does not read. -/
theorem outputsAndConditionsFollow : Obligations.OutputsAndConditionsFollow := by
  unfold Obligations.OutputsAndConditionsFollow
  intro s t h hs
  unfold step at hs
  split at hs
  · next c rest _ =>
    have hk : Still s { s with pending := rest } :=
      { Still.refl s with doors := fun d => by cases d <;> exact ⟨rfl, rfl⟩ }
    exact exec_following (hk.following h) hs
  · split at hs
    · exact exec_following h hs
    · injection hs with e
      exact e ▸ h

/-- Settles O9: `exec_obeys`, and for the commands that it leaves out what they do to the other of the two. -/
theorem alarmAndIsolationHold : Obligations.AlarmAndIsolationHold := by
  unfold Obligations.AlarmAndIsolationHold
  refine ⟨fun c s t l hc ha => ?_, fun c s t hc hi => ?_⟩
  · rcases exec_obeys c s with ⟨u, hu, ho⟩ | rfl | rfl | ⟨dt, rest, rfl⟩ | ⟨dt, rest, rfl⟩
    · rw [hu] at hc
      injection hc with e
      exact .inl (e ▸ ho.alarm l ha)
    · exact .inr (.inl rfl)
    · exact .inr (.inr (.inl rfl))
    · by_cases hl : (s.line l).level < (s.line l).effAlarm
      · exact .inr (.inr (.inr ⟨dt, rest, rfl, hl⟩))
      · injection hc with e
        refine .inl (e ▸ panelCommand_induction (P := fun u => u.line l = s.line l)
          (Q := fun u => (u.line l).stage = .alarm) (fun _ _ hu => hu) (fun _ _ hu => hu) (fun u hu => hu ▸ ha)
          (fun x u hu => resetDetection_alarm x u l (hu ▸ ha) (hu ▸ hl)) rfl)
    · injection hc with e
      exact .inl (e ▸ panelCommand_induction (P := fun u => (u.line l).stage = .alarm)
          (Q := fun u => (u.line l).stage = .alarm) (fun _ _ hu => hu) (fun _ _ hu => hu) (fun _ hu => hu)
          (fun x u hu => suppressionIsolate_alarm x u l hu) ha)
  · rcases exec_obeys c s with ⟨u, hu, ho⟩ | rfl | rfl | ⟨dt, rest, rfl⟩ | ⟨dt, rest, rfl⟩
    · rw [hu] at hc
      injection hc with e
      exact .inl (e ▸ ho.isolated hi)
    · exact .inr (.inl rfl)
    · exact .inr (.inr (.inl rfl))
    · injection hc with e
      exact .inl (e ▸ panelCommand_induction (P := fun u => u.seq.stage = .isolated)
          (Q := fun u => u.seq.stage = .isolated) (fun _ _ hu => hu) (fun _ _ hu => hu) (fun _ hu => hu)
          (fun x u hu => resetDetection_isolated x u hu) hi)
    · exact .inr (.inr (.inr ⟨dt, rest, rfl⟩))

end Sys2Proof.Machine
end

section
/-! SUPPORT. Detector lines (chapter 1): what the end of a pulse makes of a line, case by case, and a line's edge and
timers as the whole station shows them. -/

namespace Sys2Proof.Machine

/-! ## The reading computation -/

theorem classify_short {w : Nat} {p : Option Nat} (h : w < 60) : classify false w p = .short := by simp [classify, h]

theorem classify_noise {w : Nat} {p : Option Nat} (h : 60 ≤ w) (hp : ∃ q, p = some q ∧ q < 200) :
    classify false w p = .noise := by
  obtain ⟨q, rfl, hq⟩ := hp
  simp [classify, Nat.not_lt.mpr h, hq]

theorem classify_valid {w : Nat} {p : Option Nat} (h : 60 ≤ w) (hp : ∀ q, p = some q → 200 ≤ q) :
    classify false w p = .valid := by
  cases p with
  | none => simp [classify, Nat.not_lt.mpr h]
  | some q => simp [classify, Nat.not_lt.mpr h, hp q rfl]

/-- R2: a pulse that falls within 4500 µs ends with its own width. -/
theorem Line.falling_pulse (c : LineCfg) (now : Nat) (x : Line) (p : Pulse) (hp : x.pulse = some p)
    (hw : now - p.rise < 4500) :
    x.falling c now = { x with stuck := none }.endPulse c false (now - p.rise) p.period := by
  unfold Line.falling
  rw [hp]
  simp [Config.longPulse, Nat.not_le.mpr hw]

/-- R14, R15: the count and the stage that a processed reading decides; only QUIET and WATCH are decided anew. -/
theorem Line.decide_eq (c : LineCfg) (x : Line) : x.decide c = { x with
    count := nextCount c x
    stage := if x.stage = .quiet ∨ x.stage = .watch then decidedStage c { x with count := nextCount c x }
      else x.stage } := by
  unfold Line.decide
  cases h : x.stage <;> simp

/-- A line's end of a pulse, apart from what its class makes of it. -/
def Line.ended (w : Nat) (p : Option Nat) (x : Line) : Line :=
  { x with stuck := none, pulse := none, lastWidth := w, lastPeriod := min (p.getD 0) 65535 }

/-- R3, R4: a valid pulse ends both runs, and its width becomes a reading. -/
def Line.recorded (w : Nat) (p : Option Nat) (x : Line) : Line :=
  { x.ended w p with shortRun := 0, noiseRun := 0, lastReading := readingOf w }

/-- R4, R11, R12, R14: a valid pulse on a seeded line that is not in fault. -/
theorem Line.endPulse_seeded (c : LineCfg) (w : Nat) (p : Option Nat) (x : Line) (hc : classify false w p = .valid)
    (hf : x.fault = .noFault) (hs : x.seeded = true) :
    { x with stuck := none }.endPulse c false w p =
      ((x.recorded w p).track (readingOf w)).decide c := by
  simp [Line.endPulse, hc, Line.validPulse, hf, hs, Line.recorded, Line.ended]

/-- R10, R14: the first valid pulse of a line that is not in fault. -/
theorem Line.endPulse_unseeded (c : LineCfg) (w : Nat) (p : Option Nat) (x : Line) (hc : classify false w p = .valid)
    (hf : x.fault = .noFault) (hs : x.seeded = false) :
    { x with stuck := none }.endPulse c false w p =
      ((x.recorded w p).seed (readingOf w)).decide c := by
  simp [Line.endPulse, hc, Line.validPulse, hf, hs, Line.recorded, Line.ended]

/-- R4, R9: a valid pulse on a line in fault. -/
theorem Line.endPulse_inFault (c : LineCfg) (w : Nat) (p : Option Nat) (x : Line) (hc : classify false w p = .valid)
    (hf : x.fault ≠ .noFault) :
    { x with stuck := none }.endPulse c false w p =
      (x.recorded w p).countClearing c := by
  simp [Line.endPulse, hc, Line.validPulse, hf, Line.recorded, Line.ended]

theorem Line.endPulse_short (c : LineCfg) (w : Nat) (p : Option Nat) (x : Line) (hc : classify false w p = .short) :
    { x with stuck := none }.endPulse c false w p = (x.ended w p).shortDiscard := by
  simp [Line.endPulse, hc, Line.ended]

theorem Line.endPulse_noise (c : LineCfg) (w : Nat) (p : Option Nat) (x : Line) (hc : classify false w p = .noise) :
    { x with stuck := none }.endPulse c false w p = (x.ended w p).noiseDiscard := by
  simp [Line.endPulse, hc, Line.ended]

/-- R8: what a line that detects a fault becomes. -/
structure Line.Detected (k : FaultKind) (x y : Line) : Prop where
  fault : y.fault = k
  clearing : y.clearing = 0
  fresh : x.fault = .noFault → y.entries = min (x.entries + 1) 255 ∧ y.count = 0 ∧
    y.stage = if x.stage = .alarm then .alarm else .fault
  again : x.fault ≠ .noFault → y.entries = x.entries ∧ y.count = x.count ∧ y.stage = x.stage

theorem Line.detectFault_detected (k : FaultKind) (x : Line) : x.Detected k (x.detectFault k) := by
  unfold Line.detectFault
  split
  · next h => exact ⟨rfl, rfl, fun _ => ⟨rfl, rfl, rfl⟩, fun n => absurd h n⟩
  · next h => exact ⟨rfl, rfl, fun n => absurd n h, fun _ => ⟨rfl, rfl, rfl⟩⟩

/-- R3, R5: what only readings and edges move. -/
structure Line.Unread (x y : Line) : Prop where
  lastReading : y.lastReading = x.lastReading
  smooth : y.smooth = x.smooth
  ring : y.ring = x.ring
  level : y.level = x.level
  rise : y.rise = x.rise
  lastWidth : y.lastWidth = x.lastWidth
  stuck : y.stuck = x.stuck
  openTimer : y.openTimer = x.openTimer

theorem Line.detectFault_unread (k : FaultKind) (x : Line) : x.Unread (x.detectFault k) := by
  unfold Line.detectFault
  split <;> constructor <;> rfl

theorem Line.detectFault_runs (k : FaultKind) (x : Line) :
    (x.detectFault k).shortRun = x.shortRun ∧ (x.detectFault k).noiseRun = x.noiseRun := by
  unfold Line.detectFault
  split <;> exact ⟨rfl, rfl⟩

/-- R8: all that the detecting of a fault does to a line. -/
theorem Line.detectFault_spec (k : FaultKind) (x : Line) : x.Detected k (x.detectFault k) ∧ x.Unread (x.detectFault k) ∧
    (x.detectFault k).shortRun = x.shortRun ∧ (x.detectFault k).noiseRun = x.noiseRun :=
  ⟨x.detectFault_detected k, x.detectFault_unread k, x.detectFault_runs k⟩

/-- R8, R9: a discard that detects nothing. -/
structure Line.Holds (x y : Line) : Prop where
  fault : y.fault = x.fault
  stage : y.stage = x.stage
  count : y.count = x.count
  clearing : x.fault ≠ .noFault → y.clearing = 0

/-- R9: in fault, an interruption clears the clearing count. -/
theorem Line.interruptClearing_eq (x : Line) : x.interruptClearing =
    { x with clearing := if x.fault = .noFault then x.clearing else 0 } := by
  unfold Line.interruptClearing
  split <;> rfl

/-- R5: a discard of a kind, where `run` is the run of its kind before it and `ran` after it: the third in a row detects
the fault of the kind. -/
structure Line.Discarded (k : FaultKind) (run ran : Nat) (x y : Line) : Prop where
  unread : x.Unread y
  counted : run ≠ 2 → ran = run + 1 ∧ x.Holds y
  third : run = 2 → ran = 0 ∧ x.Detected k y

theorem Line.shortDiscard_discarded (x : Line) : x.shortDiscard.noiseRun = 0 ∧
    x.Discarded .short x.shortRun x.shortDiscard.shortRun x.shortDiscard := by
  unfold Line.shortDiscard
  rw [x.interruptClearing_eq]
  dsimp only
  obtain ⟨d, u, r⟩ := Line.detectFault_spec .short
    { x with clearing := if x.fault = .noFault then x.clearing else 0, noiseRun := 0 }
  split
  · next h =>
    exact ⟨r.2, ⟨u.lastReading, u.smooth, u.ring, u.level, u.rise, u.lastWidth, u.stuck, u.openTimer⟩,
      fun n => absurd h (by omega), fun _ => ⟨rfl, d.fault, d.clearing, d.fresh, d.again⟩⟩
  · next h =>
    exact ⟨rfl, ⟨rfl, rfl, rfl, rfl, rfl, rfl, rfl, rfl⟩, fun _ => ⟨rfl, rfl, rfl, rfl, fun n => if_neg n⟩,
      fun n => absurd n (by omega)⟩

theorem Line.noiseDiscard_discarded (x : Line) : x.noiseDiscard.shortRun = 0 ∧
    x.Discarded .noisy x.noiseRun x.noiseDiscard.noiseRun x.noiseDiscard := by
  unfold Line.noiseDiscard
  rw [x.interruptClearing_eq]
  dsimp only
  obtain ⟨d, u, r⟩ := Line.detectFault_spec .noisy
    { x with clearing := if x.fault = .noFault then x.clearing else 0, shortRun := 0 }
  split
  · next h =>
    exact ⟨r.1, ⟨u.lastReading, u.smooth, u.ring, u.level, u.rise, u.lastWidth, u.stuck, u.openTimer⟩,
      fun n => absurd h (by omega), fun _ => ⟨rfl, d.fault, d.clearing, d.fresh, d.again⟩⟩
  · next h =>
    exact ⟨rfl, ⟨rfl, rfl, rfl, rfl, rfl, rfl, rfl, rfl⟩, fun _ => ⟨rfl, rfl, rfl, rfl, fun n => if_neg n⟩,
      fun n => absurd n (by omega)⟩

/-! ## A line that has taken its new state, as the station shows it -/

/-- A line but for its effective alarm level. -/
theorem Line.eq_of_apart {x y : Line} (h : y.apart = x.apart) : y = { x with effAlarm := y.effAlarm } := by
  cases x
  cases y
  simpa [Line.apart] using h

/-- What the hand-offs of an event leave of a line that the event has moved: the line, but for its alarm level; and beside
it, what `Handed` says. -/
theorem Handed.moved {v t : State} {l : Fin 4} {y : Line} (h : Handed (v.setLine l y) t) :
    (∃ e, t.line l = { y with effAlarm := e }) ∧ Handed (v.setLine l (t.line l)) t := by
  have hl := h.lines l
  rw [State.setLine_line, if_pos rfl] at hl
  refine ⟨⟨_, Line.eq_of_apart hl⟩, { h with lines := fun k => ?_ }⟩
  have hk := h.lines k
  rw [State.setLine_line] at hk ⊢
  split
  · next e => rw [e]
  · next e => rwa [if_neg e] at hk

theorem putLine_only (l : Fin 4) (x : Line) (s : State) : SeqOnly (s.setLine l x) (putLine l x s) := by
  unfold putLine
  split
  · exact alarmEntered_only l _
  · exact .refl _

/-- A line that does not become ALARM hands nothing on. -/
theorem putLine_of_same (l : Fin 4) (x : Line) (s : State) (h : x.stage = .alarm → (s.line l).stage = .alarm) :
    putLine l x s = s.setLine l x := if_neg fun ⟨hn, ha⟩ => hn (h ha)

/-- R16: a line takes its new state, and its event is settled. -/
theorem settle_putLine (l : Fin 4) (y : Line) (v : State) :
    (∃ e, (settle (putLine l y v)).line l = { y with effAlarm := e }) ∧
      Handed (v.setLine l ((settle (putLine l y v)).line l)) (settle (putLine l y v)) :=
  ((putLine_only l y v).toHanded.trans (settle_handed _)).moved

/-- The input of a detector line has moved, so much later. -/
def State.edged (s : State) (dt : Nat) (l : Fin 4) (high : Bool) : State :=
  (s.elapse dt).setPins { s.pins with det := s.pins.det.set l high }

/-- R2: a falling edge on a measured line. -/
theorem exec_fallingEdge (s : State) (dt : Nat) (l : Fin 4) (hr : s.running = true) (he : (s.lineCfg l).enable = true)
    (hd : s.pins.det[l] = true) :
    exec (.detectorFallingEdge dt l) s =
      .next (settle (putLine l ((s.line l).falling (s.lineCfg l) (s.now + dt)) (s.edged dt l false))) := by
  have hm : (s.elapse dt).measures l = true := by
    show (s.running && (s.lineCfg l).enable) = true
    rw [hr, he]
    rfl
  have hd' : (s.elapse dt).pins.det[l] = true := hd
  show Host.Outcome.next (fallingEdge l (s.elapse dt)) = _
  unfold fallingEdge
  rw [if_pos hd', if_pos hm]
  rfl

end Sys2Proof.Machine
end

section
/-! SUPPORT. The commands of the detector lines: edges, timers and the end of a pulse (R1 to R15). -/

namespace Sys2Proof.Machine

/-! ## Edges and line timers (O6) -/

theorem exec_risingEdge (s : State) (dt : Nat) (l : Fin 4) (hd : s.pins.det[l] = false) :
    exec (.detectorRisingEdge dt l) s = .next
      (if s.running && (s.lineCfg l).enable then (s.edged dt l true).setLine l ((s.line l).rising (s.now + dt))
        else s.edged dt l true) := by
  have hd' : ¬(s.elapse dt).pins.det[l] = true := by
    show ¬s.pins.det[l] = true
    rw [hd]
    decide
  show Host.Outcome.next (risingEdge l (s.elapse dt)) = _
  unfold risingEdge
  rw [if_neg hd']
  rfl

theorem exec_fallingEdge_unmeasured (s : State) (dt : Nat) (l : Fin 4)
    (hm : ¬(s.running = true ∧ (s.lineCfg l).enable = true)) (hd : s.pins.det[l] = true) :
    exec (.detectorFallingEdge dt l) s = .next (s.edged dt l false) := by
  have hm' : ¬(s.elapse dt).measures l = true := by
    show ¬(s.running && (s.lineCfg l).enable) = true
    rwa [Bool.and_eq_true]
  have hd' : (s.elapse dt).pins.det[l] = true := hd
  show Host.Outcome.next (fallingEdge l (s.elapse dt)) = _
  unfold fallingEdge
  rw [if_pos hd', if_neg hm']
  rfl

/-- R2, R3, R5: what a long pulse makes of a line. -/
theorem Line.endPulse_long (c : LineCfg) (w : Nat) (p : Option Nat) (x : Line) : x.endPulse c true w p =
    { x with
      pulse := none, lastWidth := w, lastPeriod := min (p.getD 0) 65535, shortRun := 0, noiseRun := 0
      clearing := if x.fault = .noFault then x.clearing else 0 } := by
  show Line.longDiscard _ = _
  unfold Line.longDiscard
  rw [Line.interruptClearing_eq]

/-- R6 to R8: a timer of a line has detected a fault, and the event is settled. -/
theorem settle_detectFault (k : FaultKind) (x : Line) (v : State) (l : Fin 4) :
    let t := settle (v.setLine l (x.detectFault k))
    (t.line l).stuck = x.stuck ∧ (t.line l).openTimer = x.openTimer ∧ (t.line l).smooth = x.smooth ∧
      (t.line l).ring = x.ring ∧ x.Detected k (t.line l) ∧ Handed (v.setLine l (t.line l)) t := by
  intro t
  obtain ⟨⟨e, hl⟩, hh⟩ := (settle_handed (v.setLine l (x.detectFault k))).moved
  obtain ⟨d, u, -⟩ := x.detectFault_spec k
  have hl : t.line l = { x.detectFault k with effAlarm := e } := hl
  rw [hl] at hh ⊢
  exact ⟨u.stuck, u.openTimer, u.smooth, u.ring, ⟨d.fault, d.clearing, d.fresh, d.again⟩, hh⟩

/-- Settles O6: each command is one write of a line, and what the hand-offs leave of it. -/
theorem risingEdgesAndLineTimers : Obligations.RisingEdgesAndLineTimers := by
  unfold Obligations.RisingEdgesAndLineTimers
  refine ⟨fun s dt l hd => ⟨fun ⟨hr, he⟩ => ?_, fun hm => ?_⟩, fun s dt l hd => ⟨fun ⟨hr, he⟩ hp => ?_, fun hm => ?_⟩,
    fun s l p hp => ?_, fun s l d => ⟨fun hs hd => ?_, fun ho hd => ?_, fun ho hd => ?_⟩⟩
  · rw [exec_risingEdge s dt l hd, hr, he]
    rfl
  · rw [exec_risingEdge s dt l hd, if_neg (by rwa [Bool.and_eq_true])]
    rfl
  · refine ⟨_, exec_fallingEdge s dt l hr he hd, ?_⟩
    have hf : (s.line l).falling (s.lineCfg l) (s.now + dt) = { s.line l with stuck := none } := by
      simp only [Line.falling, hp]
    rw [hf, putLine_of_same _ _ _ (by exact id)]
    exact settle_after _
  · exact exec_fallingEdge_unmeasured s dt l hm hd
  · have he : exec (.longPulse l) s = .next (settle (putLine l
        ((s.line l).endPulse (s.lineCfg l) true Config.longPulse p.period) (s.reach (p.rise + Config.longPulse)))) := by
      show Host.Outcome.next (longPulse l s) = _
      simp only [longPulse, hp]
    refine ⟨_, he, ?_⟩
    obtain ⟨⟨e, hl⟩, hh⟩ := settle_putLine l ((s.line l).endPulse (s.lineCfg l) true Config.longPulse p.period)
      (s.reach (p.rise + Config.longPulse))
    rw [hl, Line.endPulse_long] at hh ⊢
    exact ⟨rfl, rfl, rfl, rfl, rfl, rfl, rfl, rfl, rfl, rfl, rfl, rfl, fun hf => if_neg hf, hh⟩
  · have he : exec (.stuckTimerExpiry l) s =
        .next (settle ((s.reach d).setLine l ({ s.line l with stuck := none }.detectFault .stuck))) := by
      show Host.Outcome.next (stuckTimerExpiry l s) = _
      simp only [stuckTimerExpiry, hs, hd, if_true]
    obtain ⟨h1, h2, h3, h4, k, hh⟩ := settle_detectFault .stuck { s.line l with stuck := none } (s.reach d) l
    exact ⟨_, he, h1, h2, ⟨k.fault, k.clearing, h3, h4, k.fresh, k.again⟩, hh⟩
  · have he : exec (.openTimerExpiry l) s =
        .next (settle ((s.reach d).setLine l ({ s.line l with openTimer := none }.detectFault .opened))) := by
      show Host.Outcome.next (openTimerExpiry l s) = _
      simp [openTimerExpiry, ho, hd]
    obtain ⟨h1, h2, h3, h4, k, hh⟩ := settle_detectFault .opened { s.line l with openTimer := none } (s.reach d) l
    exact ⟨_, he, h2, h1, ⟨k.fault, k.clearing, h3, h4, k.fresh, k.again⟩, hh⟩
  · show Host.Outcome.next (openTimerExpiry l s) = _
    simp only [openTimerExpiry, ho, hd, if_true]

/-! ## Valid pulses (O7) and discards (O8) -/

/-- R2: a falling edge that ends a pulse within 4500 µs, and what the hand-offs leave of the line. -/
theorem exec_pulseEnds (s : State) (dt : Nat) (l : Fin 4) (p : Pulse) (hr : s.running = true)
    (he : (s.lineCfg l).enable = true) (hd : s.pins.det[l] = true) (hp : (s.line l).pulse = some p)
    (hw : s.now + dt - p.rise < 4500) :
    ∃ t e, exec (.detectorFallingEdge dt l) s = .next t ∧
      t.line l = { { s.line l with stuck := none }.endPulse (s.lineCfg l) false (s.now + dt - p.rise) p.period with
        effAlarm := e } ∧
      Handed ((s.edged dt l false).setLine l (t.line l)) t := by
  obtain ⟨⟨e, hl⟩, hh⟩ := settle_putLine l ((s.line l).falling (s.lineCfg l) (s.now + dt)) (s.edged dt l false)
  refine ⟨_, e, exec_fallingEdge s dt l hr he hd, ?_, hh⟩
  rw [hl, Line.falling_pulse _ _ _ p hp hw]

/-- R11: S moves a quarter of the distance toward 16 R, rounded up. -/
theorem smoothStep_up {m r : Nat} (h : m ≤ 16 * r) : smoothStep m r = m + (16 * r - m + 3) / 4 := if_pos h

theorem smoothStep_down {m r : Nat} (h : 16 * r < m) : smoothStep m r = m - (m - 16 * r + 3) / 4 :=
  if_neg (Nat.not_le.mpr h)

/-- R12: the rise is measured against the ring's oldest value, and the ring takes S as its newest. -/
theorem Line.track_kept (r : Nat) (x : Line) (h : x.refill = false) :
    (x.track r).rise = ((x.track r).smooth : Int) - (x.ring.headD 0 : Int) ∧
      (x.track r).ring = x.ring.drop 1 ++ [(x.track r).smooth] := by
  simp [Line.track, Line.ringBefore, h]

/-- R9, R12: a ring to be refilled is first filled with S as it was. -/
theorem Line.track_refilled (r : Nat) (x : Line) (h : x.refill = true) :
    (x.track r).rise = ((x.track r).smooth : Int) - (x.smooth : Int) ∧
      (x.track r).ring = List.replicate 7 x.smooth ++ [(x.track r).smooth] := by
  simp [Line.track, Line.ringBefore, h]

theorem decidedStage_below (c : LineCfg) (x : Line) (h : x.level < x.effAlarm) (hr : x.rise = 0) :
    decidedStage c x = if c.wt ≤ x.level then .watch else .quiet := by
  have hq : (c.wt ≤ x.level ∨ (c.qt ≠ 0 ∧ (c.qt : Int) ≤ x.rise)) ↔ c.wt ≤ x.level := by omega
  unfold decidedStage
  rw [if_neg (Nat.not_le.mpr h)]
  exact if_congr hq rfl rfl

/-- Settles O7: the line is `track` or `seed`, and then `decide`, of the line whose pulse has ended. -/
theorem validPulses : Obligations.ValidPulses := by
  unfold Obligations.ValidPulses
  refine ⟨fun s dt l p hr he hd hp h60 hw hq hf hs => ?_, fun s dt l p hr he hd hp h60 hw hq hf hs hst => ?_⟩
  · obtain ⟨t, e, ht, hl, hh⟩ := exec_pulseEnds s dt l p hr he hd hp hw
    refine ⟨t, ht, ?_⟩
    rw [Line.endPulse_seeded _ _ _ _ (classify_valid h60 hq) hf hs, Line.decide_eq] at hl
    rw [hl] at hh ⊢
    refine ⟨rfl, rfl, rfl, rfl, rfl, rfl, rfl, hs, hf, smoothStep_up, smoothStep_down, rfl,
      fun h => Line.track_kept _ _ h, fun h => Line.track_refilled _ _ h, rfl, rfl, fun h => ?_, fun h => if_pos h, hh⟩
    exact (if_neg (by rintro (q | q) <;> exact absurd (h.symm.trans q) (by decide))).trans h
  · obtain ⟨t, e, ht, hl, hh⟩ := exec_pulseEnds s dt l p hr he hd hp hw
    refine ⟨t, ht, ?_⟩
    rw [Line.endPulse_unseeded _ _ _ _ (classify_valid h60 hq) hf hs, Line.decide_eq, if_pos (.inl hst)] at hl
    rw [hl] at hh ⊢
    exact ⟨rfl, rfl, rfl, rfl, rfl, rfl, rfl, rfl, fun h => if_pos h, fun h => decidedStage_below _ _ h rfl, hh⟩

/-- R9: in fault, a valid pulse that is not the fourth in a row is counted. -/
theorem Line.countClearing_counted (c : LineCfg) (x : Line) (h : x.clearing ≠ 3) :
    x.countClearing c = { x with clearing := x.clearing + 1 } := if_neg (by omega)

/-- R9: the fourth clears the fault. -/
theorem Line.countClearing_cleared (c : LineCfg) (x : Line) (h : x.clearing = 3) : x.countClearing c = { x with
    fault := .noFault, clearing := 0
    stage := if x.stage = .fault then (if x.seeded && c.wt ≤ x.level then .watch else .quiet) else x.stage
    refill := x.refill || x.seeded } := if_pos (by omega)

/-- R9: what the count of valid pulses in fault leaves of a line. -/
theorem Line.countClearing_held (c : LineCfg) (x : Line) :
    (x.countClearing c).lastWidth = x.lastWidth ∧ (x.countClearing c).lastReading = x.lastReading ∧
      (x.countClearing c).smooth = x.smooth ∧ (x.countClearing c).ring = x.ring ∧ (x.countClearing c).rise = x.rise ∧
      (x.countClearing c).count = x.count ∧ (x.countClearing c).level = x.level ∧
      (x.countClearing c).entries = x.entries := by
  unfold Line.countClearing
  split <;> exact ⟨rfl, rfl, rfl, rfl, rfl, rfl, rfl, rfl⟩

/-- Settles O8: a discard is `shortDiscard` or `noiseDiscard` of the line whose pulse has ended, and a valid pulse in
fault is its `countClearing`. -/
theorem discardsAndFaults : Obligations.DiscardsAndFaults := by
  unfold Obligations.DiscardsAndFaults
  refine ⟨fun s dt l p hr he hd hp hw => ?_, fun s dt l p hr he hd hp h60 hw hq hf => ?_⟩
  · obtain ⟨t, e, ht, hl, hh⟩ := exec_pulseEnds s dt l p hr he hd hp hw
    have short (h : s.now + dt - p.rise < 60) := by
      rw [Line.endPulse_short _ _ _ _ (classify_short h)] at hl
      exact hl
    have noise (h : 60 ≤ s.now + dt - p.rise) (hq : ∃ q, p.period = some q ∧ q < 200) := by
      rw [Line.endPulse_noise _ _ _ _ (classify_noise h hq)] at hl
      exact hl
    obtain ⟨hn, ds⟩ := ((s.line l).ended (s.now + dt - p.rise) p.period).shortDiscard_discarded
    obtain ⟨hs, dn⟩ := ((s.line l).ended (s.now + dt - p.rise) p.period).noiseDiscard_discarded
    refine ⟨t, ht, fun h => ?_, fun h hq => ?_, fun h => ?_, hh⟩
    · rw [short h]
      refine ⟨hn, fun n => ?_, fun n => ?_⟩
      · obtain ⟨hc, k⟩ := ds.counted n
        exact ⟨hc, k.fault, k.stage, k.count, k.clearing⟩
      · obtain ⟨hc, k⟩ := ds.third n
        exact ⟨hc, k.fault, k.clearing, k.fresh, fun f => ⟨(k.again f).1, (k.again f).2.2⟩⟩
    · rw [noise h hq]
      refine ⟨hs, fun n => ?_, fun n => ?_⟩
      · obtain ⟨hc, k⟩ := dn.counted n
        exact ⟨hc, k.fault, k.stage, k.count, k.clearing⟩
      · obtain ⟨hc, k⟩ := dn.third n
        exact ⟨hc, k.fault, k.clearing, k.fresh, fun f => ⟨(k.again f).1, (k.again f).2.2⟩⟩
    · by_cases h60 : s.now + dt - p.rise < 60
      · rw [short h60]
        have u := ds.unread
        exact ⟨u.lastWidth, u.lastReading, u.smooth, u.ring, u.level, u.rise⟩
      · rw [noise (Nat.le_of_not_lt h60) (h.resolve_left h60)]
        have u := dn.unread
        exact ⟨u.lastWidth, u.lastReading, u.smooth, u.ring, u.level, u.rise⟩
  · obtain ⟨t, e, ht, hl, hh⟩ := exec_pulseEnds s dt l p hr he hd hp hw
    refine ⟨t, ht, ?_⟩
    rw [Line.endPulse_inFault _ _ _ _ (classify_valid h60 hq) hf] at hl
    obtain ⟨k1, k2, k3, k4, k5, k6, k7, k8⟩ := Line.countClearing_held (s.lineCfg l)
      ((s.line l).recorded (s.now + dt - p.rise) p.period)
    rw [hl] at hh ⊢
    refine ⟨k1, k2, k3, k4, k5, k6, k7, k8, fun h => ?_, fun h => ?_, hh⟩
    · rw [Line.countClearing_counted _ ((s.line l).recorded _ _) h]
      exact ⟨rfl, rfl, rfl, rfl⟩
    · rw [Line.countClearing_cleared _ ((s.line l).recorded _ _) h]
      exact ⟨rfl, rfl, rfl, rfl⟩

end Sys2Proof.Machine
end

section
/-! SUPPORT. The commands that report (chapter 11): the data of each reply in the terms of the statement. -/

namespace Sys2Proof.Machine

/-! ## Encodings -/

theorem msLeft_eq (now : Nat) : msLeft now = fun t => (t - now + 999) / 1000 := by
  funext t
  unfold msLeft ceilDiv
  rw [Nat.add_sub_assoc (by decide)]

theorem secLeft_eq (now : Nat) : secLeft now = fun t => (t - now + 999999) / 1000000 := by
  funext t
  unfold secLeft ceilDiv
  rw [Nat.add_sub_assoc (by decide)]

theorem signed2_eq (n : Int) : signed2 n = num2 (n % 65536).toNat := by
  unfold signed2
  rw [BitVec.toNat_ofInt]
  rfl

theorem outputs_any (s : State) :
    s.posture.outputs.toList.any OutLine.mark = (List.finRange 12).any (fun l => (s.output l).mark) := by
  rw [Bool.eq_iff_iff, List.any_eq_true, List.any_eq_true]
  constructor
  · rintro ⟨x, hx, hm⟩
    obtain ⟨i, hi, rfl⟩ := Vector.mem_iff_getElem.mp (Vector.mem_toList_iff.mp hx)
    exact ⟨⟨i, hi⟩, List.mem_finRange _, hm⟩
  · rintro ⟨l, -, hm⟩
    exact ⟨_, Vector.mem_toList_iff.mpr (Vector.getElem_mem l.isLt), hm⟩

theorem lineOperand_byteOf (s : State) (l : Fin 4) : lineOperand s [byteOf l.val] = some l := by
  fin_cases l <;> rfl

theorem addressOperand_byteOf (s : State) {a : Nat} (h1 : 1 ≤ a) (h2 : a ≤ 48) :
    addressOperand s [byteOf a] = some a := by
  have ha : (byteOf a).toNat = a := by
    unfold byteOf
    rw [BitVec.toNat_ofNat]
    omega
  simp [addressOperand, ha, h1, h2]

theorem releaseStation_iff (s : State) (a : Nat) :
    (s.releaseStation == some a) = decide (s.role = .member ∧ s.img.members.head? = some a) := by
  unfold State.releaseStation
  cases hr : s.role <;> simp [beq_eq_decide]

/-- R35: the reply on a peer; the own address reads as after reset. -/
theorem peerData_eq (s : State) (a : Nat) : peerData s a =
    let y := if a = s.address then Peer.reset else s.peer a
    flag1 (decide (a = s.address)) ++ num1 y.presence.code ++
      num2 (if y.presence = .neverHeard then 0 else ageMs s.now y.lastHeard) ++
      flag1 (decide (¬a = s.address ∧ a ∈ s.img.members)) ++
      flag1 (decide (¬a = s.address ∧ s.role = .member ∧ s.img.members.head? = some a)) ++ flag1 y.statusHeard ++
      num1 y.said.period ++ num1 y.said.role.code ++ num1 y.said.area ++ num1 y.said.posture.num ++ [y.said.epoch] ++
      num1 y.said.stage.ordinal ++ num1 y.said.count ++ flag1 y.said.doubtful ++ marks4 y.said.alarmMask ++
      marks4 y.said.groupMask ++ flag1 y.said.abortHeld ++ flag1 y.said.duressActive ++ num1 y.said.alarmLevel ++
      outcomeData y.said.outcome := by
  have member : (!(a == s.address) && s.isMember a) = decide (¬a = s.address ∧ a ∈ s.img.members) := by
    simp [State.isMember, beq_eq_decide]
  have station : (!(a == s.address) && s.releaseStation == some a) =
      decide (¬a = s.address ∧ s.role = .member ∧ s.img.members.head? = some a) := by
    rw [releaseStation_iff, beq_eq_decide, Bool.decide_and (¬a = s.address), decide_not]
  unfold peerData
  simp only [member, station]
  simp only [beq_eq_decide, decide_eq_true_eq]

theorem flatMap_num1 {α : Type} (g : α → Nat) (xs : List α) :
    xs.flatMap (fun x => num1 (g x)) = xs.map (fun x => byteOf (g x)) := List.flatMap_pure_eq_map _ _

theorem abortHeldFlag_eq (s : State) : s.abortHeldFlag = (decide (s.role ≠ .noArea) && s.pins.abort) := by
  unfold State.abortHeldFlag
  cases s.role <;> rfl

/-! ## The commands -/

/-- R190: LATCH_TIMES with no snapshot held. -/
theorem latchTimes_none {s : State} (h : s.AtPanel) (dt before : Nat) (hn : s.port.snapshot = none) :
    panelCommand 16 0 noOperands latchTimes dt ⟨[0], before⟩ s = (s.elapse dt).setPort
      { s.answered [0] 16 0 0 [] with snapshot := some (s.elapse dt).snapshotNow } := by
  have hc := checked_ok (code := 16) (parse := noOperands) (act := latchTimes) (bytes := [])
    (x := ()) (v := s.taken dt 16 ⟨[0], before⟩)
    (Or.inl (State.running_phase h.1)) rfl (by decide) rfl
  have ha : latchTimes () (s.taken dt 16 ⟨[0], before⟩) = (Answer.done [],
      (s.taken dt 16 ⟨[0], before⟩).setPort
        { (s.taken dt 16 ⟨[0], before⟩).port with snapshot := some (s.elapse dt).snapshotNow }) := by
    have hn' : (s.taken dt 16 ⟨[0], before⟩).port.snapshot = none := hn
    unfold latchTimes
    rw [hn']
    rfl
  have h1 : (s.elapse dt).portTakes = true := State.running_portTakes h.1
  have h2 : (s.elapse dt).port.state = .idle := h.2
  have hd : (PortState.idle == PortState.reply) = false := rfl
  have hc : checked 16 0 noOperands latchTimes [0] (takeCommand 16 ⟨[0], before⟩ (s.elapse dt)) = _ := hc.trans ha
  have hi : s.port.state = .idle := h.2
  simp only [panelCommand, commandFrame, h1, h2, if_true, answerCommand, hc, sendPsdo, psdoBytes, frameLength]
  simp [formReply, State.setPort, State.answered, replyBytes, State.taken, takeCommand, hi, hd, State.elapse,
    Answer.done]
  rfl

theorem exec_getStatus {s : State} (hp : s.portTakes = true) (hi : s.port.state = .idle) (dt before : Nat) :
    exec (.getStatus dt ⟨[0], before⟩) s = .next ((statusTaken (s.taken dt 1 ⟨[0], before⟩)).setPort
      (s.answered [0] 1 0 0 (statusData (s.taken dt 1 ⟨[0], before⟩)))) := by
  have hc := checked_ok (code := 1) (parse := noOperands) (act := getStatus) (bytes := [])
    (x := ()) (v := s.taken dt 1 ⟨[0], before⟩)
    (Or.inr rfl) rfl (by decide) rfl
  have hf := commandFrame_idle s dt 1 ⟨[0], before⟩ (checked 1 0 noOperands getStatus [0]) hp hi
    ((congrArg (fun x => x.2.port) hc).trans rfl)
  have hc' : checked 1 0 noOperands getStatus [0] (s.taken dt 1 ⟨[0], before⟩) = _ := hc
  rw [hc'] at hf
  exact congrArg Host.Outcome.next hf

/-- Settles O53: every report is read off the state as it stands. -/
theorem reportingCommands : Obligations.ReportingCommands := by
  unfold Obligations.ReportingCommands
  intro b f marks age left result
  refine ⟨fun s dt before h => ?_, fun s dt before hp hi => ?_⟩
  · intro v answers
    have report (c : Nat → PanelRest → Instr) {α : Type} {code len : Nat} {parse : State → List Byte → Option α}
        {data : α → State → List Byte} {bytes : List Byte} {x : α} {shown : List Byte} (hl : bytes.length = len)
        (hn : len < 256) (hx : parse (s.taken dt code ⟨byteOf len :: bytes, before⟩) bytes = some x)
        (he : exec (c dt ⟨byteOf len :: bytes, before⟩) s = .next (panelCommand code len parse
          (fun x s => (Answer.done (data x s), s)) dt ⟨byteOf len :: bytes, before⟩ s))
        (hd : data x (s.taken dt code ⟨byteOf len :: bytes, before⟩) = shown) :
        answers c (byteOf len :: bytes) code shown := by
      show exec _ s = _
      rw [he, panelCommand_same h hl hn hx rfl, ← hd]
      rfl
    refine ⟨fun l => ?_, fun a h1 h2 => ?_, ?_, ?_, ?_, fun x hx => ?_, fun hn => ?_⟩
    · refine report (len := 1) (data := fun l s => lineData s l) .readDetector rfl (by decide)
        (lineOperand_byteOf _ l) rfl ?_
      show lineData _ l = _
      unfold lineData
      rw [signed2_eq]
      rfl
    · refine report (len := 1) (data := fun a s => peerData s a) .readPeer rfl (by decide)
        (addressOperand_byteOf _ h1 h2) rfl ?_
      show peerData _ a = _
      rw [peerData_eq]
      rfl
    · exact report (len := 0) (data := fun _ s => rosterData s) .readRoster rfl (by decide) rfl rfl rfl
    · refine report (len := 0) (data := fun _ s => outputsData s) .readOutputs rfl (by decide) rfl rfl ?_
      rfl
    · refine report (len := 0) (data := fun _ s => sourcesData s) .readSources rfl (by decide) rfl rfl ?_
      show sourcesData _ = _
      unfold sourcesData
      simp only [flatMap_num1]
      rfl
    · refine congrArg Host.Outcome.next (panelCommand_same (code := 16) (parse := noOperands) (act := latchTimes)
        (dt := dt) (before := before) (bytes := []) (x := ()) (a := { result := .done, flags := 1, data := [] }) h rfl
        (by decide) rfl ?_)
      have hx' : (s.taken dt 16 ⟨[byteOf 0], before⟩).port.snapshot = some x := hx
      unfold latchTimes
      rw [hx']
    · show Host.Outcome.next (panelCommand 16 0 noOperands latchTimes dt ⟨[0], before⟩ s) = _
      rw [latchTimes_none h dt before hn]
      rfl
  · refine ⟨_, exec_getStatus hp hi dt before, congrArg (s.answered [0] 1 0 0) ?_, rfl, rfl⟩
    have hd : statusData (s.taken dt 1 ⟨[0], before⟩) = statusData (s.elapse dt) := rfl
    rw [hd]
    simp only [statusData, suppressionSection, coincidenceSection, entrySection, postureSection, busSection,
      State.oldestWindow, reservationData, abortHeldFlag_eq, msLeft_eq, secLeft_eq, outputs_any]
    rfl
end Sys2Proof.Machine
end

section
/-! SUPPORT. The transmit queue under a frame of a kind that supersedes nothing, and what a change of the coincidence
list does to the list itself, the latch, the stage and the queue (chapters 3 and 4). -/

namespace Sys2Proof.Machine

/-! ## The queue -/

theorem length_le_places (q : List QueueEntry) : q.length ≤ places q := by
  unfold places
  omega

theorem places_le_length_add (q : List QueueEntry) : places q ≤ q.length + 2 := by
  unfold places
  split <;> split <;> omega

theorem places_placeEntry_le (e : QueueEntry) (q : List QueueEntry) : places (placeEntry e q) ≤ places q + 1 := by
  have hp := placeEntry_perm e q
  have fewer (b c : Bool) : (if b || c then 0 else 1) ≤ if c then 0 else 1 := by
    revert b c
    decide
  have h0 := fewer (e.frame.kind == 0) (q.any fun e => e.frame.kind == 0)
  have h6 := fewer (e.frame.kind == 6) (q.any fun e => e.frame.kind == 6)
  unfold places
  rw [hp.any_eq, hp.any_eq, hp.length_eq, List.any_cons, List.any_cons, List.length_cons]
  omega

/-- R172, R173: a frame that supersedes nothing enters a queue that has a place. -/
theorem enqueue_placed (f : Frame) (s : State) (hf : f.supersedes = false) (hl : s.bus.queue.length < 6) :
    (enqueue f s).bus.queue = placeEntry { frame := f, order := s.bus.nextOrder } s.bus.queue := by
  have hm (e : QueueEntry) : makePlace e s.bus.queue = (placeEntry e s.bus.queue, false) := if_pos hl
  simp [enqueue, hf, overrunIf_queue, hm]

/-- R173: there it takes one place more, and every entry stays. -/
theorem enqueue_enters (f : Frame) (s : State) (hf : f.supersedes = false) (hp : places s.bus.queue + 1 ≤ 6) :
    places (enqueue f s).bus.queue ≤ places s.bus.queue + 1 ∧ (∃ e ∈ (enqueue f s).bus.queue, e.frame = f) ∧
      ∀ e ∈ s.bus.queue, e ∈ (enqueue f s).bus.queue := by
  rw [enqueue_placed f s hf (by have := length_le_places s.bus.queue; omega)]
  refine ⟨places_placeEntry_le _ _, ⟨_, (placeEntry_perm _ _).mem_iff.mpr List.mem_cons_self, rfl⟩, fun e he => ?_⟩
  exact (placeEntry_perm _ _).mem_iff.mpr (List.mem_cons_of_mem _ he)

/-- R173: whatever the queue, the frame enters it alone. -/
theorem enqueue_adds (f : Frame) (s : State) (hf : f.supersedes = false) (e : QueueEntry)
    (he : e ∈ (enqueue f s).bus.queue) : e.frame = f ∨ e ∈ s.bus.queue := by
  unfold enqueue at he
  rw [hf, Bool.false_and, if_neg (by decide), overrunIf_queue] at he
  rcases makePlace_mem _ _ e he with rfl | h
  · exact .inl rfl
  · exact .inr h

/-- R173: a RELEASE_NOTICE or a STATUS has its place already. -/
theorem enqueue_places (f : Frame) (s : State) (hf : f.kind = 0 ∨ f.kind = 6) (hp : places s.bus.queue ≤ 6) :
    places (enqueue f s).bus.queue = places s.bus.queue := by
  have hs : f.supersedes = true := by
    unfold Frame.supersedes
    rcases hf with h | h <;> simp [h]
  unfold enqueue
  rw [hs, Bool.true_and]
  split
  · exact places_supersede _ _
  · next ha =>
    have ha : s.bus.queue.any (fun e => e.frame.kind == f.kind) = false := by simpa using ha
    have hl : s.bus.queue.length < Config.queueSize := by
      unfold places at hp
      unfold Config.queueSize
      rcases hf with h | h <;> rw [h] at ha <;> rw [ha] at hp <;> simp at hp <;> omega
    dsimp only
    rw [overrunIf_queue]
    simp only [makePlace, hl, if_true, State.setBus_bus]
    exact places_place _ _ hf ha

/-- R173: a frame that is neither a RELEASE_NOTICE nor a STATUS stays through what follows from an event. -/
theorem settle_stays (s : State) (hp : places s.bus.queue ≤ 6) (e : QueueEntry) (he : e ∈ s.bus.queue)
    (h0 : e.frame.kind ≠ 0) (h6 : e.frame.kind ≠ 6) : e ∈ (settle s).bus.queue := by
  unfold settle
  split
  · have h := entered_told s
    exact (settleLoop_told settleRounds (entered s)).stay (h.sent hp).1 e (h.stay hp e he h0) h6
  · exact he

/-! ## Notices and stages -/

/-- The Sequencer has moved and has told it by notices alone; the area occupancy is the one it was handed. -/
structure Notified (s t : State) : Prop where
  occupied : t.seq.occupied = s.seq.occupied
  told : Told 0 s.bus.queue t.bus.queue
  places : places s.bus.queue ≤ 6 → places t.bus.queue = places s.bus.queue

/-- The stage machine has moved; it never writes the coincidence list. -/
structure Advances (s t : State) : Prop extends Notified s t where
  list : t.seq.list = s.seq.list
  latch : t.seq.latch = s.seq.latch

theorem Notified.refl (s : State) : Notified s s := ⟨rfl, .refl 0 _, fun _ => rfl⟩

theorem Advances.refl (s : State) : Advances s s := ⟨.refl s, rfl, rfl⟩

theorem Notified.trans {s t u : State} (h : Notified s t) (k : Notified t u) : Notified s u where
  occupied := k.occupied.trans h.occupied
  told := h.told.trans k.told
  places hp := (k.places (by rw [h.places hp]; exact hp)).trans (h.places hp)

theorem Advances.trans {s t u : State} (h : Advances s t) (k : Advances t u) : Advances s u :=
  ⟨h.toNotified.trans k.toNotified, k.list.trans h.list, k.latch.trans h.latch⟩

theorem Notified.setSeq (s : State) (q : Sequencer) (h : q.occupied = s.seq.occupied := by rfl) :
    Notified s (s.setSeq q) := ⟨h, .refl 0 _, fun _ => rfl⟩

theorem Advances.setSeq (s : State) (q : Sequencer) (ho : q.occupied = s.seq.occupied := by rfl)
    (hl : q.list = s.seq.list := by rfl) (h : q.latch = s.seq.latch := by rfl) : Advances s (s.setSeq q) :=
  ⟨.setSeq s q ho, hl, h⟩

theorem sendNotice_seq (s : State) : (sendNotice s).seq =
    { s.seq with notice := if s.seq.stage.noticed then some (s.now + Config.noticeTime) else none } :=
  (enqueue_only _ _).seq_eq

theorem sendNotice_advances (s : State) : Advances s (sendNotice s) where
  occupied := by rw [sendNotice_seq]
  told := sendNotice_told s
  places := enqueue_places _ (s.setSeq { s.seq with
    notice := if s.seq.stage.noticed then some (s.now + Config.noticeTime) else none }) (.inl rfl)
  list := by rw [sendNotice_seq]
  latch := by rw [sendNotice_seq]

theorem enterStage_seq (st : Stage) (s : State) : (enterStage st s).seq = { s.seq with
    stage := st, countdown := none, frozen := 0
    notice := if st.noticed then some (s.now + Config.noticeTime) else none } := sendNotice_seq _

theorem enterStage_advances (st : Stage) (s : State) : Advances s (enterStage st s) :=
  (Advances.setSeq s _).trans (sendNotice_advances _)

theorem noticeFrame_congr {s t : State} (ha : t.seq.apart = s.seq.apart) (hi : t.image = s.image)
    (hn : t.now = s.now) : noticeFrame t = noticeFrame s := by
  have hs : t.seq.stage = s.seq.stage := (congrArg Sequencer.stage ha :)
  have hc : t.seq.countdown = s.seq.countdown := (congrArg Sequencer.countdown ha :)
  have hf : t.seq.frozen = s.seq.frozen := (congrArg Sequencer.frozen ha :)
  have hw : t.seq.flowConfirmed = s.seq.flowConfirmed := (congrArg Sequencer.flowConfirmed ha :)
  simp only [noticeFrame, State.ownRemaining, State.area, State.img, hs, hc, hf, hw, hi, hn]

/-- R69: the notice of a stage entered waits where there is a place. -/
theorem enterStage_notice (st : Stage) (s : State) (hp : places s.bus.queue ≤ 6) :
    ∃ e ∈ (enterStage st s).bus.queue, e.frame = noticeFrame (enterStage st s) := by
  have hq := (enqueue_told (noticeFrame (s.setSeq { s.seq with stage := st, countdown := none, frozen := 0 }))
    ((s.setSeq { s.seq with stage := st, countdown := none, frozen := 0 }).setSeq (enterStage st s).seq)
    (.inl rfl)).2 hp
  obtain ⟨e, he, hf⟩ := hq
  have ho := enterStage_only st s
  rw [enterStage_seq] at he
  refine ⟨e, he, hf.trans ?_⟩
  simp only [noticeFrame, State.ownRemaining, State.area, State.img, enterStage_seq, ho.image, ho.now]
  rfl

theorem energiseValve_advances (s : State) : Advances s (energiseValve s) := by
  unfold energiseValve
  dsimp only
  have h (u : State) : Advances u (trigger .discharge u) := by
    have hq := (trigger_only .discharge u (by decide)).seq_eq
    have hb := trigger_bus .discharge u (by decide) (by decide)
    exact ⟨⟨by rw [hq], .of_eq (by rw [hb]), fun _ => by rw [hb]⟩, by rw [hq], by rw [hq]⟩
  split
  · exact ((Advances.setSeq s _).trans (h _)).trans ((Advances.setSeq _ _).trans (sendNotice_advances _))
  · exact (Advances.setSeq s _).trans (h _)

theorem enterReleasing_advances (s : State) : Advances s (enterReleasing s) := by
  unfold enterReleasing
  dsimp only
  split
  · exact (enterStage_advances _ s).trans (energiseValve_advances _)
  · exact (enterStage_advances _ s).trans (.setSeq _ _)

theorem startCountdown_advances (r : Nat) (s : State) : Advances s (startCountdown r s) := by
  unfold startCountdown enterCountdown enterHeld
  split
  · split
    · exact enterReleasing_advances s
    · exact (Advances.setSeq s _).trans (sendNotice_advances _)
  · exact (Advances.setSeq s _).trans (sendNotice_advances _)

theorem coincidenceMet_advances (s : State) : Advances s (coincidenceMet s) := by
  unfold coincidenceMet
  split
  · split
    · exact enterStage_advances _ s
    · exact startCountdown_advances _ s
  · exact .refl s

/-! ## The list -/

theorem followList_advances (s : State) : Advances s (followList s) := by
  unfold followList
  split
  · exact enterStage_advances _ s
  · split
    · exact enterStage_advances _ s
    · exact .refl s

/-- R54: no other stage follows the list. -/
theorem followList_of_other {s : State} (hn : s.seq.stage ≠ .normal) (hf : s.seq.stage ≠ .firstAlarm) :
    followList s = s := by
  simp [followList, hn, hf]

theorem followList_normal {s : State} (h : s.seq.stage = .normal) (hl : s.seq.list ≠ []) :
    followList s = enterStage .firstAlarm s := if_pos ⟨h, hl⟩

theorem followList_emptied {s : State} (h : s.seq.stage = .firstAlarm) (hl : s.seq.list = []) :
    followList s = enterStage .normal s := by
  simp [followList, h, hl]

theorem followList_firstAlarm {s : State} (h : s.seq.stage = .firstAlarm) (hl : s.seq.list ≠ []) : followList s = s := by
  simp [followList, h, hl]

theorem listChanged_notified (s : State) : Notified s (listChanged s) := by
  unfold listChanged
  split
  · split
    · exact ((Notified.setSeq s _).trans (coincidenceMet_advances _).toNotified).trans (followList_advances _).toNotified
    · exact (followList_advances s).toNotified
  · exact .refl s

/-- R48: only a release station follows its list. -/
theorem listChanged_of_role {s : State} (h : s.role ≠ .release) : listChanged s = s := if_neg h

/-- R45: coincidence is not met: it was before, the stage is ISOLATED, or the list is of one group. -/
def State.NoMeeting (s : State) : Prop :=
  s.seq.latch = true ∨ s.seq.stage = .isolated ∨ ∀ e ∈ s.seq.list, ∀ x ∈ s.seq.list, e.group = x.group

theorem coincidencePresent_iff (list : List Detection) :
    coincidencePresent list = true ↔ ∃ e ∈ list, ∃ x ∈ list, e.group ≠ x.group := by
  unfold coincidencePresent groupPresent
  rw [Bool.and_eq_true, List.any_eq_true, List.any_eq_true]
  constructor
  · rintro ⟨⟨e, he, h1⟩, ⟨x, hx, h2⟩⟩
    rw [beq_iff_eq] at h1 h2
    exact ⟨e, he, x, hx, by rw [h1, h2]; decide⟩
  · rintro ⟨e, he, x, hx, h⟩
    cases h1 : e.group <;> cases h2 : x.group
    · exact absurd (h1.trans h2.symm) h
    · exact ⟨⟨e, he, by rw [h1]; rfl⟩, ⟨x, hx, by rw [h2]; rfl⟩⟩
    · exact ⟨⟨x, hx, by rw [h2]; rfl⟩, ⟨e, he, by rw [h1]; rfl⟩⟩
    · exact absurd (h1.trans h2.symm) h

theorem listChanged_of_noMeeting {s : State} (hr : s.role = .release) (h : s.NoMeeting) :
    listChanged s = followList s := by
  unfold listChanged
  rw [if_pos hr, if_neg]
  rintro ⟨hc, hl, hi⟩
  obtain ⟨e, he, x, hx, hg⟩ := (coincidencePresent_iff _).mp hc
  rcases h with h | h | h
  · exact absurd (h.symm.trans hl) (by decide)
  · exact hi h
  · exact hg (h e he x hx)

/-! ## What follows -/

/-- R28, R56: the area occupancy never writes the coincidence list. -/
theorem evalOccupancy_list (s : State) :
    (evalOccupancy s).seq.list = s.seq.list ∧ (evalOccupancy s).seq.latch = s.seq.latch := by
  unfold evalOccupancy
  dsimp only
  split
  · exact ⟨rfl, rfl⟩
  · split
    · have h := startCountdown_advances (Config.sec (s.setSeq { s.seq with occupied := s.areaOccupied }).img.tpd)
        (s.setSeq { s.seq with occupied := s.areaOccupied })
      exact ⟨h.list, h.latch⟩
    · exact ⟨rfl, rfl⟩

theorem settle_list (s : State) : (settle s).seq.list = s.seq.list ∧ (settle s).seq.latch = s.seq.latch := by
  cases hr : s.running
  · rw [settle_of_stopped s hr]
    exact ⟨rfl, rfl⟩
  · obtain ⟨ha, -⟩ := settle_seq s hr
    obtain ⟨hl, hc⟩ := evalOccupancy_list s
    exact ⟨(congrArg Sequencer.list ha).trans hl, (congrArg Sequencer.latch ha).trans hc⟩

/-- R69: a notice that waits stays and says what the state is, while INHIBITED does not end. -/
theorem settle_notice (s : State) (hc : s.NoStart) (hp : places s.bus.queue ≤ 6)
    (h : ∃ e ∈ s.bus.queue, e.frame = noticeFrame s) : NoticeWaits (settle s) := by
  obtain ⟨e, he, hf⟩ := h
  have ha := settle_after s
  refine noticeWaits_of _ ⟨e, settle_others s hc hp e he (by rw [hf]; exact (by decide : 0 ≠ 6)), ?_⟩
  rw [hf, noticeFrame_congr (ha.seq hc) ha.handed.image ha.handed.now]

end Sys2Proof.Machine
end

section
/-! SUPPORT. A line that becomes ALARM, from the falling edge to what is handed on (R16), and the start of the sequence
at a release station (R45, R46, R54, R55). -/

namespace Sys2Proof.Machine

/-! ## The stage that coincidence starts -/

theorem startCountdown_runs {r : Nat} {s : State} (ha : s.seq.abortSet = []) (hr : r ≠ 0) :
    (startCountdown r s).seq.stage = .countdown ∧ (startCountdown r s).seq.countdown = some (s.now + r) := by
  simp [startCountdown, enterCountdown, ha, hr, sendNotice_seq]

theorem startCountdown_expires {s : State} (ha : s.seq.abortSet = []) :
    (startCountdown 0 s).seq.stage = .releasing := by
  simp [startCountdown, enterCountdown, ha, enterReleasing_stage]

theorem startCountdown_holds {r : Nat} {s : State} (ha : s.seq.abortSet ≠ []) :
    (startCountdown r s).seq.stage = .held ∧ (startCountdown r s).seq.frozen = r := by
  simp [startCountdown, enterHeld, ha, sendNotice_seq]

/-- R45, R46, R55: coincidence is met at a release station in NORMAL or FIRST_ALARM. -/
theorem listChanged_of_meeting {s : State} (hr : s.role = .release) (hb : s.seq.stage = .normal ∨ s.seq.stage = .firstAlarm)
    (hl : s.seq.latch = false) (hc : ∃ e ∈ s.seq.list, ∃ x ∈ s.seq.list, e.group ≠ x.group) :
    listChanged s = if s.seq.occupied then enterStage .inhibited (latchList s)
      else startCountdown (Config.sec s.img.tpd) (latchList s) := by
  have hi : s.seq.stage ≠ .isolated := by rcases hb with h | h <;> rw [h] <;> decide
  have hm : coincidenceMet (latchList s) = if s.seq.occupied then enterStage .inhibited (latchList s)
      else startCountdown (Config.sec s.img.tpd) (latchList s) := if_pos hb
  have hs : 3 ≤ (coincidenceMet (latchList s)).seq.stage.ordinal := by
    rw [hm]
    split
    · rw [enterStage_stage]
      decide
    · exact startCountdown_stage _ _
  unfold listChanged
  rw [if_pos hr, if_pos ⟨(coincidencePresent_iff _).mpr hc, hl, hi⟩, followList_of_other, hm]
  · intro h
    rw [h] at hs
    exact absurd hs (by decide)
  · intro h
    rw [h] at hs
    exact absurd hs (by decide)

/-- R46: what has begun the sequence stands in the list as consumed, and the latch is set. -/
theorem listChanged_of_meeting_list {s : State} (hr : s.role = .release)
    (hb : s.seq.stage = .normal ∨ s.seq.stage = .firstAlarm) (hl : s.seq.latch = false)
    (hc : ∃ e ∈ s.seq.list, ∃ x ∈ s.seq.list, e.group ≠ x.group) :
    (listChanged s).seq.latch = true ∧ (listChanged s).seq.list = s.seq.list.map Detection.consume := by
  rw [listChanged_of_meeting hr hb hl hc]
  split
  · exact ⟨(enterStage_advances _ _).latch, (enterStage_advances _ _).list⟩
  · exact ⟨(startCountdown_advances _ _).latch, (startCountdown_advances _ _).list⟩

/-! ## A line becomes ALARM -/

/-- R16: a falling edge that brings a line to ALARM. -/
theorem exec_newAlarm {s t : State} {dt : Nat} {l : Fin 4} (h : exec (.detectorFallingEdge dt l) s = .next t)
    (hn : (s.line l).stage ≠ .alarm) (ha : (t.line l).stage = .alarm) :
    ∃ y, t = settle (alarmEntered l ((s.edged dt l false).setLine l y)) ∧ (t.line l).level = y.level := by
  have ht : t = fallingEdge l (s.elapse dt) := by
    injection h with e
    exact e.symm
  unfold fallingEdge at ht
  split at ht
  · split at ht
    · obtain ⟨⟨e, hl⟩, -⟩ := settle_putLine l ((s.line l).falling (s.lineCfg l) (s.now + dt)) (s.edged dt l false)
      have ht : t = settle (putLine l ((s.line l).falling (s.lineCfg l) (s.now + dt)) (s.edged dt l false)) := ht
      rw [← ht] at hl
      rw [hl] at ha
      refine ⟨_, ht.trans (congrArg settle (if_pos ⟨hn, ha⟩)), by rw [hl]⟩
    · rw [ht] at ha
      exact absurd ha hn
  · rw [ht] at ha
    exact absurd ha hn

/-- R38, R40: a line that has no entry joins a list that has room, and the list's followers are told. -/
theorem alarmEntered_eq {l : Fin 4} {v : State} (hr : v.role ≠ .noArea)
    (hn : ∀ e ∈ v.seq.list, ¬(e.station = v.address ∧ e.line = l)) (hl : v.seq.list.length < 8) :
    alarmEntered l v = enqueue (detectFrameOf v l true)
      (listChanged (v.setSeq { v.seq with list := v.seq.list ++ [newDetection v v.address l (v.lineCfg l).group] })) := by
  have hf : v.seq.list.find? (fun e => e.names v.address l) = none := by
    rw [List.find?_eq_none]
    intro e he
    simpa [Detection.names] using hn e he
  have hm : makeRoom v.seq.list = some v.seq.list := if_pos hl
  unfold alarmEntered detect
  rw [if_neg hr, if_neg hr, hf]
  simp only [hm]

/-! ## The list has changed, a frame is queued, and the event is settled -/

section
variable {w : State} (f : Frame)

theorem listChanged_calm (calm : w.areaOccupied = w.seq.occupied) :
    (enqueue f (listChanged w)).areaOccupied = (enqueue f (listChanged w)).seq.occupied := by
  have hq := enqueue_only f (listChanged w)
  rw [hq.toHanded.areaOccupied, hq.seq_eq, (listChanged_only w).toHanded.areaOccupied, (listChanged_notified w).occupied]
  exact calm

theorem settle_listChanged_apart (calm : w.areaOccupied = w.seq.occupied) :
    (settle (enqueue f (listChanged w))).seq.apart = (listChanged w).seq.apart := by
  rw [← (enqueue_only f (listChanged w)).seq_eq]
  exact ((settle_after _).calm (.inr (listChanged_calm f calm))).1

theorem listChanged_room (hl : w.bus.queue.length ≤ 3) : places (listChanged w).bus.queue + 1 ≤ 6 := by
  have h := places_le_length_add w.bus.queue
  have := (listChanged_notified w).places (by omega)
  omega

theorem supersedes_of_detect {f : Frame} (hf : f.kind = 3) : f.supersedes = false := by
  unfold Frame.supersedes
  rw [hf]
  rfl

theorem settle_listChanged_frame (hf : f.kind = 3) (hl : w.bus.queue.length ≤ 3) :
    ∃ e ∈ (settle (enqueue f (listChanged w))).bus.queue, e.frame = f := by
  obtain ⟨hp, ⟨e, he, h⟩, -⟩ := enqueue_enters f (listChanged w) (supersedes_of_detect hf) (listChanged_room hl)
  exact ⟨e, settle_stays _ (hp.trans (listChanged_room hl)) e he (by rw [h, hf]; decide) (by rw [h, hf]; decide), h⟩

theorem settle_listChanged_notice (hf : f.kind = 3) (calm : w.areaOccupied = w.seq.occupied)
    (hl : w.bus.queue.length ≤ 3)
    (hn : ∃ e ∈ (listChanged w).bus.queue, e.frame = noticeFrame (listChanged w)) :
    NoticeWaits (settle (enqueue f (listChanged w))) := by
  obtain ⟨hp, -, hk⟩ := enqueue_enters f (listChanged w) (supersedes_of_detect hf) (listChanged_room hl)
  have hq := enqueue_only f (listChanged w)
  obtain ⟨e, he, h⟩ := hn
  refine settle_notice _ (.inr (.inr (.inr (listChanged_calm f calm)))) (hp.trans (listChanged_room hl)) ⟨e, hk e he, ?_⟩
  rw [h, noticeFrame_congr (by rw [hq.seq_eq]) hq.image hq.now]

/-- R49, R54: a list of one group that has grown in NORMAL or FIRST_ALARM. -/
theorem settle_listChanged_oneGroup (hf : f.kind = 3) (calm : w.areaOccupied = w.seq.occupied) (hr : w.role = .release)
    (hb : w.seq.stage = .normal ∨ w.seq.stage = .firstAlarm) (hl : w.seq.list ≠ [])
    (hg : ∀ e ∈ w.seq.list, ∀ x ∈ w.seq.list, e.group = x.group) :
    let t := settle (enqueue f (listChanged w))
    t.seq.list = w.seq.list ∧ t.seq.latch = w.seq.latch ∧ t.seq.stage = .firstAlarm ∧
      (w.seq.stage = .normal → w.bus.queue.length ≤ 3 → NoticeWaits t) := by
  intro t
  have hc := listChanged_of_noMeeting hr (.inr (.inr hg))
  have ha : t.seq.apart = (followList w).seq.apart := hc ▸ settle_listChanged_apart f calm
  have hadv := followList_advances w
  refine ⟨(congrArg Sequencer.list ha :).trans hadv.list, (congrArg Sequencer.latch ha :).trans hadv.latch,
    (congrArg Sequencer.stage ha :).trans ?_, fun hn hq => settle_listChanged_notice f hf calm hq ?_⟩
  · show (followList w).seq.stage = .firstAlarm
    rcases hb with h | h
    · rw [followList_normal h hl, enterStage_stage]
    · rw [followList_firstAlarm h hl, h]
  · rw [hc, followList_normal hn hl]
    exact enterStage_notice _ _ (places_le _ (by omega))

/-- R45, R46, R55: coincidence is met. -/
theorem settle_listChanged_meeting (calm : w.areaOccupied = w.seq.occupied) (hr : w.role = .release)
    (hb : w.seq.stage = .normal ∨ w.seq.stage = .firstAlarm) (hl : w.seq.latch = false)
    (hg : ∃ e ∈ w.seq.list, ∃ x ∈ w.seq.list, e.group ≠ x.group) :
    let t := settle (enqueue f (listChanged w))
    t.seq.latch = true ∧ t.seq.list = w.seq.list.map Detection.consume ∧
      (w.areaOccupied = true → t.seq.stage = .inhibited) ∧
      (w.areaOccupied = false → w.seq.abortSet = [] → w.img.tpd ≠ 0 →
        t.seq.stage = .countdown ∧ t.seq.countdown = some (w.now + w.img.tpd * 1000000)) ∧
      (w.areaOccupied = false → w.seq.abortSet = [] → w.img.tpd = 0 → t.seq.stage = .releasing) ∧
      (w.areaOccupied = false → w.seq.abortSet ≠ [] →
        t.seq.stage = .held ∧ t.seq.frozen = w.img.tpd * 1000000) := by
  intro t
  have ha : t.seq.apart = (listChanged w).seq.apart := settle_listChanged_apart f calm
  have hc := listChanged_of_meeting hr hb hl hg
  obtain ⟨hlatch, hlist⟩ := listChanged_of_meeting_list hr hb hl hg
  have clear (h : w.areaOccupied = false) :
      t.seq.apart = (startCountdown (Config.sec w.img.tpd) (latchList w)).seq.apart := by
    rw [ha, hc, if_neg (by rw [← calm, h]; decide)]
  refine ⟨(congrArg Sequencer.latch ha :).trans hlatch, (congrArg Sequencer.list ha :).trans hlist, fun ho => ?_,
    fun ho hab ht => ?_, fun ho hab ht => ?_, fun ho hab => ?_⟩
  · rw [hc, if_pos (calm ▸ ho)] at ha
    exact (congrArg Sequencer.stage ha :).trans (enterStage_stage _ _)
  · obtain ⟨h1, h2⟩ := startCountdown_runs (r := Config.sec w.img.tpd) (s := latchList w) hab
      (by unfold Config.sec; omega)
    exact ⟨(congrArg Sequencer.stage (clear ho) :).trans h1, (congrArg Sequencer.countdown (clear ho) :).trans h2⟩
  · have h := startCountdown_expires (s := latchList w) hab
    have hz : Config.sec w.img.tpd = 0 := by rw [ht]; rfl
    exact (congrArg Sequencer.stage (clear ho) :).trans (hz ▸ h)
  · obtain ⟨h1, h2⟩ := startCountdown_holds (r := Config.sec w.img.tpd) (s := latchList w) hab
    exact ⟨(congrArg Sequencer.stage (clear ho) :).trans h1, (congrArg Sequencer.frozen (clear ho) :).trans h2⟩

end

/-- The line has its new state, and its detection has joined the list. -/
def State.joined (s : State) (dt : Nat) (l : Fin 4) (y : Line) (new : Detection) : State :=
  ((s.edged dt l false).setLine l y).setSeq { s.seq with list := s.seq.list ++ [new] }

/-- Settles O10: `alarmEntered` hands on the list with the new entry, which `listChanged` follows case by case. -/
theorem newAlarmIsHandedOn : Obligations.NewAlarmIsHandedOn := by
  unfold Obligations.NewAlarmIsHandedOn
  intro s t dt l h hn ha
  obtain ⟨y, rfl, hy⟩ := exec_newAlarm h hn ha
  refine ⟨fun hr => ?_, fun hr hnew hlen hcalm => ?_⟩
  · have he : alarmEntered l ((s.edged dt l false).setLine l y) = (s.edged dt l false).setLine l y := if_pos hr
    rw [he]
    exact ⟨(settle_list _).1, fun e he hk =>
      settle_noMore ((s.edged dt l false).setLine l y) e he (by rw [hk]; decide) (by rw [hk]; decide)⟩
  intro g new begun
  have he : alarmEntered l ((s.edged dt l false).setLine l y) =
      enqueue (.detect (BitVec.ofNat 4 s.area) l (byteOf g.num) true (byteOf y.level))
        (listChanged (s.joined dt l y new)) := by
    rw [alarmEntered_eq (l := l) (v := (s.edged dt l false).setLine l y) hr hnew hlen]
    unfold detectFrameOf
    rw [State.setLine_line, if_pos rfl]
    rfl
  have calm : (s.joined dt l y new).areaOccupied = (s.joined dt l y new).seq.occupied := hcalm
  rw [hy, he]
  have nonempty : (s.joined dt l y new).seq.list ≠ [] := List.append_ne_nil_of_right_ne_nil _ (List.cons_ne_nil _ _)
  refine ⟨fun hl => settle_listChanged_frame _ rfl hl, fun hm => ?_, fun hm hi => ?_, fun hm hb hg => ?_,
    fun hm hb hlatch hg => ?_⟩
  · have hr' : (s.joined dt l y new).role ≠ .release := by
      show s.role ≠ _
      rw [hm]
      decide
    rw [settle_listChanged_apart _ calm, listChanged_of_role hr']
    rfl
  · have hw : listChanged (s.joined dt l y new) = s.joined dt l y new := by
      rw [listChanged_of_noMeeting (s := s.joined dt l y new) hm (hi.symm.imp And.left .inl)]
      rcases hi with hi | ⟨-, hi⟩
      · exact followList_of_other (s := s.joined dt l y new) (fun h => absurd (hi.symm.trans h) (by decide))
          fun h => absurd (hi.symm.trans h) (by decide)
      · exact (if_neg fun h => hi h.1).trans (if_neg fun h => nonempty h.2)
    rw [settle_listChanged_apart _ calm, hw]
    rfl
  · have hgroup : ∀ e ∈ s.seq.list ++ [new], e.group = g := fun e he =>
      (List.mem_append.mp he).elim (hg e) fun h => by rw [List.mem_singleton.mp h]
    exact settle_listChanged_oneGroup _ rfl calm hm hb nonempty fun e he x hx => (hgroup e he).trans (hgroup x hx).symm
  · obtain ⟨e, he, hne⟩ := hg
    exact settle_listChanged_meeting _ calm hm hb hlatch
      ⟨e, List.mem_append_left _ he, new, List.mem_append_right _ List.mem_cons_self, hne⟩

end Sys2Proof.Machine
end

section
/-! SUPPORT. RESET_DETECTION (R18 to R20): what the reset of one line after the other makes of the lines, the coincidence
list, the stage and the queue. -/

namespace Sys2Proof.Machine

/-! ## An entry leaves the list (R43) -/

/-- R43: the list without the unconsumed entry of a station and line. -/
def State.listWithout (s : State) (a : Nat) (l : Fin 4) : List Detection :=
  s.seq.list.filter (fun e => !(e.names a l && !e.consumed))

theorem dropDetection_absent {a : Nat} {l : Fin 4} {s : State} (h : s.listWithout a l = s.seq.list) :
    dropDetection a l s = s := by
  refine if_neg fun hany => ?_
  obtain ⟨e, he, hp⟩ := List.any_eq_true.mp hany
  have := List.filter_eq_self.mp h e he
  rw [hp] at this
  exact absurd this (by decide)

theorem dropDetection_present {a : Nat} {l : Fin 4} {s : State} (h : s.listWithout a l ≠ s.seq.list) :
    dropDetection a l s = listChanged (s.setSeq { s.seq with list := s.listWithout a l }) := by
  refine if_pos (List.any_eq_true.mpr ?_)
  by_contra hno
  refine h (List.filter_eq_self.mpr fun e he => ?_)
  rw [Bool.not_eq_true']
  exact Bool.eq_false_iff.mpr fun hp => hno ⟨e, he, hp⟩

theorem dropDetection_notified (a : Nat) (l : Fin 4) (s : State) : Notified s (dropDetection a l s) := by
  by_cases h : s.listWithout a l = s.seq.list
  · rw [dropDetection_absent h]
    exact .refl s
  · rw [dropDetection_present h]
    exact (Notified.setSeq s _).trans (listChanged_notified _)

theorem dropDetection_member {a : Nat} {l : Fin 4} {s : State} (hr : s.role = .member) :
    (dropDetection a l s).seq.list = s.listWithout a l := by
  by_cases h : s.listWithout a l = s.seq.list
  · rw [dropDetection_absent h, h]
  · have hr' : (s.setSeq { s.seq with list := s.listWithout a l }).role ≠ .release := by
      show s.role ≠ _
      rw [hr]
      decide
    rw [dropDetection_present h, listChanged_of_role hr']
    rfl

/-- R45: coincidence is not met by a list that gets shorter. -/
theorem State.NoMeeting.shorter {s u : State} (h : s.NoMeeting) (hl : u.seq.latch = s.seq.latch)
    (hi : s.seq.stage = .isolated → u.seq.stage = .isolated) (hs : u.seq.list ⊆ s.seq.list) : u.NoMeeting :=
  h.imp (hl.trans ·) (Or.imp hi fun hg e he x hx => hg e (hs he) x (hs hx))

theorem dropDetection_release {a : Nat} {l : Fin 4} {s : State} (hr : s.role = .release) (hn : s.NoMeeting)
    (h : s.listWithout a l ≠ s.seq.list) :
    dropDetection a l s = followList (s.setSeq { s.seq with list := s.listWithout a l }) := by
  rw [dropDetection_present h]
  exact listChanged_of_noMeeting hr (hn.shorter (u := s.setSeq { s.seq with list := s.listWithout a l }) rfl id
    (List.filter_subset_self _))

theorem dropDetection_list {a : Nat} {l : Fin 4} {s : State} (hr : s.role = .release) (hn : s.NoMeeting) :
    (dropDetection a l s).seq.list = s.listWithout a l ∧ (dropDetection a l s).seq.latch = s.seq.latch := by
  by_cases h : s.listWithout a l = s.seq.list
  · rw [dropDetection_absent h, h]
    exact ⟨rfl, rfl⟩
  · rw [dropDetection_release hr hn h]
    have k := followList_advances (s.setSeq { s.seq with list := s.listWithout a l })
    exact ⟨k.list, k.latch⟩

/-- R54: FIRST_ALARM ends as the last entry leaves. -/
theorem dropDetection_last {a : Nat} {l : Fin 4} {s : State} (hr : s.role = .release) (hn : s.NoMeeting)
    (hf : s.seq.stage = .firstAlarm) (he : s.listWithout a l = []) (hl : s.seq.list ≠ []) :
    dropDetection a l s = enterStage .normal (s.setSeq { s.seq with list := s.listWithout a l }) := by
  rw [dropDetection_release hr hn (fun h => hl (h ▸ he))]
  exact followList_emptied hf he

theorem dropDetection_firstAlarm {a : Nat} {l : Fin 4} {s : State} (hr : s.role = .release) (hn : s.NoMeeting)
    (hf : s.seq.stage = .firstAlarm) :
    (dropDetection a l s).seq.stage = if s.listWithout a l = [] ∧ s.seq.list ≠ [] then .normal else .firstAlarm := by
  split
  · next h => rw [dropDetection_last hr hn hf h.1 h.2, enterStage_stage]
  · next h =>
    by_cases hd : s.listWithout a l = s.seq.list
    · rw [dropDetection_absent hd, hf]
    · have hl : s.seq.list ≠ [] := fun hl => hd (by rw [State.listWithout, hl]; rfl)
      have hk : s.listWithout a l ≠ [] := fun he => h ⟨he, hl⟩
      rw [dropDetection_release hr hn hd, followList_firstAlarm (by exact hf) (by exact hk)]
      exact hf

theorem dropDetection_other {a : Nat} {l : Fin 4} {s : State} (hr : s.role = .release) (hn : s.NoMeeting)
    (hf : s.seq.stage ≠ .firstAlarm) (hx : s.seq.stage ≠ .normal) :
    (dropDetection a l s).seq.stage = s.seq.stage := by
  by_cases hd : s.listWithout a l = s.seq.list
  · rw [dropDetection_absent hd]
  · rw [dropDetection_release hr hn hd, followList_of_other (by exact hx) (by exact hf)]
    rfl

/-! ## What a withdrawal leaves of the Sequencer

`s` is the state before the withdrawals, `rest` what is left of its list, and `u` the state after them. -/

/-- R43, R54: the list, and at a release station whose coincidence is not met the latch and the stage. -/
structure Left (s : State) (rest : List Detection) (u : State) : Prop where
  occupied : u.seq.occupied = s.seq.occupied
  member : s.role = .member → u.seq.list = rest
  list : s.role = .release → s.NoMeeting → u.seq.list = rest ∧ u.seq.latch = s.seq.latch
  firstAlarm : s.role = .release → s.NoMeeting → s.seq.stage = .firstAlarm →
    u.seq.stage = if rest = [] ∧ s.seq.list ≠ [] then .normal else .firstAlarm
  other : s.role = .release → s.NoMeeting → s.seq.stage ≠ .firstAlarm → s.seq.stage ≠ .normal →
    u.seq.stage = s.seq.stage

theorem Left.refl (s : State) : Left s s.seq.list s :=
  ⟨rfl, fun _ => rfl, fun _ _ => ⟨rfl, rfl⟩, fun _ _ h => by rw [if_neg (fun ⟨h1, h2⟩ => h2 h1), h], fun _ _ _ _ => rfl⟩

theorem Left.noMeeting {s u : State} {rest : List Detection} (h : Left s rest u) (hr : s.role = .release)
    (hn : s.NoMeeting) (hs : rest ⊆ s.seq.list) : u.NoMeeting := by
  obtain ⟨hl, hc⟩ := h.list hr hn
  refine hn.shorter hc (fun hi => ?_) (hl ▸ hs)
  rw [h.other hr hn (by rw [hi]; decide) (by rw [hi]; decide), hi]

/-- The next withdrawal. -/
theorem Left.drop {s u : State} {rest : List Detection} (h : Left s rest u) (hrole : u.role = s.role)
    (hs : rest ⊆ s.seq.list) (a : Nat) (l : Fin 4) :
    Left s (rest.filter (fun e => !(e.names a l && !e.consumed))) (dropDetection a l u) where
  occupied := (dropDetection_notified a l u).occupied.trans h.occupied
  member hm := by rw [dropDetection_member (hrole.trans hm), State.listWithout, h.member hm]
  list hr hn := by
    obtain ⟨hl, hc⟩ := h.list hr hn
    obtain ⟨hl', hc'⟩ := dropDetection_list (a := a) (l := l) (hrole.trans hr) (h.noMeeting hr hn hs)
    exact ⟨by rw [hl', State.listWithout, hl], hc'.trans hc⟩
  firstAlarm hr hn hf := by
    obtain ⟨hl, -⟩ := h.list hr hn
    have hst := h.firstAlarm hr hn hf
    by_cases he : rest = [] ∧ s.seq.list ≠ []
    · rw [if_pos he] at hst
      have hnil : u.seq.list = [] := hl.trans he.1
      rw [dropDetection_absent (by rw [State.listWithout, hnil]; rfl), hst, if_pos ⟨by rw [he.1]; rfl, he.2⟩]
    · rw [if_neg he] at hst
      rw [dropDetection_firstAlarm (hrole.trans hr) (h.noMeeting hr hn hs) hst, State.listWithout, hl]
      refine if_congr (and_congr_right fun hf => ⟨fun hr hn => hr ?_, fun hn hr => he ⟨hr, hn⟩⟩) rfl rfl
      exact List.subset_nil.mp (hn ▸ hs)
  other hr hn hf hx := by
    have hst := h.other hr hn hf hx
    rw [dropDetection_other (hrole.trans hr) (h.noMeeting hr hn hs) (hst ▸ hf) (hst ▸ hx), hst]

/-- R69: the notice that ends FIRST_ALARM waits from the withdrawal of the last entry on. -/
theorem Left.drop_notice {s u : State} {rest : List Detection} (h : Left s rest u) (hrole : u.role = s.role)
    (hs : rest ⊆ s.seq.list) {a : Nat} {l : Fin 4} (hr : s.role = .release) (hn : s.NoMeeting)
    (hf : s.seq.stage = .firstAlarm) (he : rest.filter (fun e => !(e.names a l && !e.consumed)) = [])
    (hp : places u.bus.queue ≤ 6) (hw : rest = [] → ∃ e ∈ u.bus.queue, e.frame = noticeFrame u) :
    ∃ e ∈ (dropDetection a l u).bus.queue, e.frame = noticeFrame (dropDetection a l u) := by
  obtain ⟨hl, -⟩ := h.list hr hn
  by_cases hnil : rest = []
  · rw [dropDetection_absent (by rw [State.listWithout, hl, hnil]; rfl)]
    exact hw hnil
  · have hst := h.firstAlarm hr hn hf
    rw [if_neg (fun h => hnil h.1)] at hst
    rw [dropDetection_last (hrole.trans hr) (h.noMeeting hr hn hs) hst (by rw [State.listWithout, hl, he])
      (by rwa [hl])]
    exact enterStage_notice _ _ hp

/-! ## Lines that have been reset

`s` is the state before the command, `R` the lines reset so far, and `u` the state after them. -/

/-- R20: the DETECT frame of a line's reset. -/
def State.withdrawal (s : State) (l : Fin 4) : Frame :=
  .detect (BitVec.ofNat 4 s.area) l (byteOf (s.lineCfg l).group.num) false (byteOf (s.line l).level)

/-- R20, R43: the list without the unconsumed entries of own lines. -/
def State.listLess (s : State) (R : Fin 4 → Bool) : List Detection :=
  s.seq.list.filter (fun e => !(e.station == s.address && R e.line && !e.consumed))

/-- R20, R69: what waits in the queue, which had places for `n` frames. -/
structure Waits (s : State) (R : Fin 4 → Bool) (n : Nat) (u : State) : Prop where
  places : places u.bus.queue ≤ places s.bus.queue + n
  frames : ∀ l, R l = true → s.role ≠ .noArea → ∃ e ∈ u.bus.queue, e.frame = s.withdrawal l
  notice : s.role = .release → s.NoMeeting → s.seq.stage = .firstAlarm → s.seq.list ≠ [] → s.listLess R = [] →
    ∃ e ∈ u.bus.queue, e.frame = noticeFrame u

/-- R18 to R20: the resets of lines. -/
structure Released (s : State) (R : Fin 4 → Bool) (n : Nat) (u : State) : Prop where
  image : u.image = s.image
  peers : u.peers = s.peers
  roster : u.roster = s.roster
  posture : u.posture = s.posture
  port : u.port = s.port
  lines : ∀ k, u.line k = if R k then (s.line k).resetAlarm (s.lineCfg k) else s.line k
  stays : s.role = .noArea → u.seq = s.seq ∧ u.bus = s.bus
  left : s.role ≠ .noArea → Left s (s.listLess R) u
  noMore : ∀ e ∈ u.bus.queue, e.frame.kind = 3 →
    e ∈ s.bus.queue ∨ s.role ≠ .noArea ∧ ∃ l, R l = true ∧ e.frame = s.withdrawal l
  waits : places s.bus.queue + n ≤ 6 → Waits s R n u

theorem listLess_none (s : State) : s.listLess (fun _ => false) = s.seq.list := by
  simp [State.listLess]

theorem listLess_or (s : State) (R : Fin 4 → Bool) (l : Fin 4) : s.listLess (fun k => R k || k == l) =
    (s.listLess R).filter (fun e => !(e.names s.address l && !e.consumed)) := by
  unfold State.listLess
  rw [List.filter_filter]
  refine congrArg (List.filter · s.seq.list) (funext fun e => ?_)
  unfold Detection.names
  dsimp only
  cases e.station == s.address <;> cases R e.line <;> cases e.line == l <;> cases e.consumed <;> rfl

theorem Released.refl (s : State) : Released s (fun _ => false) 0 s where
  image := rfl
  peers := rfl
  roster := rfl
  posture := rfl
  port := rfl
  lines _ := rfl
  stays _ := ⟨rfl, rfl⟩
  left _ := by
    rw [listLess_none]
    exact .refl s
  noMore _ he _ := .inl he
  waits _ := ⟨le_rfl, fun _ h => absurd h (by decide), fun _ _ _ hl h => absurd (listLess_none s ▸ h) hl⟩

theorem Released.role {s u : State} {R : Fin 4 → Bool} {n : Nat} (h : Released s R n u) : u.role = s.role := by
  simp only [State.role, State.img, h.image]

theorem Released.address {s u : State} {R : Fin 4 → Bool} {n : Nat} (h : Released s R n u) : u.address = s.address := by
  simp only [State.address, State.img, h.image]

theorem Released.lineCfg {s u : State} {R : Fin 4 → Bool} {n : Nat} (h : Released s R n u) (l : Fin 4) :
    u.lineCfg l = s.lineCfg l := by
  simp only [State.lineCfg, State.img, h.image]

theorem Released.line_of_not {s u : State} {R : Fin 4 → Bool} {n : Nat} (h : Released s R n u) {l : Fin 4}
    (hl : R l = false) : u.line l = s.line l := by
  rw [h.lines, hl]
  rfl

/-- R18: a line has been reset, and nothing has been handed on yet. -/
def State.lineReset (u : State) (l : Fin 4) : State := u.setLine l ((u.line l).resetAlarm (u.lineCfg l))

/-- R20: the frame that the next reset sends. -/
theorem Released.frame {s u : State} {R : Fin 4 → Bool} {n : Nat} (h : Released s R n u) {l : Fin 4}
    (hl : R l = false) :
    detectFrameOf (u.lineReset l) l false = s.withdrawal l := by
  unfold detectFrameOf State.withdrawal State.lineReset
  rw [State.setLine_line, if_pos rfl, ← h.lineCfg l, ← h.line_of_not hl]
  simp only [State.area, State.img, ← h.image]
  rfl

/-- R20: the next reset, where the role is not NONE. -/
theorem resetAccepted_eq {l : Fin 4} {u : State} (hr : u.role ≠ .noArea) : resetAccepted l u =
    enqueue (detectFrameOf (u.lineReset l) l false)
      (dropDetection u.address l (u.lineReset l)) := by
  have hr' : (u.lineReset l).role ≠ .noArea := hr
  have hw : withdraw u.address l (u.lineReset l) = dropDetection u.address l (u.lineReset l) := if_neg hr'
  exact (if_neg hr').trans (congrArg (enqueue _) hw)

theorem resetAccepted_noArea {l : Fin 4} {u : State} (hr : u.role = .noArea) :
    resetAccepted l u = u.lineReset l := if_pos hr

theorem Left.congr_seq {s u v : State} {rest : List Detection} (h : Left s rest u) (hv : v.seq = u.seq) :
    Left s rest v := by
  obtain ⟨h1, h2, h3, h4, h5⟩ := h
  rw [← hv] at h1 h2 h3 h4 h5
  exact ⟨h1, h2, h3, h4, h5⟩

theorem Released.step_left {s u : State} {R : Fin 4 → Bool} {n : Nat} (h : Released s R n u) (l : Fin 4)
    (hr : s.role ≠ .noArea) : Left s (s.listLess fun k => R k || k == l) (resetAccepted l u) := by
  rw [resetAccepted_eq (h.role ▸ hr), listLess_or, h.address]
  refine Left.congr_seq ?_ (enqueue_only _ _).seq_eq
  exact Left.drop ((h.left hr).congr_seq (v := u.lineReset l) rfl) h.role
    (List.filter_subset_self _) s.address l

theorem Released.step_noMore {s u : State} {R : Fin 4 → Bool} {n : Nat} (h : Released s R n u) {l : Fin 4}
    (hl : R l = false) (e : QueueEntry) (he : e ∈ (resetAccepted l u).bus.queue) (hk : e.frame.kind = 3) :
    e ∈ s.bus.queue ∨ s.role ≠ .noArea ∧ ∃ k, (R k || k == l) = true ∧ e.frame = s.withdrawal k := by
  have old (he : e ∈ u.bus.queue) :
      e ∈ s.bus.queue ∨ s.role ≠ .noArea ∧ ∃ k, (R k || k == l) = true ∧ e.frame = s.withdrawal k :=
    (h.noMore e he hk).imp_right fun ⟨hr, k, hR, hf⟩ => ⟨hr, k, by rw [hR]; rfl, hf⟩
  by_cases hr : s.role = .noArea
  · rw [resetAccepted_noArea (h.role.trans hr)] at he
    exact old he
  · rw [resetAccepted_eq (h.role ▸ hr), h.frame hl] at he
    rcases enqueue_adds _ _ rfl e he with hf | he
    · exact .inr ⟨hr, l, by simp, hf⟩
    · exact old ((dropDetection_notified u.address l (u.lineReset l)).told.noMore e he (by rw [hk]; decide))

theorem Released.step_waits {s u : State} {R : Fin 4 → Bool} {n : Nat} (h : Released s R n u) {l : Fin 4}
    (hl : R l = false) (hp : places s.bus.queue + (n + 1) ≤ 6) :
    Waits s (fun k => R k || k == l) (n + 1) (resetAccepted l u) := by
  have w := h.waits (by omega)
  by_cases hr : s.role = .noArea
  · rw [resetAccepted_noArea (h.role.trans hr)]
    exact ⟨w.places.trans (by omega), fun _ _ hn => absurd hr hn, fun hm => absurd (hr.symm.trans hm) (by decide)⟩
  · have hd := dropDetection_notified s.address l (u.lineReset l)
    have hup : places u.bus.queue ≤ 6 := w.places.trans (by omega)
    have hdp := hd.places hup
    have hroom : places (dropDetection s.address l (u.lineReset l)).bus.queue + 1 ≤ 6 := by
      rw [hdp]
      have := w.places
      show places u.bus.queue + 1 ≤ 6
      omega
    rw [resetAccepted_eq (h.role ▸ hr), h.frame hl, h.address]
    obtain ⟨hq, hnew, hkeep⟩ := enqueue_enters (s.withdrawal l) _ rfl hroom
    have ho := enqueue_only (s.withdrawal l)
      (dropDetection s.address l (u.lineReset l))
    refine ⟨?_, fun k hk hn => ?_, fun hm hnm hf hlist hnil => ?_⟩
    · refine hq.trans ?_
      rw [hdp]
      show places u.bus.queue + 1 ≤ _
      have := w.places
      omega
    · rcases Bool.or_eq_true_iff.mp hk with hk | hk
      · obtain ⟨e, he, hf⟩ := w.frames k hk hn
        exact ⟨e, hkeep e (hd.told.stay hup e he (by rw [hf]; exact (by decide : 3 ≠ 0))), hf⟩
      · rw [beq_iff_eq.mp hk]
        exact hnew
    · rw [listLess_or] at hnil
      obtain ⟨e, he, hfr⟩ := Left.drop_notice
        ((h.left hr).congr_seq (v := u.lineReset l) rfl) h.role
        (List.filter_subset_self _) hm hnm hf hnil hup (fun hnil' => w.notice hm hnm hf hlist hnil')
      exact ⟨e, hkeep e he, hfr.trans (noticeFrame_congr (by rw [ho.seq_eq]) ho.image ho.now).symm⟩

/-- R18, R20: the reset of one more line. -/
theorem Released.step {s u : State} {R : Fin 4 → Bool} {n : Nat} (h : Released s R n u) {l : Fin 4}
    (hl : R l = false) : Released s (fun k => R k || k == l) (n + 1) (resetAccepted l u) := by
  have ho := resetAccepted_only l u
  exact {
    image := ho.image.trans h.image
    peers := ho.peers.trans h.peers
    roster := ho.roster.trans h.roster
    posture := ho.posture_eq.trans h.posture
    port := ho.port.trans h.port
    lines := fun k => by
      rw [ho.line, State.setLine_line, h.lines l, hl, h.lineCfg, h.lines k]
      by_cases hk : k = l
      · simp [hk]
      · simp [hk]
    stays := fun hr => by
      rw [resetAccepted_noArea (h.role.trans hr)]
      exact h.stays hr
    left := h.step_left l
    noMore := h.step_noMore hl
    waits := h.step_waits hl }

theorem Released.mono {s u : State} {R : Fin 4 → Bool} {n : Nat} (h : Released s R n u) : Released s R (n + 1) u :=
  { h with waits := fun hp =>
      { h.waits (by omega) with places := (h.waits (by omega)).places.trans (Nat.le_succ _) } }

/-- R18: one line of the command, reset or not. -/
theorem Released.line {s u : State} {R : Fin 4 → Bool} {n : Nat} (h : Released s R n u) {l : Fin 4} (hl : R l = false) :
    Released s (fun k => R k || (k == l && resetOutcome s k == .reset)) (n + 1) (resetLine u l) := by
  unfold resetLine
  rw [resetOutcome_congr (h.line_of_not hl)]
  split
  · next hr =>
    have e : (fun k => R k || (k == l && resetOutcome s k == .reset)) = fun k => R k || k == l := by
      funext k
      by_cases hk : k = l
      · simp [hk, hr]
      · rw [beq_eq_false_iff_ne.mpr hk, Bool.false_and]
    rw [e]
    exact h.step hl
  · next hr =>
    have e : (fun k => R k || (k == l && resetOutcome s k == .reset)) = R := by
      funext k
      by_cases hk : k = l
      · simp [hk, hr]
      · rw [beq_eq_false_iff_ne.mpr hk, Bool.false_and, Bool.or_false]
    rw [e]
    exact h.mono

end Sys2Proof.Machine
end

section
/-! SUPPORT. RESET_DETECTION as a command: what its event leaves once it is settled, and its replies (R18 to R20). -/

namespace Sys2Proof.Machine

/-! ## What follows the resets -/

theorem Released.areaOccupied {s u : State} {R : Fin 4 → Bool} {n : Nat} (h : Released s R n u) :
    u.areaOccupied = s.areaOccupied := by
  simp only [State.areaOccupied, State.areaCount, State.areaDoubt, State.img, State.peer, h.image, h.roster, h.peers]
  rfl

theorem Released.role_occupied {s u : State} {R : Fin 4 → Bool} {n : Nat} (h : Released s R n u) :
    u.seq.occupied = s.seq.occupied := by
  by_cases hr : s.role = .noArea
  · rw [(h.stays hr).1]
  · exact (h.left hr).occupied

/-- R20, R43, R54: the list, the latch and the stage once the event is settled. -/
theorem Released.settle_left {s u : State} {R : Fin 4 → Bool} {n : Nat} (h : Released s R n u) (rest : List Detection)
    (hrest : s.listLess R = rest) (room : Prop) (hroom : room → places s.bus.queue + n ≤ 6) :
    (s.role = .noArea → (settle u).seq.list = s.seq.list) ∧ (s.role = .member → (settle u).seq.list = rest) ∧
    (s.role = .release → s.NoMeeting →
      (settle u).seq.list = rest ∧ (settle u).seq.latch = s.seq.latch ∧
      (s.seq.stage = .firstAlarm → rest ≠ s.seq.list →
        (settle u).seq.stage = (if rest = [] then .normal else .firstAlarm) ∧
          (rest = [] → room → NoticeWaits (settle u))) ∧
      (s.seq.stage ≠ .firstAlarm → s.seq.stage ≠ .normal → s.NoStart → (settle u).seq.stage = s.seq.stage)) := by
  subst hrest
  obtain ⟨hlist, hlatch⟩ := settle_list u
  have hstage (hs : u.NoStart) : (settle u).seq.stage = u.seq.stage :=
    (congrArg Sequencer.stage ((settle_after u).seq hs) :)
  refine ⟨fun hr => by rw [hlist, (h.stays hr).1], fun hr => ?_, fun hr hn => ?_⟩
  · rw [hlist]
    exact (h.left (by rw [hr]; decide)).member hr
  · have k := h.left (by rw [hr]; decide)
    obtain ⟨kl, kc⟩ := k.list hr hn
    refine ⟨hlist.trans kl, hlatch.trans kc, fun hf hne => ?_, fun hf hx hs => ?_⟩
    · have hst := k.firstAlarm hr hn hf
      have hnil (he : s.listLess R = []) : s.seq.list ≠ [] := fun hl => hne (he.trans hl.symm)
      have hst : u.seq.stage = if s.listLess R = [] then .normal else .firstAlarm :=
        hst.trans (if_congr ⟨And.left, fun he => ⟨he, hnil he⟩⟩ rfl rfl)
      have hs : u.NoStart := .inl (by rw [hst]; split <;> decide)
      refine ⟨(hstage hs).trans hst, fun he hrm => ?_⟩
      have w := h.waits (hroom hrm)
      exact settle_notice u hs (w.places.trans (hroom hrm)) (w.notice hr hn hf (hnil he) he)
    · have hst := k.other hr hn hf hx
      refine (hstage ?_).trans hst
      unfold State.NoStart
      rw [hst, h.role, h.areaOccupied, h.role_occupied]
      exact hs

/-- R20: the frames that wait once the event is settled. -/
theorem Released.settle_frames {s u : State} {R : Fin 4 → Bool} {n : Nat} (h : Released s R n u) :
    (∀ l, R l = true → s.role ≠ .noArea → places s.bus.queue + n ≤ 6 →
      ∃ e ∈ (settle u).bus.queue, e.frame = s.withdrawal l) ∧
    (∀ e ∈ (settle u).bus.queue, e.frame.kind = 3 →
      e ∈ s.bus.queue ∨ s.role ≠ .noArea ∧ ∃ l, R l = true ∧ e.frame = s.withdrawal l) := by
  refine ⟨fun l hl hr hroom => ?_, fun e he hk => ?_⟩
  · have w := h.waits hroom
    obtain ⟨e, he, hf⟩ := w.frames l hl hr
    exact ⟨e, settle_stays u (w.places.trans hroom) e he (by rw [hf]; exact (by decide : 3 ≠ 0))
      (by rw [hf]; exact (by decide : 3 ≠ 6)), hf⟩
  · exact h.noMore e (settle_noMore u e he (by rw [hk]; decide) (by rw [hk]; decide)) hk

/-- R18, R20: the lines once the event is settled. -/
theorem Released.settle_lines {s u : State} {R : Fin 4 → Bool} {n : Nat} (h : Released s R n u) (l : Fin 4) :
    ((settle u).line l).apart =
      if R l = true then ((s.line l).resetAlarm (s.lineCfg l)).apart else (s.line l).apart := by
  rw [(settle_after u).handed.lines l, h.lines l]
  split <;> rfl

/-- R18: a line's own reset. -/
theorem released_line (s : State) (l : Fin 4) (hr : resetOutcome s l = .reset) :
    Released s (fun k => k == l) 1 (resetLine s l) := by
  have e : (fun k => false || (k == l && resetOutcome s k == .reset)) = fun k => k == l := by
    funext k
    by_cases hk : k = l
    · simp [hk, hr]
    · rw [beq_eq_false_iff_ne.mpr hk, Bool.false_and, Bool.or_false]
  exact e ▸ (Released.refl s).line (l := l) rfl

/-- R19: the reset of all lines. -/
theorem released_all (s : State) :
    Released s (fun k => resetOutcome s k == .reset) 4 (allLines.foldl resetLine s) := by
  have h := ((((Released.refl s).line (l := 0) rfl).line (l := 1) rfl).line (l := 2) rfl).line (l := 3) rfl
  have e : (fun k : Fin 4 => (((false || (k == 0 && resetOutcome s k == .reset)) ||
      (k == 1 && resetOutcome s k == .reset)) || (k == 2 && resetOutcome s k == .reset)) ||
      (k == 3 && resetOutcome s k == .reset)) = fun k => resetOutcome s k == .reset := by
    funext k
    fin_cases k <;> simp
  have hf : allLines.foldl resetLine s = resetLine (resetLine (resetLine (resetLine s 0) 1) 2) 3 := by
    simp only [allLines, List.foldl_cons, List.foldl_nil]
  rw [hf, ← e]
  exact h

/-! ## The command -/

theorem atPanel_of {s : State} (hp : s.portTakes = true) (hc : s.startup.phase ≠ .configFault)
    (hi : s.port.state = .idle) : s.AtPanel := by
  refine ⟨?_, hi⟩
  unfold State.portTakes at hp
  unfold State.running
  cases h : s.startup.phase <;> simp_all

theorem linesOperand_line (s : State) {b : Byte} {l : Fin 4} (h : b.toNat = l.val) :
    linesOperand s [b] = some (some l) := by
  have hl := l.isLt
  have hb : b.toNat ≠ 255 := by omega
  simp [linesOperand, index?, h]
  omega

theorem linesOperand_all (s : State) : linesOperand s [255] = some none := by
  simp [linesOperand]

/-- R18, R19: RESET_DETECTION at an idle port. -/
theorem exec_resetDetection {s : State} (h : s.AtPanel) (dt before : Nat) {b : Byte} {x : Option (Fin 4)} {a : Answer}
    {u : State} (hx : linesOperand (s.taken dt 12 ⟨[1, b], before⟩) [b] = some x)
    (ho : resetDetection x (s.taken dt 12 ⟨[1, b], before⟩) = (a, u))
    (hu : u.port = (s.taken dt 12 ⟨[1, b], before⟩).port) :
    exec (.resetDetection dt ⟨[1, b], before⟩) s =
      .next (u.setPort (s.answered [1, b] 12 a.result.code a.flags a.data)) := by
  have k := panelCommand_idle (code := 12) (len := 1) (dt := dt) (before := before) (bytes := [b])
    (parse := linesOperand) (act := resetDetection) h rfl (by decide) hx ((congrArg (fun y => y.2.port) ho).trans hu)
  refine congrArg Host.Outcome.next (k.trans ?_)
  have ho' : resetDetection x (s.taken dt 12 ⟨byteOf 1 :: [b], before⟩) = (a, u) := ho
  rw [ho']
  rfl

theorem resetDetection_of_reset {s : State} {l : Fin 4} (h : resetOutcome s l = .reset) :
    resetDetection (some l) s = (Answer.done [0], settle (resetLine s l)) := by
  simp only [resetDetection, h]
  rfl

theorem resetDetection_of_active {s : State} {l : Fin 4} (h : resetOutcome s l = .stillActive) :
    resetDetection (some l) s = (Answer.plain .stillActive, s) := by
  simp only [resetDetection, h, if_true]

theorem resetDetection_of_notInAlarm {s : State} {l : Fin 4} (h : resetOutcome s l = .notInAlarm) :
    resetDetection (some l) s = (Answer.done [2], settle s) := by
  have hl : resetLine s l = s := if_neg (by rw [h]; decide)
  simp only [resetDetection, h, hl]
  rfl

theorem resetDetection_all (s : State) : resetDetection none s =
    (Answer.done [byteOf (resetOutcome s 0).code, byteOf (resetOutcome s 1).code, byteOf (resetOutcome s 2).code,
      byteOf (resetOutcome s 3).code], settle (allLines.foldl resetLine s)) := by
  have hd : allLines.flatMap (fun l => num1 (resetOutcome s l).code) = [byteOf (resetOutcome s 0).code,
      byteOf (resetOutcome s 1).code, byteOf (resetOutcome s 2).code, byteOf (resetOutcome s 3).code] := by
    simp only [allLines, num1, List.flatMap_cons, List.flatMap_nil, List.append_nil, List.cons_append, List.nil_append]
  simp only [resetDetection, hd]

theorem Released.settle_port {s u : State} {R : Fin 4 → Bool} {n : Nat} (h : Released s R n u) :
    (settle u).port = s.port := (settle_after u).handed.port.trans h.port

theorem Released.settle_rest {s u : State} {R : Fin 4 → Bool} {n : Nat} (h : Released s R n u) :
    (settle u).peers = s.peers ∧ (settle u).roster = s.roster ∧ (settle u).posture.view = s.posture.view :=
  ⟨(settle_after u).handed.peers.trans h.peers, (settle_after u).handed.roster.trans h.roster,
    (settle_after u).handed.view.trans (congrArg PostureUnit.view h.posture)⟩

theorem byteOf_resetOutcome (s : State) (l : Fin 4) : byteOf (resetOutcome s l).code =
    if (s.line l).stage ≠ .alarm then 2 else if (s.line l).level < (s.line l).effAlarm then 0 else 1 := by
  unfold resetOutcome
  by_cases ha : (s.line l).stage = .alarm
  · rw [if_pos ha, if_neg (not_not.mpr ha)]
    split <;> rfl
  · rw [if_neg ha, if_pos ha]
    rfl

theorem byteOf_resetOutcome_eq_zero (s : State) (l : Fin 4) :
    byteOf (resetOutcome s l).code = 0 ↔ resetOutcome s l = .reset := by
  cases resetOutcome s l <;> decide

/-- Settles O11: one line after the other is `Released`, and the event is settled. -/
theorem detectionResetReleasesALine : Obligations.DetectionResetReleasesALine := by
  unfold Obligations.DetectionResetReleasesALine
  intro withdrawn left
  refine ⟨fun s dt before b l hp hc hi hb hal => ⟨fun hlow => ?_, fun hhigh => ?_⟩,
    fun s dt before b l h hb hal => ?_, fun s dt before h => ?_⟩
  · have h := atPanel_of hp hc hi
    have hr : resetOutcome (s.taken dt 12 ⟨[1, b], before⟩) l = .reset := (if_pos hal).trans (if_pos hlow)
    have k := released_line _ l hr
    have room (hq : s.bus.queue.length ≤ 3) : places s.bus.queue + 1 ≤ 6 := by
      have := places_le_length_add s.bus.queue
      omega
    obtain ⟨hw, hm⟩ := k.settle_frames
    refine ⟨_, exec_resetDetection h dt before (linesOperand_line _ hb) (resetDetection_of_reset hr) k.settle_port, rfl,
      (k.settle_lines l).trans (if_pos (beq_self_eq_true l)),
      fun j hj => (k.settle_lines j).trans (if_neg fun e => hj (beq_iff_eq.mp e)), k.settle_left _ rfl _ room,
      fun hn hq => hw l (beq_self_eq_true l) hn (room hq), fun e he h3 => ?_, k.settle_rest⟩
    refine (hm e he h3).imp_right fun ⟨hn, j, hj, hf⟩ => ⟨hn, ?_⟩
    rw [beq_iff_eq.mp hj] at hf
    exact hf
  · have h := atPanel_of hp hc hi
    have hr : resetOutcome (s.taken dt 12 ⟨[1, b], before⟩) l = .stillActive :=
      (if_pos hal).trans (if_neg (Nat.not_lt.mpr hhigh))
    exact ⟨_, exec_resetDetection h dt before (linesOperand_line _ hb) (resetDetection_of_active hr) rfl, rfl, rfl⟩
  · have hr : resetOutcome (s.taken dt 12 ⟨[1, b], before⟩) l = .notInAlarm := if_neg hal
    exact ⟨_, rfl, panelCommand_after (code := 12) (len := 1) (dt := dt) (before := before) (bytes := [b])
      (parse := linesOperand) (act := resetDetection) h rfl (by decide) (linesOperand_line _ hb)
      (resetDetection_of_notInAlarm hr) rfl⟩
  · intro outcome
    have k := released_all (s.taken dt 12 ⟨[1, 255], before⟩)
    have hout (l : Fin 4) : byteOf (resetOutcome (s.taken dt 12 ⟨[1, 255], before⟩) l).code = outcome l :=
      byteOf_resetOutcome _ l
    have hzero (l : Fin 4) : (resetOutcome (s.taken dt 12 ⟨[1, 255], before⟩) l == .reset) = (outcome l == 0) := by
      rw [← hout, Bool.eq_iff_iff, beq_iff_eq, beq_iff_eq, byteOf_resetOutcome_eq_zero]
    rw [funext hzero] at k
    have room (hq : s.bus.queue = []) : places s.bus.queue + 4 ≤ 6 := by
      rw [hq]
      decide
    have he := exec_resetDetection h dt before (linesOperand_all _) (resetDetection_all _) k.settle_port
    rw [hout, hout, hout, hout] at he
    generalize allLines.foldl resetLine (s.taken dt 12 ⟨[1, 255], before⟩) = u at k he
    obtain ⟨hw, hm⟩ := k.settle_frames
    refine ⟨_, he, rfl,
      fun l hl => (k.settle_lines l).trans (if_neg fun e => hl (beq_iff_eq.mp e)),
      fun l hl => (k.settle_lines l).trans (if_pos (beq_iff_eq.mpr hl)), k.settle_left _ rfl _ room,
      fun l hl hn hq => hw l (beq_iff_eq.mpr hl) hn (room hq), fun e he h3 => ?_, k.settle_rest⟩
    exact (hm e he h3).imp_right fun ⟨hn, j, hj, hf⟩ => ⟨hn, j, beq_iff_eq.mp hj, hf⟩

end Sys2Proof.Machine
end

section
/-! SUPPORT. A bus frame from the line to its owner (R24 to R26, R179): what the Peer View makes of it, and what no owner of
a frame writes. -/

namespace Sys2Proof.Machine

/-! ## What no owner of a frame writes -/

/-- Everything an owner of a frame leaves as it is, the hand-offs that follow included: the time, the inputs, the start
phase, the image, the peer table, the roster, the port, the pair tag, and the lines apart from their alarm levels. -/
structure Spares (s t : State) : Prop where
  now : t.now = s.now
  pins : t.pins = s.pins
  startup : t.startup = s.startup
  image : t.image = s.image
  peers : t.peers = s.peers
  roster : t.roster = s.roster
  port : t.port = s.port
  tag : t.entry.tag = s.entry.tag
  lines : ∀ l, (t.line l).apart = (s.line l).apart

theorem Spares.refl (s : State) : Spares s s := ⟨rfl, rfl, rfl, rfl, rfl, rfl, rfl, rfl, fun _ => rfl⟩

theorem Spares.trans {s t u : State} (h : Spares s t) (k : Spares t u) : Spares s u where
  now := k.now.trans h.now
  pins := k.pins.trans h.pins
  startup := k.startup.trans h.startup
  image := k.image.trans h.image
  peers := k.peers.trans h.peers
  roster := k.roster.trans h.roster
  port := k.port.trans h.port
  tag := k.tag.trans h.tag
  lines l := (k.lines l).trans (h.lines l)

theorem Handed.spares {s t : State} (h : Handed s t) : Spares s t :=
  ⟨h.now, h.pins, h.startup, h.image, h.peers, h.roster, h.port, h.tag, h.lines⟩

theorem Spares.img {s t : State} (h : Spares s t) : t.img = s.img := by unfold State.img; rw [h.image]

theorem Spares.role {s t : State} (h : Spares s t) : t.role = s.role := by unfold State.role; rw [h.img]

theorem Spares.area {s t : State} (h : Spares s t) : t.area = s.area := by unfold State.area; rw [h.img]

theorem Spares.releaseStation {s t : State} (h : Spares s t) : t.releaseStation = s.releaseStation := by
  unfold State.releaseStation
  rw [h.role, h.img]

theorem Spares.peer {s t : State} (h : Spares s t) (a : Nat) : t.peer a = s.peer a := by unfold State.peer; rw [h.peers]

theorem setAnn_spares (s : State) (x : Annunciator) : Spares s (s.setAnn x) :=
  ⟨rfl, rfl, rfl, rfl, rfl, rfl, rfl, rfl, fun _ => rfl⟩

theorem setPosture_spares (s : State) (x : PostureUnit) : Spares s (s.setPosture x) :=
  ⟨rfl, rfl, rfl, rfl, rfl, rfl, rfl, rfl, fun _ => rfl⟩

theorem setDoors_spares (s : State) (x : DoorCtl) : Spares s (s.setDoors x) :=
  ⟨rfl, rfl, rfl, rfl, rfl, rfl, rfl, rfl, fun _ => rfl⟩

theorem setEntry_spares (s : State) (x : EntryUnit) (h : x.tag = s.entry.tag := by rfl) : Spares s (s.setEntry x) :=
  ⟨rfl, rfl, rfl, rfl, rfl, rfl, rfl, h, fun _ => rfl⟩

/-! ## The owners of the frames -/

theorem addRemote_spares (a : Nat) (k : RemoteKind) (s : State) : Spares s (addRemote a k s) := by
  unfold addRemote
  split
  · exact .refl s
  · split
    · exact setAnn_spares s _
    · exact ((setAnn_spares s _).trans (settle_handed _).spares).trans (setAnn_spares _ _)

theorem adoptPosture_spares (a : Nat) (p : Posture) (e : Byte) (s : State) : Spares s (adoptPosture a p e s) := by
  unfold adoptPosture
  split
  · exact (setPosture_spares s _).trans (askStatus_only _).toHanded.spares
  · exact .refl s

theorem handCredit_spares (d : DoorId) (c : Credit) (s : State) : Spares s (handCredit d c s).2 := by
  unfold handCredit
  split
  · exact .refl s
  · split
    · exact .refl s
    · split
      · exact (releaseDoor_pushed d c s).toHanded.spares
      · exact (setDoors_spares s _).trans (setDoor_pushed _ d _).toHanded.spares

theorem completeConfirm_spares (d : DoorId) (s : State) : Spares s (completeConfirm d s) := by
  unfold completeConfirm notePassback
  split
  · exact .refl s
  · have handed (c : Credit) : Spares s (handCredit d c (s.setReservation d none)).2 :=
      (setReservation_pushed s d none).toHanded.spares.trans (handCredit_spares d c _)
    split
    · exact (handed _).trans (trigger_only _ _ (by decide)).toHanded.spares
    · exact handed _

theorem takeConfirm_spares (d : DoorId) (tag : Byte) (holder cls : Nat) (s : State) :
    Spares s (takeConfirm d tag holder cls s) := by
  have record (o : PairOutcome) (u : State) : Spares u (recordOutcome o u) :=
    (setEntry_spares u _).trans (askStatus_only _).toHanded.spares
  unfold takeConfirm
  split
  · exact (completeConfirm_spares d s).trans (record _ _)
  · exact record _ s

theorem recoverDetections_only (a : Nat) (c : Announcement) (s : State) : SeqOnly s (recoverDetections a c s) := by
  have fold (ls : List (Fin 4)) (u : State) : SeqOnly u (ls.foldl (recoverLine a c) u) := by
    induction ls generalizing u with
    | nil => exact .refl u
    | cons l ls ih =>
      refine SeqOnly.trans ?_ (ih _)
      unfold recoverLine
      split
      · exact detect_only true a l _ u
      · exact .refl u
  unfold recoverDetections
  split
  · exact fold allLines s
  · exact .refl s

theorem recoverDuress_spares (a : Nat) (c : Announcement) (s : State) : Spares s (recoverDuress a c s) := by
  unfold recoverDuress
  split
  · exact addRemote_spares a _ s
  · exact setAnn_spares s _

theorem recoverFirstAlarm_spares (a : Nat) (c : Announcement) (s : State) : Spares s (recoverFirstAlarm a c s) := by
  unfold recoverFirstAlarm
  split
  · exact setAnn_spares s _
  · split
    · exact addRemote_spares a _ s
    · exact .refl s

theorem recoverAbort_only (a : Nat) (c : Announcement) (s : State) : SeqOnly s (recoverAbort a c s) := by
  unfold recoverAbort
  split
  · exact abortLeave_only a s
  · exact .refl s

theorem mirrorStatus_only (a : Nat) (c : Announcement) (s : State) : SeqOnly s (mirrorStatus a c s) := by
  unfold mirrorStatus
  split
  · exact setMirror_only _ s
  · exact .refl s

/-- R30, R31: a STATUS up to the abort set: the detections and the remote list have been brought into line. -/
def listsRecovered (a : Nat) (c : Announcement) (s : State) : State :=
  settle (recoverFirstAlarm a c (settle (recoverDuress a c (settle (recoverDetections a c s)))))

/-- R33, R138: what a STATUS does after the abort set has followed it: the posture, and then the mirror. -/
def viewRecovered (a : Nat) (c : Announcement) (s : State) : State :=
  mirrorStatus a c (settle (adoptPosture a c.posture c.epoch (settle s)))

/-- R30 to R33: a STATUS, around the abort set. -/
theorem statusOwner_eq (a : Nat) (c : Announcement) (s : State) :
    statusOwner a (.status c) s = viewRecovered a c (recoverAbort a c (listsRecovered a c s)) := rfl

theorem listsRecovered_spares (a : Nat) (c : Announcement) (s : State) : Spares s (listsRecovered a c s) :=
  ((((recoverDetections_only a c s).toHanded.trans (settle_handed _)).spares.trans (recoverDuress_spares a c _)).trans
    (settle_handed _).spares).trans ((recoverFirstAlarm_spares a c _).trans (settle_handed _).spares)

theorem viewRecovered_spares (a : Nat) (c : Announcement) (s : State) : Spares s (viewRecovered a c s) :=
  ((settle_handed s).spares.trans (adoptPosture_spares a _ _ _)).trans
    ((settle_handed _).trans (mirrorStatus_only a c _).toHanded).spares

theorem statusOwner_spares (a : Nat) (f : Frame) (s : State) : Spares s (statusOwner a f s) := by
  cases f
  case status c =>
    exact ((listsRecovered_spares a c s).trans (recoverAbort_only a c _).toHanded.spares).trans
      (viewRecovered_spares a c _)
  all_goals exact .refl s

theorem queryOwner_handed (a : Nat) (f : Frame) (s : State) : Handed s (queryOwner a f s) := by
  unfold queryOwner
  split
  · exact (askStatus_only s).toHanded
  · exact .refl s

theorem noticeOwner_spares (a : Nat) (f : Frame) (s : State) : Spares s (noticeOwner a f s) := by
  unfold noticeOwner
  split
  case h_1 =>
    split
    · split
      · exact (setMirror_only _ s).toHanded.spares
      · exact .refl s
    · exact .refl s
  all_goals exact .refl s

theorem callOwner_spares (a : Nat) (f : Frame) (s : State) : Spares s (callOwner a f s) := by
  unfold callOwner
  split
  case h_1 =>
    split
    · exact ((settle_handed s).trans (actOnCall_only _ _ _).toHanded).spares
    · exact .refl s
  all_goals exact .refl s

theorem duressOwner_spares (a : Nat) (f : Frame) (s : State) : Spares s (duressOwner a f s) := by
  unfold duressOwner
  split
  case h_1 =>
    split
    · split
      · exact addRemote_spares a _ s
      · exact setAnn_spares s _
    · exact .refl s
  all_goals exact .refl s

theorem detectOwner_spares (a : Nat) (f : Frame) (s : State) : Spares s (detectOwner a f s) := by
  unfold detectOwner
  split
  case h_1 =>
    split
    · split
      · split
        · exact (detect_only _ _ _ _ s).toHanded.spares
        · exact (withdraw_only _ _ s).toHanded.spares
      · exact .refl s
    · exact .refl s
  all_goals exact .refl s

theorem confirmOwner_spares (a : Nat) (f : Frame) (s : State) : Spares s (confirmOwner a f s) := by
  unfold confirmOwner
  split
  case h_1 =>
    split
    · split
      · exact takeConfirm_spares _ _ _ _ s
      · exact .refl s
    · exact .refl s
  all_goals exact .refl s

theorem postureOwner_spares (a : Nat) (f : Frame) (s : State) : Spares s (postureOwner a f s) := by
  unfold postureOwner
  split
  case h_1 =>
    split
    · split
      · exact adoptPosture_spares a _ _ s
      · exact .refl s
    · exact .refl s
  all_goals exact .refl s

/-! ## A frame reaches its owner -/

/-- R179: a good frame has a sender. -/
theorem acceptBits_address {bits : List Bool} {a : Nat} {f : Frame} (h : acceptBits bits = some (a, f)) :
    1 ≤ a ∧ a ≤ 48 := by
  unfold acceptBits at h
  split at h
  · cases h
  · split at h
    · split at h
      · cases h
      · split at h
        · next hc =>
          obtain ⟨g, -, hg⟩ := Option.map_eq_some_iff.mp h
          have ha : _ = a := congrArg Prod.fst hg
          rw [← ha]
          exact ⟨hc.2.2.1, hc.2.2.2.1⟩
        · cases h
    · cases h

/-- R24, R25: the station with the sender's entry written, before anything follows from it. -/
def State.heard (s : State) (c : FrameCall) (a : Nat) (f : Frame) : State :=
  ((s.elapse c.dt).hear c.bits).setPeer a ((s.peer a).after (s.now + c.dt) f)

theorem peer_hear (s : State) (dt : Nat) (bits : List Bool) (a : Nat) : ((s.elapse dt).hear bits).peer a = s.peer a := by
  unfold State.peer
  rw [State.hear_peers, State.elapse_peers]

/-- R24, R28: a frame that reaches the station changes its sender's entry, the area occupancy is evaluated, its owner
acts, and the event is settled. -/
theorem receiveFrame_reaches {c : FrameCall} {s : State} {a : Nat} {f : Frame} (h : Reaches c s a f)
    (owner : Nat → Frame → State → State) :
    receiveFrame c.kind owner c.bits (s.elapse c.dt) = settle (owner a f (evalOccupancy (s.heard c a f))) := by
  obtain ⟨hr, hs, hb, hk, ha⟩ := h
  have hr : (s.elapse c.dt).receiving = true := hr
  have hs : (s.elapse c.dt).bus.stuck = false := hs
  have ha : a ≠ ((s.elapse c.dt).hear c.bits).address := by
    unfold State.address State.img at ha ⊢
    rwa [State.hear_image, State.elapse_image]
  unfold receiveFrame
  rw [hr, hs, if_pos (by decide), hb]
  dsimp only
  rw [if_pos hk, deliver, if_neg ha, peerHeard, peer_hear, State.hear_now, State.elapse_now, State.heard]

/-- R24: the peer table once a frame has been heard. -/
theorem heard_peer {c : FrameCall} {s : State} {a : Nat} {f : Frame} (h : Reaches c s a f) (b : Nat) :
    (s.heard c a f).peer b = if b = a then (s.peer a).after (s.now + c.dt) f else s.peer b := by
  obtain ⟨-, -, hb, -, -⟩ := h
  rw [State.heard, State.setPeer_peer, peer_hear]
  simp [acceptBits_address hb]

/-- Each row that is a frame hands it to an owner, and no owner writes what `Spares` names. -/
theorem exec_frame {i : Instr} {c : FrameCall} {s : State} {a : Nat} {f : Frame} (hi : frameCall i = some c)
    (h : Reaches c s a f) : ∃ t, exec i s = .next t ∧ Spares (s.heard c a f) t := by
  have owned (owner : Nat → Frame → State → State) (k : ∀ u, Spares u (owner a f u)) :
      Spares (s.heard c a f) (receiveFrame c.kind owner c.bits (s.elapse c.dt)) := by
    rw [receiveFrame_reaches h]
    exact ((evalOccupancy_only _).toHanded.spares.trans (k _)).trans (settle_handed _).spares
  unfold frameCall at hi
  split at hi <;> cases hi
  case h_1 => exact ⟨_, rfl, owned _ (noticeOwner_spares a f)⟩
  case h_2 => exact ⟨_, rfl, owned _ (callOwner_spares a f)⟩
  case h_3 => exact ⟨_, rfl, owned _ (duressOwner_spares a f)⟩
  case h_4 => exact ⟨_, rfl, owned _ (detectOwner_spares a f)⟩
  case h_5 => exact ⟨_, rfl, owned _ (confirmOwner_spares a f)⟩
  case h_6 => exact ⟨_, rfl, owned _ (postureOwner_spares a f)⟩
  case h_7 => exact ⟨_, rfl, owned _ (statusOwner_spares a f)⟩
  case h_8 => exact ⟨_, rfl, owned _ fun u => (queryOwner_handed a f u).spares⟩

/-! ## The peer table -/

/-- R25: a STATUS leaves nothing of its sender's entry. -/
theorem Peer.after_status (p : Peer) (now : Nat) (c : Announcement) : p.after now (.status c) = {
    presence := .live, lastHeard := now, statusHeard := true
    silence := some (now + 750000 * c.period), said := c } := by
  have hs : silenceFrom now c.period = some (now + 750000 * c.period) := by
    simp only [silenceFrom, Config.periodUnit, Config.ms, Option.some.injEq]
    omega
  simp only [Peer.after, Peer.refresh, Peer.hear, hs]

/-- R24, R26: any other frame tells only that its sender is there. -/
theorem Peer.after_of_kind (p : Peer) (now : Nat) {f : Frame} (h : f.kind ≠ 6) : p.after now f = { p with
    presence := .live, lastHeard := now
    silence := if p.presence = .live then p.silence else some (now + 750000 * p.said.period) } := by
  have hs : silenceFrom now p.said.period = some (now + 750000 * p.said.period) := by
    simp only [silenceFrom, Config.periodUnit, Config.ms, Option.some.injEq]
    omega
  rw [← hs]
  cases f
  case status => exact absurd rfl h
  all_goals rfl

/-- What a frame leaves beside its sender's entry. -/
theorem heard_rest (s : State) (c : FrameCall) (a : Nat) (f : Frame) :
    (s.heard c a f).roster = s.roster ∧ (s.heard c a f).port = s.port ∧ (s.heard c a f).pins = s.pins ∧
      (s.heard c a f).startup = s.startup ∧ (s.heard c a f).entry = s.entry ∧ (s.heard c a f).lines = s.lines := by
  simp [State.heard]

/-- Settles O12: the Peer View writes the sender's entry (`heard_peer`), and no owner of a frame touches the table
(`exec_frame`). -/
theorem framesReachThePeerView : Obligations.FramesReachThePeerView := by
  unfold Obligations.FramesReachThePeerView
  refine ⟨fun s dt a bits c h => ?_, fun i c s a f hi hk h => ?_⟩
  · obtain ⟨t, he, k⟩ := exec_frame (i := .statusFrame dt bits) rfl h
    obtain ⟨hroster, hport, hpins, hstartup, hentry, hlines⟩ :=
      heard_rest s { kind := 6, dt := dt, bits := bits } a (.status c)
    refine ⟨t, he, ?_, fun b hb => ?_, fun l => ?_, k.roster.trans hroster, k.port.trans hport, k.pins.trans hpins,
      k.startup.trans hstartup, k.tag.trans (by rw [hentry])⟩
    · rw [k.peer, heard_peer h, if_pos rfl, Peer.after_status]
    · rw [k.peer, heard_peer h, if_neg hb]
    · rw [k.lines, State.line, State.line, hlines]
  · obtain ⟨t, he, k⟩ := exec_frame hi h
    obtain ⟨-, hport, hpins, hstartup, -, hlines⟩ := heard_rest s c a f
    have ⟨_, _, _, hf, _⟩ := h
    refine ⟨t, he, ?_, fun b hb => ?_, fun l => ?_, k.port.trans hport, k.pins.trans hpins, k.startup.trans hstartup⟩
    · rw [k.peer, heard_peer h, if_pos rfl, Peer.after_of_kind _ _ (hf ▸ hk)]
    · rw [k.peer, heard_peer h, if_neg hb]
    · rw [k.lines, State.line, State.line, hlines]

/-! ## Silence -/

/-- R23, R26: only an address of the table has a silence timer. -/
theorem address_of_silence {s : State} {a d : Nat} (h : (s.peer a).silence = some d) : 1 ≤ a ∧ a ≤ 48 := by
  unfold State.peer at h
  split at h
  · cases h
  · by_cases ha : a - 1 < 48
    · omega
    · rw [Vector.getElem?_eq_none (by omega)] at h
      cases h

/-- R26: the station with a peer's silence marked. -/
def State.silenced (s : State) (a d : Nat) : State :=
  (s.reach d).setPeer a { s.peer a with presence := .silent, silence := none }

theorem exec_silence {s : State} {a d : Nat} (h : (s.peer a).silence = some d) :
    exec (.silenceTimerExpiry a) s = .next (settle (s.silenced a d)) := by
  show Host.Outcome.next (silenceExpiry a s) = _
  unfold silenceExpiry
  rw [h]
  rfl

/-- Settles O14: what follows the mark is `settle_after`, and a settled state has the condition of every level source
(`Settled.conditions`). -/
theorem silenceIsMarkedAndTold : Obligations.SilenceIsMarkedAndTold := by
  unfold Obligations.SilenceIsMarkedAndTold
  refine ⟨fun s a d h => ?_, fun s t a d h hp he => ?_⟩
  · have ha := settle_after (s.silenced a d)
    refine ⟨_, exec_silence h, ?_, fun b hb => ?_, ha⟩ <;> rw [ha.handed.peer, State.silenced, State.setPeer_peer]
    · rw [if_pos ⟨rfl, address_of_silence h⟩]
    · rw [if_neg fun k => hb k.1]
      rfl
  · rw [exec_silence h] at he
    injection he with he
    have ha := settle_after (s.silenced a d)
    have hu : (s.silenced a d).startup = s.startup := by simp [State.silenced]
    have hi : (s.silenced a d).image = s.image := by simp [State.silenced]
    have hrun : (s.silenced a d).running = true := by
      unfold State.running
      rw [hu, hp]
    have hc := Settled.conditions (settle_settled _ hrun)
    rw [he] at ha hc
    have himg : t.img = s.img := ha.handed.img.trans (by unfold State.img; rw [hi])
    have hrole : t.role = s.role := by unfold State.role; rw [himg]
    have hphase : t.startup.phase = .run := by rw [ha.handed.startup, hu, hp]
    have ⟨_, _, _, _, _, _, _, _, _, _, hsilent, hlost, _⟩ := hc
    rw [himg, hrole, hphase] at hsilent hlost
    refine ⟨hsilent.trans (and_iff_right rfl), hlost.trans ((and_iff_right rfl).trans ?_), hc⟩
    simp only [Option.mem_def]

end Sys2Proof.Machine
end

section
/-! SUPPORT. A QUERY and its answer (R34), and the remote alarm list under a STATUS (R31). -/

namespace Sys2Proof.Machine

/-! ## A QUERY -/

/-- R181: a STATUS asked for waits, and takes no more than its own place. -/
theorem askStatus_announced {s : State} (ha : s.bus.announcing = true) (hp : places s.bus.queue ≤ 6) :
    Announced (askStatus s) ∧ places (askStatus s).bus.queue ≤ 6 := by
  have he : askStatus s = enqueue (.status s.announcement) (s.setBus { s.bus with announced := s.announcement }) :=
    if_pos ha
  obtain ⟨ht, hw⟩ := enqueue_told (.status s.announcement) (s.setBus { s.bus with announced := s.announcement }) (.inr rfl)
  obtain ⟨e, hm, hf⟩ := hw hp
  rw [he]
  refine ⟨⟨e, hm, ?_⟩, (ht.sent hp).1⟩
  rw [hf, enqueue_announced]
  rfl

theorem running_of_run {s : State} (h : s.startup.phase = .run) : s.running = true := by
  unfold State.running
  rw [h]

/-- R34: a STATUS asked for is there once everything has followed, and says what the state then is. -/
theorem settle_askStatus {s : State} (hr : s.running = true) (ha : s.bus.announcing = true)
    (hp : places s.bus.queue ≤ 6) : StatusWaits (settle (askStatus s)) := by
  have ho := (askStatus_only s).toHanded
  obtain ⟨hw, hq⟩ := askStatus_announced ha hp
  exact statusWaits_of _ (settle_status _ (ho.running.trans hr) (ho.announcing.trans ha) hq (.inl hw))

theorem heard_bus (s : State) (c : FrameCall) (a : Nat) (f : Frame) :
    (s.heard c a f).bus.queue = s.bus.queue ∧ (s.heard c a f).bus.announcing = s.bus.announcing := by
  rw [State.heard, State.setPeer_bus, State.hear_bus]
  exact ⟨rfl, rfl⟩

theorem evalOccupancy_places {s : State} (h : places s.bus.queue ≤ 6) : places (evalOccupancy s).bus.queue ≤ 6 :=
  ((evalOccupancy_told s).sent h).1

/-! ## The remote alarm list -/

/-- `t` has an entry of a station and kind in its remote list as `on` says, and the list is that of `s` beside it. -/
structure Listed (a : Nat) (k : RemoteKind) (on : Prop) (s t : State) : Prop where
  entry : (∃ e ∈ t.ann.remote, e.station = a ∧ e.kind = k) ↔ on
  others : ∀ e, ¬(e.station = a ∧ e.kind = k) → (e ∈ t.ann.remote ↔ e ∈ s.ann.remote)
  length : t.ann.remote.length ≤ s.ann.remote.length + 1

/-- The list is read where it stands, before and after what leaves it alone. -/
theorem Listed.congr {a : Nat} {k : RemoteKind} {on : Prop} {s t u v : State} (h : Listed a k on s t)
    (hs : s.ann.remote = u.ann.remote) (ht : v.ann.remote = t.ann.remote) : Listed a k on u v := by
  obtain ⟨he, ho, hl⟩ := h
  rw [← ht] at he ho hl
  rw [hs] at ho hl
  exact ⟨he, ho, hl⟩

theorem RemoteEntry.matches_iff (e : RemoteEntry) (a : Nat) (k : RemoteKind) :
    e.matches a k = true ↔ e.station = a ∧ e.kind = k := by
  simp [RemoteEntry.matches]

/-- R166: an addition to a list with room. -/
theorem addRemote_listed (a : Nat) (k : RemoteKind) {s : State} (h : s.ann.remote.length < 8) :
    Listed a k True s (addRemote a k s) := by
  have hr := addRemote_remote a k s
  rw [if_pos (c := s.ann.remote.length < Config.remoteSize) h] at hr
  split at hr
  · next hm =>
    obtain ⟨e, he, hk⟩ := List.any_eq_true.mp hm
    refine ⟨iff_of_true ⟨e, hr ▸ he, (e.matches_iff a k).mp hk⟩ trivial, fun _ _ => ?_, ?_⟩ <;> rw [hr]
    exact Nat.le_succ _
  · refine ⟨iff_of_true ⟨_, hr ▸ List.mem_append_right _ List.mem_cons_self, rfl, rfl⟩ trivial, fun e he => ?_, ?_⟩
    · rw [hr, List.mem_append, List.mem_singleton]
      exact or_iff_left fun hn => he (hn ▸ ⟨rfl, rfl⟩)
    · rw [hr, List.length_append, List.length_singleton]

/-- R166: a removal. -/
theorem removeRemote_listed (a : Nat) (k : RemoteKind) (s : State) : Listed a k False s (removeRemote a k s) where
  entry := by
    refine iff_of_false ?_ id
    rintro ⟨e, he, hk⟩
    have hm := (List.mem_filter.mp he).2
    rw [(e.matches_iff a k).mpr hk] at hm
    cases hm
  others e he := by
    show e ∈ s.ann.remote.filter _ ↔ _
    rw [List.mem_filter, Bool.not_eq_true', Bool.eq_false_iff, ne_eq, e.matches_iff]
    exact and_iff_left he
  length := (List.length_filter_le _ _).trans (Nat.le_succ _)

/-- R31: the DURESS entry of the sender. -/
theorem recoverDuress_listed (a : Nat) (c : Announcement) {s : State} (h : s.ann.remote.length < 8) :
    Listed a .duress (c.duressActive = true) s (recoverDuress a c s) := by
  unfold recoverDuress
  split
  · next hd => simpa only [hd] using addRemote_listed a .duress h
  · next hd => simpa only [hd, Bool.false_eq_true] using removeRemote_listed a .duress s

/-- R31: the FIRST_ALARM entry of the sender, which a STATUS of the own area leaves as it is. -/
theorem recoverFirstAlarm_listed (a : Nat) (c : Announcement) {s : State} (h : s.ann.remote.length < 8) :
    (c.stage.ordinal < 2 → Listed a .firstAlarm False s (recoverFirstAlarm a c s)) ∧
    (2 ≤ c.stage.ordinal → s.role = .noArea ∨ c.area ≠ s.area →
      Listed a .firstAlarm True s (recoverFirstAlarm a c s)) ∧
    ∀ e, ¬(e.station = a ∧ e.kind = .firstAlarm) → (e ∈ (recoverFirstAlarm a c s).ann.remote ↔ e ∈ s.ann.remote) := by
  have hout : outsideArea s c = true ↔ s.role = .noArea ∨ c.area ≠ s.area := by simp [outsideArea]
  unfold recoverFirstAlarm
  split
  · have k := removeRemote_listed a .firstAlarm s
    exact ⟨fun _ => k, fun _ => by omega, k.others⟩
  · split
    · have k := addRemote_listed a .firstAlarm h
      exact ⟨fun _ => by omega, fun _ _ => k, k.others⟩
    · next hn => exact ⟨fun _ => by omega, fun _ ho => absurd (hout.mpr ho) hn, fun _ _ => .rfl⟩

theorem adoptPosture_remote (a : Nat) (p : Posture) (e : Byte) (s : State) :
    (adoptPosture a p e s).ann.remote = s.ann.remote := by
  unfold adoptPosture
  split
  · exact (askStatus_only _).remote
  · rfl

theorem viewRecovered_remote (a : Nat) (c : Announcement) (s : State) :
    (viewRecovered a c s).ann.remote = s.ann.remote :=
  ((mirrorStatus_only a c _).remote.trans (settle_handed _).remote).trans
    ((adoptPosture_remote a c.posture c.epoch _).trans (settle_handed s).remote)

/-- R31: a STATUS brings a list with two places free into line with what its sender announces. -/
theorem statusOwner_remote (a : Nat) (c : Announcement) {s : State} (h : s.ann.remote.length ≤ 6) :
    let t := statusOwner a (.status c) s
    ((∃ e ∈ t.ann.remote, e.station = a ∧ e.kind = .duress) ↔ c.duressActive = true) ∧
    (c.stage.ordinal < 2 → ∀ e ∈ t.ann.remote, ¬(e.station = a ∧ e.kind = .firstAlarm)) ∧
    (2 ≤ c.stage.ordinal → s.role = .noArea ∨ c.area ≠ s.area →
      ∃ e ∈ t.ann.remote, e.station = a ∧ e.kind = .firstAlarm) ∧
    (∀ e, e.station ≠ a → (e ∈ t.ann.remote ↔ e ∈ s.ann.remote)) := by
  intro t
  have hdetect := ((recoverDetections_only a c s).toHanded.trans (settle_handed _))
  obtain ⟨u, hu⟩ : ∃ u, settle (recoverDetections a c s) = u := ⟨_, rfl⟩
  rw [hu] at hdetect
  have hduress := (recoverDuress_listed a c (s := u) (by rw [hdetect.remote]; omega)).congr hdetect.remote
    (settle_handed (recoverDuress a c u)).remote
  have hspare := (recoverDuress_spares a c u).trans (settle_handed _).spares
  obtain ⟨v, hv⟩ : ∃ v, settle (recoverDuress a c u) = v := ⟨_, rfl⟩
  rw [hv] at hduress hspare
  have hlen : v.ann.remote.length < 8 := by have := hduress.length; omega
  have ht : t.ann.remote = (recoverFirstAlarm a c v).ann.remote := by
    refine (viewRecovered_remote a c _).trans ((recoverAbort_only a c (listsRecovered a c s)).remote.trans ?_)
    rw [listsRecovered, hu, hv]
    exact (settle_handed _).remote
  obtain ⟨hgone, hthere, hothers⟩ := recoverFirstAlarm_listed a c hlen
  rw [hspare.role, hspare.area, hdetect.role, hdetect.area] at hthere
  rw [ht]
  refine ⟨?_, fun ho e he hk => (hgone ho).entry.mp ⟨e, he, hk⟩, fun ho hr => (hthere ho hr).entry.mpr trivial,
    fun e he => (hothers e fun k => he k.1).trans (hduress.others e fun k => he k.1)⟩
  rw [← hduress.entry]
  refine exists_congr fun e => and_congr_left fun hk => hothers e fun k => ?_
  exact absurd (hk.2.symm.trans k.2) (by decide)

/-! ## The commands -/

theorem exec_statusFrame {s : State} {dt a : Nat} {bits : List Bool} {f : Frame}
    (h : Reaches { kind := 6, dt := dt, bits := bits } s a f) :
    exec (.statusFrame dt bits) s =
      .next (settle (statusOwner a f (evalOccupancy (s.heard { kind := 6, dt := dt, bits := bits } a f)))) :=
  congrArg Host.Outcome.next (receiveFrame_reaches h statusOwner)

theorem exec_queryFrame {s : State} {dt a : Nat} {bits : List Bool} {f : Frame}
    (h : Reaches { kind := 7, dt := dt, bits := bits } s a f) :
    exec (.queryFrame dt bits) s =
      .next (settle (queryOwner a f (evalOccupancy (s.heard { kind := 7, dt := dt, bits := bits } a f)))) :=
  congrArg Host.Outcome.next (receiveFrame_reaches h queryOwner)

theorem heard_img (s : State) (c : FrameCall) (a : Nat) (f : Frame) : (s.heard c a f).img = s.img := by
  simp [State.img, State.heard]

theorem heard_role (s : State) (c : FrameCall) (a : Nat) (f : Frame) : (s.heard c a f).role = s.role := by
  rw [State.role, heard_img, State.role]

theorem heard_area (s : State) (c : FrameCall) (a : Nat) (f : Frame) : (s.heard c a f).area = s.area := by
  rw [State.area, heard_img, State.area]

/-- Settles O15: the answer is `settle_askStatus`, and the list is brought into line by `statusOwner_remote`. -/
theorem queriesAndRecovery : Obligations.QueriesAndRecovery := by
  unfold Obligations.QueriesAndRecovery
  refine ⟨fun s dt a bits h => ?_, fun s dt a bits c h hl => ?_⟩
  · obtain ⟨w, hw⟩ : ∃ w, s.heard { kind := 7, dt := dt, bits := bits } a .query = w := ⟨_, rfl⟩
    have he := exec_queryFrame h
    obtain ⟨hqueue, hann⟩ := heard_bus s { kind := 7, dt := dt, bits := bits } a .query
    obtain ⟨hroster, -, -, hstartup, -, -⟩ := heard_rest s { kind := 7, dt := dt, bits := bits } a .query
    have hrest : w.posture = s.posture ∧ w.ann = s.ann := by simp [← hw, State.heard]
    rw [hw] at he hqueue hann hroster hstartup
    have ho := (evalOccupancy_only w).toHanded
    have k := (ho.trans (queryOwner_handed a .query _)).trans (settle_handed _)
    refine ⟨_, he, fun hp ha hq => ?_, k.roster.trans hroster, k.view.trans (by rw [hrest.1]),
      k.remote.trans (by rw [hrest.2])⟩
    have hrun : (evalOccupancy w).startup.phase = .run := by rw [ho.startup, hstartup, hp]
    have hplaces : places w.bus.queue ≤ 6 := places_le _ (by rw [hqueue]; omega)
    have hasks : queryOwner a .query (evalOccupancy w) = askStatus (evalOccupancy w) := if_pos hrun
    rw [hasks]
    exact settle_askStatus (running_of_run hrun) (ho.announcing.trans (hann.trans ha)) (evalOccupancy_places hplaces)
  · refine ⟨_, exec_statusFrame h, ?_⟩
    have ho := (evalOccupancy_only (s.heard { kind := 6, dt := dt, bits := bits } a (.status c))).toHanded
    have hr : (s.heard { kind := 6, dt := dt, bits := bits } a (.status c)).ann = s.ann := by simp [State.heard]
    have hremote := ho.remote.trans (congrArg Annunciator.remote hr)
    have k := statusOwner_remote a c (s := evalOccupancy (s.heard { kind := 6, dt := dt, bits := bits } a (.status c)))
      (by rw [hremote]; exact hl)
    rw [hremote, ho.role, ho.area, heard_role, heard_area] at k
    rwa [(settle_handed _).remote]

end Sys2Proof.Machine
end

section
/-! SUPPORT. What the stage machine, the coincidence list and a settling leave of the Sequencer: the list, the abort set and
the mirror, and a stage that neither the list nor the area occupancy moves (chapters 3 and 4). -/

namespace Sys2Proof.Machine

/-! ## What the stage machine does not write -/

/-- The list, the abort set, its stuck timer and the mirror of the Sequencer stand. -/
structure Staged (s t : State) : Prop where
  list : t.seq.list = s.seq.list
  abortSet : t.seq.abortSet = s.seq.abortSet
  abortStuck : t.seq.abortStuck = s.seq.abortStuck
  mirror : t.seq.mirror = s.seq.mirror

theorem Staged.refl (s : State) : Staged s s := ⟨rfl, rfl, rfl, rfl⟩

theorem Staged.trans {s t u : State} (h : Staged s t) (k : Staged t u) : Staged s u :=
  ⟨k.list.trans h.list, k.abortSet.trans h.abortSet, k.abortStuck.trans h.abortStuck, k.mirror.trans h.mirror⟩

theorem Staged.of_eq {s t : State} (h : t.seq = s.seq) : Staged s t := by
  constructor <;> rw [h]

theorem Staged.of_apart {s t : State} (h : t.seq.apart = s.seq.apart) : Staged s t := by
  obtain ⟨-, hm, ha, hl⟩ := apart_fields h
  exact ⟨hl, ha, (congrArg Sequencer.abortStuck h :), hm⟩

theorem Staged.setSeq (s : State) (q : Sequencer) (hl : q.list = s.seq.list := by rfl)
    (ha : q.abortSet = s.seq.abortSet := by rfl) (hs : q.abortStuck = s.seq.abortStuck := by rfl)
    (hm : q.mirror = s.seq.mirror := by rfl) : Staged s (s.setSeq q) :=
  ⟨hl, ha, hs, hm⟩

theorem sendNotice_staged (s : State) : Staged s (sendNotice s) := by
  constructor <;> rw [sendNotice_seq]

theorem enterStage_staged (st : Stage) (s : State) : Staged s (enterStage st s) :=
  (Staged.setSeq s _).trans (sendNotice_staged _)

theorem energiseValve_staged (s : State) : Staged s (energiseValve s) := by
  have raised (u : State) : Staged u (trigger .discharge u) := .of_eq (trigger_only .discharge u (by decide)).seq_eq
  unfold energiseValve
  dsimp only
  split
  · exact ((Staged.setSeq s _).trans (raised _)).trans ((Staged.setSeq _ _).trans (sendNotice_staged _))
  · exact (Staged.setSeq s _).trans (raised _)

theorem enterReleasing_staged (s : State) : Staged s (enterReleasing s) := by
  unfold enterReleasing
  dsimp only
  split
  · exact (enterStage_staged _ s).trans (energiseValve_staged _)
  · exact (enterStage_staged _ s).trans (.setSeq _ _)

theorem enterCountdown_staged (r : Nat) (s : State) : Staged s (enterCountdown r s) := by
  unfold enterCountdown
  split
  · exact enterReleasing_staged s
  · exact (Staged.setSeq s _).trans (sendNotice_staged _)

theorem startCountdown_staged (r : Nat) (s : State) : Staged s (startCountdown r s) := by
  unfold startCountdown
  split
  · exact enterCountdown_staged r s
  · exact (Staged.setSeq s _).trans (sendNotice_staged _)

theorem coincidenceMet_staged (s : State) : Staged s (coincidenceMet s) := by
  unfold coincidenceMet
  split
  · split
    · exact enterStage_staged _ s
    · exact startCountdown_staged _ s
  · exact .refl s

theorem followList_staged (s : State) : Staged s (followList s) := by
  unfold followList
  split
  · exact enterStage_staged _ s
  · split
    · exact enterStage_staged _ s
    · exact .refl s

theorem evalOccupancy_staged (s : State) : Staged s (evalOccupancy s) := by
  unfold evalOccupancy
  dsimp only
  split
  · exact .refl s
  · split
    · exact (Staged.setSeq s _).trans (startCountdown_staged _ _)
    · exact .setSeq s _

theorem settle_staged (s : State) : Staged s (settle s) := by
  cases hr : s.running
  · exact .of_eq (by rw [settle_of_stopped s hr])
  · exact (evalOccupancy_staged s).trans (.of_apart (settle_seq s hr).1)

/-- R45, R46: a change of the list moves the stage and consumes entries; the abort set and the mirror stand. -/
theorem listChanged_aside (s : State) :
    (listChanged s).seq.abortSet = s.seq.abortSet ∧ (listChanged s).seq.mirror = s.seq.mirror := by
  unfold listChanged
  split
  · split
    · have h := (coincidenceMet_staged (latchList s)).trans (followList_staged _)
      exact ⟨h.abortSet, h.mirror⟩
    · have h := followList_staged s
      exact ⟨h.abortSet, h.mirror⟩
  · exact ⟨rfl, rfl⟩

/-! ## A stage that stands -/

/-- The stage is one that neither the list nor the area occupancy moves: it has left FIRST_ALARM behind, or is ISOLATED. -/
structure Underway (s : State) : Prop where
  normal : s.seq.stage ≠ .normal
  firstAlarm : s.seq.stage ≠ .firstAlarm
  inhibited : s.seq.stage ≠ .inhibited

/-- The stage stands, and so does what remains of a countdown that is held. -/
structure Stands (s t : State) : Prop where
  stage : t.seq.stage = s.seq.stage
  frozen : t.seq.frozen = s.seq.frozen

theorem Stands.refl (s : State) : Stands s s := ⟨rfl, rfl⟩

theorem Stands.trans {s t u : State} (h : Stands s t) (k : Stands t u) : Stands s u :=
  ⟨k.stage.trans h.stage, k.frozen.trans h.frozen⟩

theorem Stands.of_eq {s t : State} (h : t.seq = s.seq) : Stands s t := by
  constructor <;> rw [h]

theorem Stands.of_apart {s t : State} (h : t.seq.apart = s.seq.apart) : Stands s t :=
  ⟨(congrArg Sequencer.stage h :), (congrArg Sequencer.frozen h :)⟩

theorem Stands.underway {s t : State} (h : Stands s t) (k : Underway s) : Underway t := by
  obtain ⟨hn, hf, hi⟩ := k
  rw [← h.stage] at hn hf hi
  exact ⟨hn, hf, hi⟩

theorem Underway.noStart {s : State} (h : Underway s) : s.NoStart := .inl h.inhibited

theorem evalOccupancy_stands {s : State} (h : Underway s) : Stands s (evalOccupancy s) := by
  rw [evalOccupancy_of_noStart s h.noStart]
  exact ⟨rfl, rfl⟩

theorem settle_stands {s : State} (h : Underway s) : Stands s (settle s) :=
  .of_apart ((settle_after s).seq h.noStart)

theorem listChanged_stands {s : State} (h : Underway s) : Stands s (listChanged s) := by
  have follows (u : State) (k : Stands s u) : Stands s (followList u) := by
    obtain ⟨hn, hf, -⟩ := k.underway h
    rwa [followList_of_other hn hf]
  unfold listChanged
  split
  · split
    · have hm : coincidenceMet (latchList s) = latchList s := if_neg (not_or.mpr ⟨h.normal, h.firstAlarm⟩)
      rw [hm]
      exact follows _ ⟨rfl, rfl⟩
    · exact follows s (.refl s)
  · exact .refl s

/-! ## A recovered detection -/

/-- The station with another coincidence list. -/
def State.withList (s : State) (list : List Detection) : State := s.setSeq { s.seq with list := list }

/-- R30, R38: a recovered detection changes nothing where its entry is there, or where the list takes no more; else it
joins the list with the room made for it, and the list is followed. -/
theorem detect_recovered (a : Nat) (l : Fin 4) (g : Group) (s : State) : detect true a l g s = s ∨
    ∃ room, detect true a l g s = listChanged (s.withList (room ++ [newDetection s a l g])) := by
  unfold detect
  split
  · exact .inl rfl
  · split
    · exact .inl rfl
    · split
      · exact .inr ⟨_, rfl⟩
      · exact .inl rfl

/-- What a change of the list, if any, leaves of the Sequencer and the queue. -/
structure ListOnly (s t : State) : Prop where
  abortSet : t.seq.abortSet = s.seq.abortSet
  mirror : t.seq.mirror = s.seq.mirror
  stands : Underway s → Stands s t
  sent : Sent s.bus.queue t.bus.queue

theorem ListOnly.refl (s : State) : ListOnly s s := ⟨rfl, rfl, fun _ => .refl s, .refl _⟩

theorem ListOnly.trans {s t u : State} (h : ListOnly s t) (k : ListOnly t u) : ListOnly s u where
  abortSet := k.abortSet.trans h.abortSet
  mirror := k.mirror.trans h.mirror
  stands hs := (h.stands hs).trans (k.stands ((h.stands hs).underway hs))
  sent := h.sent.trans k.sent

/-- What leaves the whole Sequencer and the queue alone changes no list. -/
theorem ListOnly.of_eq {s t : State} (h : t.seq = s.seq) (hb : t.bus.queue = s.bus.queue) : ListOnly s t :=
  ⟨by rw [h], by rw [h], fun _ => .of_eq h, .of_eq hb⟩

theorem detect_recovered_only (a : Nat) (l : Fin 4) (g : Group) (s : State) : ListOnly s (detect true a l g s) := by
  rcases detect_recovered a l g s with h | ⟨room, h⟩ <;> rw [h]
  · exact .refl s
  · obtain ⟨ha, hm⟩ := listChanged_aside (s.withList (room ++ [newDetection s a l g]))
    have sent := (listChanged_notified (s.withList (room ++ [newDetection s a l g]))).told.sent
    refine ⟨ha, hm, fun hs => ?_, sent⟩
    have k : Stands s (s.withList (room ++ [newDetection s a l g])) := ⟨rfl, rfl⟩
    exact k.trans (listChanged_stands (k.underway hs))

theorem recoverDetections_listOnly (a : Nat) (c : Announcement) (s : State) :
    ListOnly s (recoverDetections a c s) := by
  have fold (ls : List (Fin 4)) (u : State) : ListOnly u (ls.foldl (recoverLine a c) u) := by
    induction ls generalizing u with
    | nil => exact .refl u
    | cons l ls ih =>
      refine ListOnly.trans ?_ (ih _)
      unfold recoverLine
      split
      · exact detect_recovered_only a l _ u
      · exact .refl u
  unfold recoverDetections
  split
  · exact fold allLines s
  · exact .refl s

theorem settle_listOnly (s : State) : ListOnly s (settle s) :=
  ⟨(settle_staged s).abortSet, (settle_staged s).mirror, settle_stands, settle_sent s⟩

theorem evalOccupancy_listOnly (s : State) : ListOnly s (evalOccupancy s) :=
  ⟨(evalOccupancy_staged s).abortSet, (evalOccupancy_staged s).mirror, evalOccupancy_stands, (evalOccupancy_told s).sent⟩

/-! ## The remote list and the posture -/

/-- The remote list is no part of the Sequencer; an eviction settles, and moves it no more than that. -/
theorem addRemote_sequencer (a : Nat) (k : RemoteKind) (s : State) :
    (addRemote a k s).seq.list = s.seq.list ∧ ListOnly s (addRemote a k s) := by
  unfold addRemote
  split
  · exact ⟨rfl, .refl s⟩
  · split
    · exact ⟨rfl, .of_eq rfl rfl⟩
    · have evicted (x : Annunciator) : ListOnly s (settle (s.setAnn x)) :=
        (ListOnly.of_eq (s := s) (t := s.setAnn x) rfl rfl).trans (settle_listOnly _)
      have list (x : Annunciator) : (settle (s.setAnn x)).seq.list = s.seq.list := (settle_staged _).list
      exact ⟨list _, (evicted _).trans (.of_eq rfl rfl)⟩

theorem recoverDuress_sequencer (a : Nat) (c : Announcement) (s : State) :
    (recoverDuress a c s).seq.list = s.seq.list ∧ ListOnly s (recoverDuress a c s) := by
  unfold recoverDuress
  split
  · exact addRemote_sequencer a _ s
  · exact ⟨rfl, .of_eq rfl rfl⟩

theorem recoverFirstAlarm_sequencer (a : Nat) (c : Announcement) (s : State) :
    (recoverFirstAlarm a c s).seq.list = s.seq.list ∧ ListOnly s (recoverFirstAlarm a c s) := by
  unfold recoverFirstAlarm
  split
  · exact ⟨rfl, .of_eq rfl rfl⟩
  · split
    · exact addRemote_sequencer a _ s
    · exact ⟨rfl, .refl s⟩

theorem adoptPosture_seq (a : Nat) (p : Posture) (e : Byte) (s : State) : (adoptPosture a p e s).seq = s.seq := by
  unfold adoptPosture
  split
  · exact (askStatus_only _).seq_eq
  · rfl

/-- R30, R31: what a STATUS does before the abort set follows it. -/
theorem listsRecovered_listOnly (a : Nat) (c : Announcement) (s : State) : ListOnly s (listsRecovered a c s) :=
  (((recoverDetections_listOnly a c s).trans (settle_listOnly _)).trans
    ((recoverDuress_sequencer a c _).2.trans (settle_listOnly _))).trans
    ((recoverFirstAlarm_sequencer a c _).2.trans (settle_listOnly _))

/-- R30: the list is what the recovered detections made of it. -/
theorem listsRecovered_list (a : Nat) (c : Announcement) (s : State) :
    (listsRecovered a c s).seq.list = (recoverDetections a c s).seq.list :=
  ((settle_staged _).list.trans (recoverFirstAlarm_sequencer a c _).1).trans
    (((settle_staged _).list.trans (recoverDuress_sequencer a c _).1).trans (settle_staged _).list)

end Sys2Proof.Machine
end

section
/-! SUPPORT. The detections that a STATUS recovers (R30), the abort set and the mirror under it (R32, R33), and the whole of
a STATUS. -/

namespace Sys2Proof.Machine

/-! ## Detections made good (R30) -/

/-- R30: no coincidence can come of a new entry: the station keeps the list only, or is ISOLATED. -/
def State.KeepsList (s : State) : Prop := s.role = .member ∨ s.role = .release ∧ s.seq.stage = .isolated

theorem State.KeepsList.congr {s t : State} (h : s.KeepsList) (hr : t.role = s.role)
    (hs : Underway s → Stands s t) : t.KeepsList := by
  rcases h with h | ⟨h, hi⟩
  · exact .inl (hr.trans h)
  · have hu : Underway s := by constructor <;> rw [hi] <;> decide
    exact .inr ⟨hr.trans h, (hs hu).stage.trans hi⟩

theorem State.KeepsList.role {s : State} (h : s.KeepsList) : s.role ≠ .noArea := by
  rcases h with h | ⟨h, -⟩ <;> rw [h] <;> decide

theorem State.KeepsList.listChanged {s : State} (h : s.KeepsList) : listChanged s = s := by
  rcases h with h | ⟨h, hi⟩
  · exact listChanged_of_role (by rw [h]; decide)
  · rw [listChanged_of_noMeeting h (.inr (.inl hi)), followList_of_other] <;> rw [hi] <;> decide

/-- The group that a STATUS announces of a line (R17). -/
def announcedGroup (c : Announcement) (l : Fin 4) : Group := if c.groupMask.getLsbD l.val then .g2 else .g1

/-- R30: a line that a STATUS marks and the list misses. -/
def missed (a : Nat) (c : Announcement) (list : List Detection) (l : Fin 4) : Bool :=
  c.alarmMask.getLsbD l.val && !list.any (fun e => e.station == a && e.line == l)

/-- R30: one line, where the list has room. -/
theorem recoverLine_eq {a : Nat} {c : Announcement} {s : State} {l : Fin 4} (h : s.KeepsList)
    (hl : s.seq.list.length < 8) : recoverLine a c s l =
      if missed a c s.seq.list l then
        s.withList (s.seq.list ++ [newDetection s a l (announcedGroup c l)])
      else s := by
  unfold recoverLine missed
  cases c.alarmMask.getLsbD l.val
  · rfl
  rw [if_pos rfl, Bool.true_and]
  have hroom : makeRoom s.seq.list = some s.seq.list := if_pos hl
  unfold detect
  rw [if_neg h.role]
  cases hf : s.seq.list.find? (fun e => e.names a l) with
  | some e =>
    have hany : s.seq.list.any (fun e => e.station == a && e.line == l) = true :=
      List.any_eq_true.mpr ⟨e, List.mem_of_find?_eq_some hf, List.find?_some (p := fun e : Detection => e.names a l) hf⟩
    rw [hany]
    rfl
  | none =>
    have hany : s.seq.list.any (fun e => e.station == a && e.line == l) = false := by
      rw [List.any_eq_false]
      exact List.find?_eq_none.mp hf
    rw [hany]
    simp only [hroom]
    exact State.KeepsList.listChanged (s := s.withList _) h

/-- R30: lines one after the other, each once. An entry made for one is not of another. -/
theorem recoverLines_eq {a : Nat} {c : Announcement} (ls : List (Fin 4)) (hd : ls.Nodup) {s : State} (h : s.KeepsList)
    (hl : s.seq.list.length + ls.length ≤ 8) : ls.foldl (recoverLine a c) s = s.withList (s.seq.list ++
      (ls.filter (missed a c s.seq.list)).map (fun l => newDetection s a l (announcedGroup c l))) := by
  induction ls generalizing s with
  | nil =>
    rw [List.filter_nil, List.map_nil, List.append_nil]
    rfl
  | cons l ls ih =>
    obtain ⟨hl', hd⟩ := List.nodup_cons.mp hd
    rw [List.length_cons] at hl
    rw [List.foldl_cons, recoverLine_eq h (by omega), List.filter_cons]
    split
    · have hk : ∀ k ∈ ls, missed a c (s.seq.list ++ [newDetection s a l (announcedGroup c l)]) k =
          missed a c s.seq.list k := fun k hk => by
        have hne : (l == k) = false := by
          rw [beq_eq_false_iff_ne]
          exact fun e => hl' (e ▸ hk)
        simp [missed, newDetection, hne]
      have hn : (s.withList (s.seq.list ++ [newDetection s a l (announcedGroup c l)])).seq.list.length + ls.length ≤ 8 := by
        rw [State.withList, State.setSeq_seq, List.length_append, List.length_singleton]
        omega
      refine (ih hd (s := s.withList (s.seq.list ++ [newDetection s a l (announcedGroup c l)])) h hn).trans
        (congrArg s.withList ?_)
      show s.seq.list ++ [newDetection s a l (announcedGroup c l)] ++
        (ls.filter (missed a c (s.seq.list ++ [newDetection s a l (announcedGroup c l)]))).map
          (fun k => newDetection s a k (announcedGroup c k)) = _
      rw [List.filter_congr hk, List.append_assoc, List.map_cons]
      rfl
    · exact ih hd h (by omega)

/-- R30: a STATUS of the own area enters what the list misses. -/
theorem recoverDetections_list {a : Nat} {c : Announcement} {s : State} (h : s.KeepsList)
    (hl : s.seq.list.length ≤ 4) (ha : c.area = s.area) : (recoverDetections a c s).seq.list = s.seq.list ++
      (allLines.filter (missed a c s.seq.list)).map (fun l => newDetection s a l (announcedGroup c l)) := by
  have he : recoverDetections a c s = allLines.foldl (recoverLine a c) s := if_pos ⟨h.role, ha⟩
  rw [he, recoverLines_eq allLines (by decide) h (by show _ + 4 ≤ 8; omega)]
  rfl

/-- R30: one of another area, or at a station with role NONE, enters nothing. -/
theorem recoverDetections_of_outside {a : Nat} {c : Announcement} {s : State} (h : s.role = .noArea ∨ c.area ≠ s.area) :
    recoverDetections a c s = s := if_neg fun ⟨hr, ha⟩ => h.elim hr fun hn => hn ha

/-! ## The abort set (R32) -/

/-- R58, R60: the stage machine follows a departure from the abort set; the list and the mirror stand. -/
theorem abortLeave_fields (a : Nat) (s : State) :
    (abortLeave a s).seq.list = s.seq.list ∧ (abortLeave a s).seq.mirror = s.seq.mirror ∧
      (abortLeave a s).seq.abortSet = s.seq.abortSet.filter (· != a) := by
  unfold abortLeave
  dsimp only
  split
  · split
    · next hr =>
      rw [hr]
      split
      · have h := enterCountdown_staged (resumeRemaining (s.setSeq { s.seq with abortSet := [], abortStuck := none }).img
          s.seq.frozen) (s.setSeq { s.seq with abortSet := [], abortStuck := none })
        exact ⟨h.list, h.mirror, h.abortSet⟩
      · exact ⟨rfl, rfl, rfl⟩
    · exact ⟨rfl, rfl, rfl⟩
  · next hn =>
    refine ⟨rfl, rfl, (List.filter_eq_self.mpr fun b hb => bne_iff_ne.mpr ?_).symm⟩
    rintro rfl
    exact hn (List.contains_iff_mem.mpr hb)

theorem recoverAbort_fields (a : Nat) (c : Announcement) (s : State) :
    (recoverAbort a c s).seq.list = s.seq.list ∧ (recoverAbort a c s).seq.mirror = s.seq.mirror := by
  unfold recoverAbort
  split
  · exact ⟨(abortLeave_fields a s).1, (abortLeave_fields a s).2.1⟩
  · exact ⟨rfl, rfl⟩

theorem recoverAbort_leaves {a : Nat} {c : Announcement} {s : State} (hr : s.role = .release)
    (hc : c.abortHeld = false) : recoverAbort a c s = abortLeave a s := if_pos ⟨hr, hc⟩

/-- R32: only an address of the set leaves it, at a release station, by an announcement. -/
theorem recoverAbort_of_not {a : Nat} {c : Announcement} {s : State}
    (h : s.role ≠ .release ∨ a ∉ s.seq.abortSet ∨ c.abortHeld = true) : recoverAbort a c s = s := by
  unfold recoverAbort
  split
  · next k =>
    obtain ⟨hr, hc⟩ := k
    have ha : a ∉ s.seq.abortSet := by
      rcases h with h | h | h
      · exact absurd hr h
      · exact h
      · rw [hc] at h
        cases h
    exact if_neg fun hm => ha (List.contains_iff_mem.mp hm)
  · rfl

/-- The state with the abort set emptied and the stuck timer stopped (R58). -/
def State.unaborted (s : State) : State := s.setSeq { s.seq with abortSet := [], abortStuck := none }

/-- R58, R60: the last address leaves. -/
theorem abortLeave_last {a : Nat} {s : State} (h : s.seq.abortSet = [a]) : abortLeave a s =
    if s.seq.stage = .held then enterCountdown (resumeRemaining s.img s.seq.frozen) s.unaborted else s.unaborted := by
  unfold abortLeave
  rw [h]
  simp only [List.contains_cons, beq_self_eq_true, Bool.true_or, if_true, List.filter_cons, bne_self_eq_false,
    Bool.false_eq_true, if_false, List.filter_nil]
  rfl

/-- R69: the notice that has been sent says what the state is. -/
theorem sendNotice_notice {s : State} (hp : places s.bus.queue ≤ 6) :
    ∃ e ∈ (sendNotice s).bus.queue, e.frame = noticeFrame (sendNotice s) := by
  obtain ⟨e, he, hf⟩ := (enqueue_told (noticeFrame s) (s.setSeq { s.seq with
    notice := if s.seq.stage.noticed then some (s.now + Config.noticeTime) else none }) (.inl rfl)).2 hp
  refine ⟨e, he, hf.trans ?_⟩
  have ho := sendNotice_only s
  simp only [noticeFrame, State.ownRemaining, State.area, State.img, sendNotice_seq, ho.image, ho.now]

end Sys2Proof.Machine
end

section
/-! SUPPORT. A countdown that the abort set has held alone (R32, R60), the mirror under a STATUS (R33, R72, R76), and what a
STATUS makes good. -/

namespace Sys2Proof.Machine

/-! ## A held countdown resumes -/

/-- A notice that says what the state is waits, and the queue has room for what follows. -/
structure Tells (s : State) : Prop where
  room : places s.bus.queue ≤ 6
  waits : ∃ e ∈ s.bus.queue, e.frame = noticeFrame s

/-- R58, R60: the last address leaves the abort set in a stage that is not HELD. -/
theorem abortLeave_last_of_ne {a : Nat} {s : State} (h : s.seq.abortSet = [a]) (hs : s.seq.stage ≠ .held) :
    abortLeave a s = s.unaborted := by
  rw [abortLeave_last h, if_neg hs]

/-- R60: what remains runs again, and a notice tells it. -/
theorem enterCountdown_runs {r : Nat} {s : State} (hr : r ≠ 0) :
    (enterCountdown r s).seq.stage = .countdown ∧ (enterCountdown r s).seq.countdown = some (s.now + r) ∧
      (enterCountdown r s).seq.frozen = 0 ∧ (places s.bus.queue ≤ 6 → Tells (enterCountdown r s)) := by
  have he : enterCountdown r s =
      sendNotice (s.setSeq { s.seq with stage := .countdown, countdown := some (s.now + r), frozen := 0 }) := if_neg hr
  have hsent := (sendNotice_told (s.setSeq { s.seq with
    stage := .countdown, countdown := some (s.now + r), frozen := 0 })).sent
  rw [he, sendNotice_seq]
  exact ⟨rfl, rfl, rfl, fun hp => ⟨(hsent hp).1, sendNotice_notice hp⟩⟩

theorem enterCountdown_expires (s : State) : (enterCountdown 0 s).seq.stage = .releasing := enterReleasing_stage s

/-- What follows from an event in which INHIBITED does not end: the Sequencer but for its occupancy and its cadence, and a
notice that waits, stand. -/
structure Onward (s t : State) : Prop where
  apart : t.seq.apart = s.seq.apart
  tells : Tells s → Tells t

theorem Onward.refl (s : State) : Onward s s := ⟨rfl, id⟩

theorem Onward.trans {s t u : State} (h : Onward s t) (k : Onward t u) : Onward s u :=
  ⟨k.apart.trans h.apart, fun ht => k.tells (h.tells ht)⟩

theorem Onward.stage {s t : State} (h : Onward s t) : t.seq.stage = s.seq.stage := (congrArg Sequencer.stage h.apart :)

theorem settle_onward {s : State} (h : s.seq.stage ≠ .inhibited) : Onward s (settle s) := by
  have ha := settle_after s
  have hs : s.NoStart := .inl h
  refine ⟨ha.seq hs, fun ⟨hp, e, he, hf⟩ => ⟨(settle_sent s hp).1, e, settle_others s hs hp e he ?_, ?_⟩⟩
  · rw [hf]
    exact (by decide : 0 ≠ 6)
  · rw [hf, noticeFrame_congr (ha.seq hs) ha.handed.image ha.handed.now]

theorem askStatus_onward (s : State) : Onward s (askStatus s) := by
  have ho := askStatus_only s
  refine ⟨by rw [ho.seq_eq], fun ⟨hp, e, he, hf⟩ => ?_⟩
  have told : Told 6 s.bus.queue (askStatus s).bus.queue := by
    have asked (b : Bus) (c : Announcement) (hb : b.queue = s.bus.queue) :
        Told 6 s.bus.queue (enqueue (.status c) (s.setBus b)).bus.queue := by
      have h := (enqueue_told (.status c) (s.setBus b) (.inr rfl)).1
      rwa [State.setBus_bus, hb] at h
    unfold askStatus requestStatus
    split
    · exact asked _ _ rfl
    · exact .refl 6 _
  refine ⟨(told.sent hp).1, e, told.stay hp e he ?_, ?_⟩
  · rw [hf]
    exact (by decide : 0 ≠ 6)
  · rw [hf, noticeFrame_congr (by rw [ho.seq_eq]) ho.image ho.now]

theorem adoptPosture_onward (a : Nat) (p : Posture) (e : Byte) (s : State) : Onward s (adoptPosture a p e s) := by
  unfold adoptPosture
  split
  · have view (x : PostureUnit) : Onward s (s.setPosture x) := ⟨rfl, fun ⟨hp, hw⟩ => ⟨hp, hw⟩⟩
    exact (view _).trans (askStatus_onward _)
  · exact .refl s

/-- R33: the release station keeps no mirror. -/
theorem mirrorStatus_of_not {a : Nat} {c : Announcement} {s : State}
    (h : ¬(s.releaseStation = some a ∧ noticesMissing s = true)) : mirrorStatus a c s = s := if_neg h

theorem releaseStation_of_release {s : State} (h : s.role = .release) : s.releaseStation = none := by
  unfold State.releaseStation
  rw [h]

/-- R32: what a STATUS does after the abort set, at a release station that has left INHIBITED. -/
theorem viewRecovered_onward {a : Nat} {c : Announcement} {s : State} (hr : s.role = .release)
    (hi : s.seq.stage ≠ .inhibited) : Onward s (settle (viewRecovered a c s)) := by
  have h1 := (settle_onward hi).trans (adoptPosture_onward a c.posture c.epoch _)
  have h2 := h1.trans (settle_onward (by rwa [h1.stage]))
  have hs := ((settle_handed s).spares.trans (adoptPosture_spares a c.posture c.epoch _)).trans (settle_handed _).spares
  have hm : viewRecovered a c s = settle (adoptPosture a c.posture c.epoch (settle s)) := mirrorStatus_of_not fun k => by
    rw [hs.releaseStation, releaseStation_of_release hr] at k
    cases k.1
  rw [hm]
  exact h2.trans (settle_onward (by rwa [h2.stage]))

/-- R60, R69: the last address has left the abort set of `w`, which stands where `s` did, and `t` is what follows. -/
theorem lastAbort_of {a : Nat} {s w t : State} (hset : w.seq.abortSet = [a]) (himg : w.img = s.img)
    (hstands : Stands s w) (hnow : t.now = w.now) (room : s.bus.queue.length ≤ 3 → places w.bus.queue ≤ 6)
    (h : Onward (abortLeave a w) t) : LastAbort s t := by
  have leaves : (abortLeave a w).seq.abortStuck = none := by
    rw [abortLeave_last hset]
    split
    · exact (enterCountdown_staged _ _).abortStuck
    · rfl
  obtain ⟨-, -, habort⟩ := abortLeave_fields a w
  rw [hset, List.filter_cons_of_neg (by simp), List.filter_nil] at habort
  unfold LastAbort
  refine ⟨(congrArg Sequencer.abortSet h.apart :).trans habort, (congrArg Sequencer.abortStuck h.apart :).trans leaves,
    fun hs => ?_, fun hs => ?_⟩
  · rw [h.stage, abortLeave_last_of_ne hset (by rwa [hstands.stage])]
    exact hstands.stage
  · obtain ⟨r, hr⟩ : ∃ r, resumeRemaining s.img s.seq.frozen = r := ⟨_, rfl⟩
    suffices resumed : (r ≠ 0 → t.seq.stage = .countdown ∧ t.seq.countdown = some (t.now + r) ∧ t.seq.frozen = 0 ∧
        (s.bus.queue.length ≤ 3 → NoticeWaits t)) ∧ (r = 0 → t.seq.stage = .releasing) by
      rw [← hr] at resumed
      exact resumed
    have he : abortLeave a w = enterCountdown r w.unaborted := by
      rw [abortLeave_last hset, if_pos (hstands.stage.trans hs), himg, hstands.frozen, hr]
    rw [he] at h
    refine ⟨fun hn => ?_, fun hz => ?_⟩
    · obtain ⟨h1, h2, h3, h4⟩ := enterCountdown_runs (s := w.unaborted) hn
      refine ⟨h.stage.trans h1, (congrArg Sequencer.countdown h.apart :).trans (h2.trans ?_),
        (congrArg Sequencer.frozen h.apart :).trans h3, fun hq => noticeWaits_of _ (h.tells (h4 (room hq))).waits⟩
      rw [hnow]
      rfl
    · rw [h.stage, hz, enterCountdown_expires]

/-! ## The mirror -/

/-- R33: no notice for 3 s, or none since reset. -/
theorem noticesMissing_iff (s : State) :
    noticesMissing s = true ↔ ∀ n, s.seq.mirror.lastNotice = some n → n + 3000000 ≤ s.now := by
  have hm : Config.mirrorAge = 3000000 := rfl
  unfold noticesMissing
  cases s.seq.mirror.lastNotice with
  | none => simp
  | some n =>
    simp only [hm, decide_eq_true_eq, Option.some.injEq, forall_eq']
    omega

/-- R72, R76: the mirror is the one set; DISCHARGE is raised as it passes from ordinal 5 or below to 6 or above. -/
theorem setMirror_sets (m : Mirror) (s : State) : (setMirror m s).seq = { s.seq with mirror := m } ∧
    (s.seq.mirror.stage.ordinal ≤ 5 → 6 ≤ m.stage.ordinal → ((setMirror m s).source .discharge).pending = true) := by
  unfold setMirror
  dsimp only
  split
  · exact ⟨(trigger_only .discharge (s.setSeq _) (by decide)).seq_eq, fun _ _ => trigger_pending .discharge _ (by decide)⟩
  · next h => exact ⟨rfl, fun h1 h2 => absurd ⟨h1, h2⟩ h⟩

theorem mirrorStatus_takes {a : Nat} {c : Announcement} {s : State} (hr : s.releaseStation = some a)
    (hm : noticesMissing s = true) :
    mirrorStatus a c s = setMirror { s.seq.mirror with stage := c.stage, remaining := 0, setAt := s.now } s :=
  if_pos ⟨hr, hm⟩

theorem mirrorStatus_fields (a : Nat) (c : Announcement) (s : State) :
    (mirrorStatus a c s).seq.list = s.seq.list ∧ (mirrorStatus a c s).seq.abortSet = s.seq.abortSet := by
  unfold mirrorStatus
  split
  · rw [(setMirror_sets _ s).1]
    exact ⟨rfl, rfl⟩
  · exact ⟨rfl, rfl⟩

/-! ## A STATUS, all in all -/

/-- R33, R138: a STATUS up to the mirror. -/
def mirrorReached (a : Nat) (c : Announcement) (s : State) : State :=
  settle (adoptPosture a c.posture c.epoch (settle (recoverAbort a c (listsRecovered a c s))))

theorem statusOwner_mirror (a : Nat) (c : Announcement) (s : State) :
    statusOwner a (.status c) s = mirrorStatus a c (mirrorReached a c s) := rfl

/-- What follows the abort set up to the mirror leaves the list, the abort set and the mirror as they are. -/
theorem mirrorReached_staged (a : Nat) (c : Announcement) (s : State) :
    Staged (recoverAbort a c (listsRecovered a c s)) (mirrorReached a c s) :=
  ((settle_staged _).trans (.of_eq (adoptPosture_seq _ _ _ _))).trans (settle_staged _)

theorem mirrorReached_spares (a : Nat) (c : Announcement) (s : State) : Spares s (mirrorReached a c s) :=
  ((listsRecovered_spares a c s).trans ((recoverAbort_only a c _).toHanded.trans (settle_handed _)).spares).trans
    ((adoptPosture_spares a c.posture c.epoch _).trans (settle_handed _).spares)

theorem mirrorReached_mirror (a : Nat) (c : Announcement) (s : State) :
    (mirrorReached a c s).seq.mirror = s.seq.mirror :=
  (mirrorReached_staged a c s).mirror.trans
    ((recoverAbort_fields a c _).2.trans (listsRecovered_listOnly a c s).mirror)

/-- R30: the list after a STATUS is what its recovered detections made of it. -/
theorem settle_statusOwner_list (a : Nat) (c : Announcement) (s : State) :
    (settle (statusOwner a (.status c) s)).seq.list = (recoverDetections a c s).seq.list := by
  rw [(settle_staged _).list, statusOwner_mirror, (mirrorStatus_fields a c _).1, (mirrorReached_staged a c s).list,
    (recoverAbort_fields a c _).1, listsRecovered_list]

/-- R32: the abort set after a STATUS. -/
theorem settle_statusOwner_abortSet (a : Nat) (c : Announcement) (s : State) :
    (settle (statusOwner a (.status c) s)).seq.abortSet = (recoverAbort a c (listsRecovered a c s)).seq.abortSet := by
  rw [(settle_staged _).abortSet, statusOwner_mirror, (mirrorStatus_fields a c _).2, (mirrorReached_staged a c s).abortSet]

/-- R33, R72, R76: the mirror after a STATUS of the release station, where notices are missing. -/
theorem settle_statusOwner_mirror {a : Nat} {c : Announcement} {s : State} (hr : s.releaseStation = some a)
    (hm : ∀ n, s.seq.mirror.lastNotice = some n → n + 3000000 ≤ s.now) :
    let t := settle (statusOwner a (.status c) s)
    t.seq.mirror = { s.seq.mirror with stage := c.stage, remaining := 0, setAt := s.now } ∧
    (s.seq.mirror.stage.ordinal ≤ 5 → 6 ≤ c.stage.ordinal → (t.source .discharge).pending = true) := by
  intro t
  have hs := mirrorReached_spares a c s
  have hmirror := mirrorReached_mirror a c s
  have htakes := mirrorStatus_takes (c := c) (hs.releaseStation.trans hr)
    ((noticesMissing_iff _).mpr (by rw [hmirror, hs.now]; exact hm))
  rw [hmirror, hs.now] at htakes
  obtain ⟨hset, hraised⟩ := setMirror_sets { s.seq.mirror with stage := c.stage, remaining := 0, setAt := s.now }
    (mirrorReached a c s)
  rw [← htakes, ← statusOwner_mirror] at hset hraised
  rw [hmirror] at hraised
  exact ⟨(settle_staged _).mirror.trans (congrArg Sequencer.mirror hset),
    fun h1 h2 => (settle_handed _).raisedStay _ (by decide) (hraised h1 h2)⟩

theorem settle_statusOwner_mirror_of_not {a : Nat} {c : Announcement} {s : State}
    (h : ¬(s.releaseStation = some a ∧ ∀ n, s.seq.mirror.lastNotice = some n → n + 3000000 ≤ s.now)) :
    (settle (statusOwner a (.status c) s)).seq.mirror = s.seq.mirror := by
  have hs := mirrorReached_spares a c s
  have hmirror := mirrorReached_mirror a c s
  rw [(settle_staged _).mirror, statusOwner_mirror, mirrorStatus_of_not, hmirror]
  rwa [noticesMissing_iff, hs.releaseStation, hmirror, hs.now]

/-- R60: the stage that the last departure from the abort set leaves is not INHIBITED. -/
theorem abortLeave_last_underway {a : Nat} {s : State} (h : s.seq.abortSet = [a]) (hu : Underway s) :
    (abortLeave a s).seq.stage ≠ .inhibited := by
  rw [abortLeave_last h]
  split
  · by_cases hr : resumeRemaining s.img s.seq.frozen = 0
    · rw [hr, enterCountdown_expires]
      decide
    · rw [(enterCountdown_runs hr).1]
      decide
  · exact hu.inhibited

/-- R32: the sender alone is in the abort set of a release station, and its STATUS lets it go. -/
theorem settle_statusOwner_onward {a : Nat} {c : Announcement} {s : State} (hr : s.role = .release) (hu : Underway s)
    (hset : s.seq.abortSet = [a]) (hc : c.abortHeld = false) :
    Onward (abortLeave a (listsRecovered a c s)) (settle (statusOwner a (.status c) s)) := by
  have hl := listsRecovered_listOnly a c s
  have hrole := (listsRecovered_spares a c s).role.trans hr
  rw [statusOwner_eq, recoverAbort_leaves hrole hc]
  exact viewRecovered_onward ((abortLeave_only a _).role.trans hrole)
    (abortLeave_last_underway (hl.abortSet.trans hset) ((hl.stands hu).underway hu))

/-! ## The command -/

theorem heard_seq (s : State) (c : FrameCall) (a : Nat) (f : Frame) :
    (s.heard c a f).seq = s.seq ∧ (s.heard c a f).now = s.now + c.dt := by
  simp [State.heard]

/-- The station that a frame has reached, with the area occupancy evaluated, is as it was but for the time, as far as the
recoveries of a STATUS read it. -/
theorem reached_listOnly (s : State) (c : FrameCall) (a : Nat) (f : Frame) :
    ListOnly s (evalOccupancy (s.heard c a f)) := by
  have h : ListOnly s (s.heard c a f) := .of_eq (heard_seq s c a f).1 (heard_bus s c a f).1
  exact h.trans (evalOccupancy_listOnly _)

theorem newDetection_eq (s : State) (a : Nat) (l : Fin 4) (g : Group) : newDetection s a l g = {
    station := a, line := l, group := g, arrival := s.now, consumed := false
    window := some (s.now + s.img.tc * 1000000) } := rfl

/-- Settles O16: each clause is one field of the Sequencer after the STATUS; what comes before and after the recovery that
writes the field leaves it as it is. -/
theorem statusMakesGoodWhatWasLost : Obligations.StatusMakesGoodWhatWasLost := by
  unfold Obligations.StatusMakesGoodWhatWasLost
  intro s dt a bits c h
  obtain ⟨hseq, hnow⟩ := heard_seq s { kind := 6, dt := dt, bits := bits } a (.status c)
  have himg := heard_img s { kind := 6, dt := dt, bits := bits } a (.status c)
  obtain ⟨hroster, hport, -⟩ := heard_rest s { kind := 6, dt := dt, bits := bits } a (.status c)
  have he := exec_statusFrame h
  have hreached := reached_listOnly s { kind := 6, dt := dt, bits := bits } a (.status c)
  generalize s.heard { kind := 6, dt := dt, bits := bits } a (.status c) = v at *
  have ho := (evalOccupancy_only v).toHanded
  have hlist : (evalOccupancy v).seq.list = s.seq.list := (evalOccupancy_list v).1.trans (by rw [hseq])
  have himg : (evalOccupancy v).img = s.img := ho.img.trans himg
  have hnow : (evalOccupancy v).now = s.now + dt := ho.now.trans hnow
  have hroster := ho.roster.trans hroster
  have hport := ho.port.trans hport
  generalize evalOccupancy v = u at *
  have hrole : u.role = s.role := by unfold State.role; rw [himg]
  have harea : u.area = s.area := by unfold State.area; rw [himg]
  have hstation : u.releaseStation = some a ↔ s.role = .member ∧ s.img.members.head? = some a := by
    have := releaseStation_iff u a
    rwa [hrole, himg, Bool.eq_iff_iff, beq_iff_eq, decide_eq_true_eq] at this
  have hspares := (statusOwner_spares a (.status c) u).trans (settle_handed _).spares
  refine ⟨_, he, fun hk hlen => ⟨fun hc => ?_, fun hc => ?_⟩, fun hr => ?_, fun hr hm hc => ⟨?_, fun hi hn hf hset => ?_⟩,
    fun hn => ?_, ⟨fun hr hhead hmiss => ?_, fun hn => ?_⟩, hspares.roster.trans hroster, hspares.port.trans hport⟩
  · rw [settle_statusOwner_list, recoverDetections_list (State.KeepsList.congr hk hrole hreached.stands)
      (by rw [hlist]; exact hlen) (by rw [harea]; exact hc), hlist]
    simp only [newDetection_eq, hnow, himg]
    rfl
  · rw [settle_statusOwner_list, recoverDetections_of_outside (.inr (by rw [harea]; exact hc)), hlist]
  · rw [settle_statusOwner_list, recoverDetections_of_outside (.inl (hrole.trans hr)), hlist]
  · have hl := listsRecovered_spares a c u
    rw [settle_statusOwner_abortSet, recoverAbort_leaves (hl.role.trans (hrole.trans hr)) hc, (abortLeave_fields a _).2.2,
      (listsRecovered_listOnly a c u).abortSet, hreached.abortSet]
  · have hu : Underway s := ⟨hn, hf, hi⟩
    have hl := hreached.trans (listsRecovered_listOnly a c u)
    have hs := listsRecovered_spares a c u
    exact lastAbort_of (hl.abortSet.trans hset) (hs.img.trans himg) (hl.stands hu) (hspares.now.trans hs.now.symm)
      (fun hq => (hl.sent (places_le _ (by omega))).1)
      (settle_statusOwner_onward (hrole.trans hr) ((hreached.stands hu).underway hu) (hreached.abortSet.trans hset) hc)
  · have hl := listsRecovered_listOnly a c u
    rw [settle_statusOwner_abortSet, recoverAbort_of_not, hl.abortSet, hreached.abortSet]
    rwa [(listsRecovered_spares a c u).role, hrole, hl.abortSet, hreached.abortSet]
  · have k := settle_statusOwner_mirror (c := c) (hstation.mpr ⟨hr, hhead⟩) (by rw [hreached.mirror, hnow]; exact hmiss)
    rwa [hreached.mirror, hnow] at k
  · rw [settle_statusOwner_mirror_of_not, hreached.mirror]
    rw [hstation, hreached.mirror, hnow]
    rintro ⟨⟨hr, hhead⟩, hmiss⟩
    rcases hn with hn | hn | hn
    · exact hn hr
    · exact hn hhead
    · exact hn hmiss

end Sys2Proof.Machine
end

section
/-! SUPPORT. A DETECT from the bus on its way to the coincidence list (R24, R28, R38 to R43), and what follows from an event
whose area occupancy has been handed on. -/

namespace Sys2Proof.Machine

/-! ## The station that a frame has reached -/

/-- R28: once the area occupancy has been evaluated, the Sequencer holds it. -/
theorem evalOccupancy_calm {s : State} (h : s.role ≠ .noArea) :
    (evalOccupancy s).areaOccupied = (evalOccupancy s).seq.occupied := by
  rw [(evalOccupancy_only s).toHanded.areaOccupied]
  unfold evalOccupancy
  dsimp only
  split
  · next k => exact k.resolve_left h
  · split
    · exact (startCountdown_advances _ (s.setSeq { s.seq with occupied := s.areaOccupied })).occupied.symm
    · rfl

/-- R24, R28: a frame has reached the station, the area occupancy is evaluated, and the frame's owner has yet to act. -/
def State.reached (s : State) (c : FrameCall) (a : Nat) (f : Frame) : State := evalOccupancy (s.heard c a f)

section
variable (s : State) (c : FrameCall) (a : Nat) (f : Frame)

theorem reached_handed : Handed (s.heard c a f) (s.reached c a f) := (evalOccupancy_only _).toHanded

theorem reached_img : (s.reached c a f).img = s.img := (reached_handed s c a f).img.trans (heard_img s c a f)

theorem reached_role : (s.reached c a f).role = s.role := (reached_handed s c a f).role.trans (heard_role s c a f)

theorem reached_area : (s.reached c a f).area = s.area := (reached_handed s c a f).area.trans (heard_area s c a f)

theorem reached_now : (s.reached c a f).now = s.now + c.dt :=
  (reached_handed s c a f).now.trans (heard_seq s c a f).2

theorem reached_list : (s.reached c a f).seq.list = s.seq.list ∧ (s.reached c a f).seq.latch = s.seq.latch := by
  have h := evalOccupancy_list (s.heard c a f)
  rwa [(heard_seq s c a f).1] at h

theorem reached_abortSet : (s.reached c a f).seq.abortSet = s.seq.abortSet := (reached_listOnly s c a f).abortSet

theorem reached_places (h : s.bus.queue.length ≤ 3) : places (s.reached c a f).bus.queue ≤ 6 :=
  ((reached_listOnly s c a f).sent (places_le _ (by omega))).1

/-- R56: only INHIBITED ends as the area occupancy is evaluated. -/
theorem reached_stage (h : s.seq.stage ≠ .inhibited) : (s.reached c a f).seq.stage = s.seq.stage := by
  have hs : (s.heard c a f).seq.stage = s.seq.stage := by rw [(heard_seq s c a f).1]
  rw [State.reached, evalOccupancy_of_noStart _ (.inl (hs ▸ h))]
  exact hs

/-- What hand-offs leave beside of what a frame's hearing left. -/
theorem reached_rest {t : State} (h : Handed (s.reached c a f) t) : t.roster = s.roster ∧ t.port = s.port ∧
    t.posture.view = s.posture.view ∧ t.ann.remote = s.ann.remote := by
  have k := (reached_handed s c a f).trans h
  obtain ⟨hroster, hport, -⟩ := heard_rest s c a f
  have hp : (s.heard c a f).posture = s.posture ∧ (s.heard c a f).ann = s.ann := by simp [State.heard]
  exact ⟨k.roster.trans hroster, k.port.trans hport, k.view.trans (by rw [hp.1]), k.remote.trans (by rw [hp.2])⟩

end

/-! ## The owner of a DETECT -/

section
variable {a : Nat} {area : BitVec 4} {line : Fin 4} {group level : Byte} {s : State}

theorem detectOwner_active {g : Group} (hr : s.role ≠ .noArea) (ha : area.toNat = s.area)
    (hg : Group.ofNat? group.toNat = some g) :
    detectOwner a (.detect area line group true level) s = detect false a line g s := by
  simp only [detectOwner, if_pos (And.intro hr ha), hg, if_true]

theorem detectOwner_withdrawal (hr : s.role ≠ .noArea) (ha : area.toNat = s.area)
    (hg : (Group.ofNat? group.toNat).isSome = true) :
    detectOwner a (.detect area line group false level) s = dropDetection a line s := by
  obtain ⟨g, hg⟩ := Option.isSome_iff_exists.mp hg
  simp only [detectOwner, if_pos (And.intro hr ha), hg, Bool.false_eq_true, if_false, withdraw, if_neg hr]

/-- R38, R43: a frame of another area, or with a group other than 1 and 2. -/
theorem detectOwner_ignored {active : Bool} (h : area.toNat ≠ s.area ∨ Group.ofNat? group.toNat = none) :
    detectOwner a (.detect area line group active level) s = s := by
  unfold detectOwner
  dsimp only
  split
  · next k => simp only [h.resolve_left (not_not.mpr k.2)]
  · rfl

end

theorem detectOwner_only (a : Nat) (f : Frame) (s : State) : SeqOnly s (detectOwner a f s) := by
  unfold detectOwner
  split
  case h_1 =>
    split
    · split
      · split
        · exact detect_only _ _ _ _ s
        · exact withdraw_only _ _ s
      · exact .refl s
    · exact .refl s
  all_goals exact .refl s

theorem exec_detectFrame {s : State} {dt a : Nat} {bits : List Bool} {f : Frame}
    (h : Reaches { kind := 3, dt := dt, bits := bits } s a f) : exec (.detectFrame dt bits) s =
      .next (settle (detectOwner a f (s.reached { kind := 3, dt := dt, bits := bits } a f))) :=
  congrArg Host.Outcome.next (receiveFrame_reaches h detectOwner)

/-! ## A detection and the list -/

theorem makeRoom_free {list : List Detection} (h : list.length < 8) : makeRoom list = some list := if_pos h

/-- R42: the oldest unconsumed entry gives way. -/
theorem makeRoom_evicts {list : List Detection} (h : 8 ≤ list.length) (he : ∃ e ∈ list, e.consumed = false) :
    makeRoom list = some (list.eraseP (fun e => !e.consumed)) := by
  obtain ⟨e, he, hc⟩ := he
  have hany : list.any (fun e => !e.consumed) = true := List.any_eq_true.mpr ⟨e, he, by rw [hc]; rfl⟩
  exact (if_neg (Nat.not_lt.mpr h)).trans (if_pos hany)

theorem makeRoom_none {list : List Detection} (h : 8 ≤ list.length) (hc : ∀ e ∈ list, e.consumed = true) :
    makeRoom list = none := by
  refine (if_neg (Nat.not_lt.mpr h)).trans (if_neg fun hany => ?_)
  obtain ⟨e, he, hn⟩ := List.any_eq_true.mp hany
  rw [hc e he] at hn
  cases hn

section
variable {a : Nat} {l : Fin 4} {g : Group} {s : State} (hr : s.role ≠ .noArea)
include hr

/-- R40: a detection that has no entry joins the list with the room made for it. -/
theorem detect_new {room : List Detection} (hf : s.seq.list.find? (fun e => e.names a l) = none)
    (hm : makeRoom s.seq.list = some room) :
    detect false a l g s = listChanged (s.withList (room ++ [newDetection s a l g])) := by
  simp only [detect, if_neg hr, hf, hm]
  rfl

theorem detect_dropped (hf : s.seq.list.find? (fun e => e.names a l) = none) (hm : makeRoom s.seq.list = none) :
    detect false a l g s = s := by
  simp only [detect, if_neg hr, hf, hm]

/-- R41: a repeat refreshes an unconsumed entry. -/
theorem detect_repeated {e : Detection} (hf : s.seq.list.find? (fun e => e.names a l) = some e)
    (hc : e.consumed = false) : detect false a l g s =
      listChanged (s.withList (s.seq.list.filter (fun e => !e.names a l) ++ [newDetection s a l g])) := by
  simp only [detect, if_neg hr, hf, hc, Bool.or_self, Bool.false_eq_true, if_false]
  rfl

theorem detect_consumed {e : Detection} (hf : s.seq.list.find? (fun e => e.names a l) = some e)
    (hc : e.consumed = true) : detect false a l g s = s := by
  simp only [detect, if_neg hr, hf, hc, Bool.or_true, if_true]

end

/-- R48: a member keeps the list, and nothing follows from a change of it. -/
theorem listChanged_withList_member {s : State} (h : s.role = .member) (list : List Detection) :
    (listChanged (s.withList list)).seq.list = list := by
  rw [listChanged_of_role (s := s.withList list) (by show s.role ≠ _; rw [h]; decide)]
  rfl

/-- Settles O17: the frame reaches `detect`, whose cases are those of the statement; nothing that follows writes the
list. -/
theorem detectionsJoinTheList : Obligations.DetectionsJoinTheList := by
  unfold Obligations.DetectionsJoinTheList
  intro s dt a bits area line group level h hr hs
  obtain ⟨u, hu⟩ : ∃ u, s.reached { kind := 3, dt := dt, bits := bits } a (.detect area line group true level) = u :=
    ⟨_, rfl⟩
  have he := exec_detectFrame h
  have hrole : u.role = .member := hu ▸ (reached_role ..).trans hr
  have harea : u.area = s.area := hu ▸ reached_area ..
  have hlist : u.seq.list = s.seq.list := hu ▸ (reached_list ..).1
  have hnew (g : Group) : newDetection u a line g = {
      station := a, line := line, group := g, arrival := s.now + dt, consumed := false
      window := some (s.now + dt + s.img.tc * 1000000) } := by
    rw [newDetection_eq, ← hu, reached_now, reached_img]
  rw [hu] at he
  have hn : u.role ≠ .noArea := by rw [hrole]; decide
  refine ⟨_, he, fun hi => ?_, fun g ha hg => ?_,
    reached_rest s _ a _ (by rw [hu]; exact (detectOwner_only a _ u).toHanded.trans (settle_handed _))⟩
  · rw [(settle_list _).1, detectOwner_ignored (by rwa [harea]), hlist]
  · rw [(settle_list _).1, detectOwner_active hn (by rw [harea, ha]) hg, ← hlist]
    dsimp only
    rw [← hnew g]
    split
    · next e he =>
      refine ⟨fun k => by rw [detect_consumed hn he k], fun k => ?_⟩
      rw [detect_repeated hn he k, listChanged_withList_member hrole]
      rfl
    · next he =>
      refine ⟨fun k => ?_, fun k hk => ?_, fun k hk => ?_⟩
      · rw [detect_new hn he (makeRoom_free k), listChanged_withList_member hrole]
      · rw [detect_new hn he (makeRoom_evicts k hk), listChanged_withList_member hrole]
      · rw [detect_dropped hn he (makeRoom_none k hk)]

end Sys2Proof.Machine
end

section
/-! SUPPORT. An entry that leaves the coincidence list by a withdrawal from the bus or by its window (R43, R44, R54). -/

namespace Sys2Proof.Machine

/-- R44: the window of an unconsumed entry expires. -/
theorem exec_window {s : State} {a d : Nat} {l : Fin 4} {e : Detection}
    (hf : s.seq.list.find? (fun e => e.station == a && e.line == l && !e.consumed) = some e) (hw : e.window = some d) :
    exec (.windowTimerExpiry a l) s = .next (settle (dropDetection a l (s.reach d))) := by
  have h : windowOf s.seq.list a l = some d := (congrArg (Option.bind · Detection.window) hf).trans hw
  show Host.Outcome.next (windowExpiry a l s) = _
  simp only [windowExpiry, h]

/-- R75: a member's lockout follows its mirror, which the list does not move. -/
theorem dropDetection_lockoutStage {s : State} (hr : s.role = .member) (a : Nat) (l : Fin 4) :
    (dropDetection a l s).lockoutStage = s.lockoutStage := by
  have hm : (dropDetection a l s).seq.mirror = s.seq.mirror := by
    by_cases h : s.listWithout a l = s.seq.list
    · rw [dropDetection_absent h]
    · rw [dropDetection_present h]
      exact (listChanged_aside _).2
  simp only [State.lockoutStage, State.ordinal, State.stage, (dropDetection_only a l s).role, hr, hm]

/-- R43, R54, R69: an entry leaves the list of a release station in FIRST_ALARM, and the event is settled. -/
theorem settle_dropDetection_firstAlarm {s : State} {a : Nat} {l : Fin 4} (hr : s.role = .release) (hn : s.NoMeeting)
    (hf : s.seq.stage = .firstAlarm) (hl : s.seq.list ≠ []) :
    let t := settle (dropDetection a l s)
    t.seq.list = s.listWithout a l ∧ t.seq.latch = s.seq.latch ∧
      (s.listWithout a l = [] → places s.bus.queue ≤ 6 → NoticeWaits t) ∧
      t.seq.stage = if s.listWithout a l = [] then .normal else .firstAlarm := by
  intro t
  have hstage : (dropDetection a l s).seq.stage = if s.listWithout a l = [] then .normal else .firstAlarm :=
    (dropDetection_firstAlarm hr hn hf).trans (if_congr (and_iff_left hl) rfl rfl)
  obtain ⟨hlist, hlatch⟩ := dropDetection_list (a := a) (l := l) hr hn
  obtain ⟨hlist', hlatch'⟩ := settle_list (dropDetection a l s)
  have k : Onward (dropDetection a l s) t := settle_onward (by rw [hstage]; split <;> decide)
  refine ⟨hlist'.trans hlist, hlatch'.trans hlatch, fun he hp => ?_, k.stage.trans hstage⟩
  have hroom : places (dropDetection a l s).bus.queue ≤ 6 := by rwa [(dropDetection_notified a l s).places hp]
  refine noticeWaits_of _ (k.tells ⟨hroom, ?_⟩).waits
  rw [dropDetection_last hr hn hf he hl]
  exact enterStage_notice _ _ hp

/-- Settles O18: both events drop the entry and are settled; a member's list is `dropDetection_member`, and a release
station's stage `settle_dropDetection_firstAlarm`. -/
theorem withdrawalsAndWindowsEndEntries : Obligations.WithdrawalsAndWindowsEndEntries := by
  unfold Obligations.WithdrawalsAndWindowsEndEntries
  refine ⟨fun s a line hr _ => ⟨fun dt bits area group level h ha hg => ?_, fun e d hf hw => ?_⟩,
    fun s a line e hr hs hg hf => ?_⟩
  · refine ⟨_, exec_detectFrame h, (settle_list _).1.trans ?_⟩
    rw [detectOwner_withdrawal (by rw [reached_role, hr]; decide) (by rw [reached_area, ha]) hg,
      dropDetection_member (by rw [reached_role, hr]), State.listWithout, (reached_list ..).1]
    rfl
  · have ho := dropDetection_only a line (s.reach d)
    refine ⟨_, exec_window hf hw, ?_, ho.toHanded.trans (settle_handed _), fun hd => ?_⟩
    · exact (settle_list _).1.trans (dropDetection_member (s := s.reach d) hr)
    · refine ((settle_after _).doors ?_).trans ho.doors_eq
      rw [dropDetection_lockoutStage (s := s.reach d) hr, ho.doors_eq]
      exact hd
  · intro rest follows
    have hmem : e ∈ s.seq.list := List.mem_of_find?_eq_some hf
    have key (u : State) (hur : u.role = s.role) (hul : u.seq.list = s.seq.list) (huc : u.seq.latch = s.seq.latch)
        (hus : u.seq.stage = s.seq.stage) (hub : s.bus.queue.length ≤ 3 → places u.bus.queue ≤ 6) :
        follows (settle (dropDetection a line u)) := by
      have hn : u.NoMeeting := by
        rcases hg with h | h
        · exact .inl (huc.trans h)
        · refine .inr (.inr fun x hx y hy => ?_)
          rw [hul] at hx hy
          rw [h x hx, h y hy]
      have hrest : u.listWithout a line = rest := by
        rw [State.listWithout, hul]
        rfl
      obtain ⟨hl, hc, hw, hst⟩ := settle_dropDetection_firstAlarm (a := a) (l := line) (hur.trans hr) hn (hus.trans hs)
        (by rw [hul]; exact List.ne_nil_of_mem hmem)
      rw [hrest] at hl hw hst
      exact ⟨hl, hc.trans huc, fun he hq => hw he (hub hq), hst⟩
    refine ⟨fun dt bits area group level h ha hg => ⟨_, exec_detectFrame h, ?_⟩, fun d hw => ⟨_, exec_window hf hw, ?_,
      (dropDetection_only a line (s.reach d)).toHanded.trans (settle_handed _)⟩⟩
    · rw [detectOwner_withdrawal (by rw [reached_role, hr]; decide) (by rw [reached_area, ha]) hg]
      exact key _ (reached_role ..) (reached_list ..).1 (reached_list ..).2
        (reached_stage _ _ _ _ (by rw [hs]; decide)) (reached_places _ _ _ _)
    · exact key (s.reach d) rfl rfl rfl rfl fun hq => places_le _ (by show s.bus.queue.length ≤ 4; omega)

end Sys2Proof.Machine
end

section
/-! SUPPORT. What a countdown depends on, and the operations that leave all of it alone: every block but the Sequencer, the
image and the peer table (R28, R52, R56). -/

namespace Sys2Proof.Machine

/-- What the automatic start of a countdown is decided by, beside the roster: the image, the peer table and the
Sequencer. -/
def State.basis (s : State) : Option Image × Vector Peer 48 × Sequencer := (s.image, s.peers, s.seq)

section
variable (s : State)

/-! ## Writes of one block -/

@[simp] theorem elapse_basis (n : Nat) : (s.elapse n).basis = s.basis := rfl
@[simp] theorem reach_basis (n : Nat) : (s.reach n).basis = s.basis := rfl
@[simp] theorem setPins_basis (x : Pins) : (s.setPins x).basis = s.basis := rfl
@[simp] theorem setStartup_basis (x : Startup) : (s.setStartup x).basis = s.basis := rfl
@[simp] theorem setDoors_basis (x : DoorCtl) : (s.setDoors x).basis = s.basis := rfl
@[simp] theorem setEntry_basis (x : EntryUnit) : (s.setEntry x).basis = s.basis := rfl
@[simp] theorem setRoster_basis (x : Roster) : (s.setRoster x).basis = s.basis := rfl
@[simp] theorem setPosture_basis (x : PostureUnit) : (s.setPosture x).basis = s.basis := rfl
@[simp] theorem setAnn_basis (x : Annunciator) : (s.setAnn x).basis = s.basis := rfl
@[simp] theorem setBus_basis (x : Bus) : (s.setBus x).basis = s.basis := rfl
@[simp] theorem setPort_basis (x : Port) : (s.setPort x).basis = s.basis := rfl
@[simp] theorem setLine_basis (l : Fin 4) (x : Line) : (s.setLine l x).basis = s.basis := rfl
@[simp] theorem setSource_basis (x : Source) (y : SourceState) : (s.setSource x y).basis = s.basis := rfl
@[simp] theorem setOutput_basis (l : Fin 12) (x : OutLine) : (s.setOutput l x).basis = s.basis := rfl

@[simp] theorem setDoor_basis (d : DoorId) (x : Door) : (s.setDoor d x).basis = s.basis := by
  cases d <;> rfl

@[simp] theorem setReservation_basis (d : DoorId) (x : Option Reservation) :
    (s.setReservation d x).basis = s.basis := by
  cases d <;> rfl

@[simp] theorem setBroken_basis (d : DoorId) (x : Bool) : (s.setBroken d x).basis = s.basis := by
  cases d <;> rfl

@[simp] theorem hear_basis (levels : List Bool) : (s.hear levels).basis = s.basis := by
  unfold State.hear
  split <;> rfl

/-! ## Sources and the queue -/

@[simp] theorem raise_basis (x : Source) : (raise x s).basis = s.basis := by
  unfold raise
  split <;> rfl

@[simp] theorem overrunIf_basis (lost : Bool) : (overrunIf lost s).basis = s.basis := by
  unfold overrunIf
  split <;> simp

@[simp] theorem enqueue_basis (f : Frame) : (enqueue f s).basis = s.basis := by
  unfold enqueue
  split <;> simp

@[simp] theorem trigger_basis (x : Source) : (trigger x s).basis = s.basis := by
  unfold trigger
  split <;> simp

@[simp] theorem askStatus_basis : (askStatus s).basis = s.basis := by
  unfold askStatus requestStatus
  split <;> simp

@[simp] theorem sendStatus_basis : (sendStatus s).basis = s.basis := by simp [sendStatus]

@[simp] theorem returnFrame_basis (e : QueueEntry) : (returnFrame e s).basis = s.basis := by
  unfold returnFrame
  split <;> simp

@[simp] theorem abandonFrame_basis : (abandonFrame s).basis = s.basis := by
  unfold abandonFrame
  split <;> simp

/-! ## Reservations, the roster and the doors -/

@[simp] theorem breakAt_basis (d : DoorId) : (breakAt d s).basis = s.basis := by
  unfold breakAt
  split <;> simp

@[simp] theorem breakReservations_basis : (breakReservations s).basis = s.basis := by
  unfold breakReservations
  split <;> simp

/-- The queue is as little of a door's or the roster's concern as the sequence is. -/
@[simp] theorem setDoubt_beside (c : DoubtCause) : (setDoubt c s).basis = s.basis ∧ (setDoubt c s).bus = s.bus := by
  unfold setDoubt
  split <;> simp

@[simp] theorem releaseDoor_beside (d : DoorId) (c : Credit) :
    (releaseDoor d c s).basis = s.basis ∧ (releaseDoor d c s).bus = s.bus := by
  simp [releaseDoor]

@[simp] theorem grantRequest_beside (d : DoorId) :
    (grantRequest d s).basis = s.basis ∧ (grantRequest d s).bus = s.bus := by
  unfold grantRequest
  split <;> simp

@[simp] theorem interlockTest_beside : (interlockTest s).basis = s.basis ∧ (interlockTest s).bus = s.bus := by
  unfold interlockTest
  split <;> split <;> simp

@[simp] theorem secureDoor_beside (d : DoorId) : (secureDoor d s).basis = s.basis ∧ (secureDoor d s).bus = s.bus := by
  simp [secureDoor]

@[simp] theorem admitHolder_beside (time : Nat) (h : Holder) :
    (admitHolder time s h).basis = s.basis ∧ (admitHolder time s h).bus = s.bus := by
  unfold admitHolder
  split
  · simp
  · split <;> simp

@[simp] theorem rosterEntry_beside (holders : List Holder) :
    (rosterEntry holders s).basis = s.basis ∧ (rosterEntry holders s).bus = s.bus := by
  unfold rosterEntry
  generalize s.presentTime = time
  induction holders generalizing s with
  | nil => exact ⟨rfl, rfl⟩
  | cons h hs ih => simp [ih]

@[simp] theorem identifiedExit_beside (id : Nat) :
    (identifiedExit id s).basis = s.basis ∧ (identifiedExit id s).bus = s.bus := by
  have raised (x : Source) (h1 : x ≠ .duress1) (h2 : x ≠ .duress2) (u : State) :
      (trigger x u).basis = u.basis ∧ (trigger x u).bus = u.bus := ⟨trigger_basis u x, trigger_bus x u h1 h2⟩
  unfold identifiedExit
  split
  · exact raised _ (by decide) (by decide) s
  · dsimp only
    split
    · exact raised _ (by decide) (by decide) _
    · exact ⟨rfl, rfl⟩

@[simp] theorem anonymousExit_beside : (anonymousExit s).basis = s.basis ∧ (anonymousExit s).bus = s.bus := by
  unfold anonymousExit
  split <;> simp

@[simp] theorem consummate_beside (d : DoorId) : (consummate d s).basis = s.basis ∧ (consummate d s).bus = s.bus := by
  unfold consummate
  split
  · split
    · simp
    · split <;> simp
    · simp
  · simp
  · simp

@[simp] theorem closeContact_beside (d : DoorId) :
    (closeContact d s).basis = s.basis ∧ (closeContact d s).bus = s.bus := by
  unfold closeContact
  split <;> simp

@[simp] theorem enterHeldOpen_basis (d : DoorId) : (enterHeldOpen d s).basis = s.basis := by simp [enterHeldOpen]

@[simp] theorem openContact_basis (d : DoorId) : (openContact d s).basis = s.basis := by
  unfold openContact
  split <;> simp [passOpen, forceDoor]

@[simp] theorem pressExit_basis (d : DoorId) : (pressExit d s).basis = s.basis := by
  unfold pressExit
  split <;> simp

/-! ## Presentations and confirmations -/

@[simp] theorem handCredit_basis (d : DoorId) (c : Credit) : (handCredit d c s).2.basis = s.basis := by
  unfold handCredit
  split
  · rfl
  · split
    · rfl
    · split <;> simp [pendCredit]

@[simp] theorem notePassback_basis (hit : Bool) : (notePassback hit s).basis = s.basis := by
  unfold notePassback
  split <;> simp

@[simp] theorem grantEntry_basis (p : Presentation) (holders : List Holder) (result : Result) (tag : Nat) (hit : Bool) :
    (grantEntry p holders result tag hit s).after.basis = s.basis := by
  have h := handCredit_basis s p.door (newCredit .entry holders)
  unfold grantEntry
  split <;> next e =>
    rw [e] at h
    simp_all [Decision.refuse]

@[simp] theorem presentInside_basis (p : Presentation) : (presentInside p s).after.basis = s.basis := by
  have h := handCredit_basis s p.door (newCredit .egress [plainHolder p.id p.cls])
  unfold presentInside
  split <;> next e =>
    rw [e] at h
    simp_all [Decision.refuse]

@[simp] theorem presentPaired_basis (p : Presentation) (hit : Bool) : (presentPaired p hit s).after.basis = s.basis := by
  unfold presentPaired
  split
  · simp [reserve]
  · split <;> simp [completePair]

@[simp] theorem presentEscorted_basis (p : Presentation) (hit : Bool) :
    (presentEscorted p hit s).after.basis = s.basis := by
  unfold presentEscorted
  split
  · simp
  · split <;> simp [Decision.refuse]

@[simp] theorem modeStep_basis (p : Presentation) (hit : Bool) : (modeStep p hit s).after.basis = s.basis := by
  unfold modeStep
  split <;> simp [Decision.refuse]

@[simp] theorem presentOutside_basis (p : Presentation) : (presentOutside p s).after.basis = s.basis := by
  unfold presentOutside
  iterate 7
    split
    · rfl
  exact modeStep_basis s p _

@[simp] theorem decidePresentation_basis (p : Presentation) : (decidePresentation p s).after.basis = s.basis := by
  unfold decidePresentation
  split <;> simp

@[simp] theorem completeConfirm_basis (d : DoorId) : (completeConfirm d s).basis = s.basis := by
  unfold completeConfirm
  split <;> simp

@[simp] theorem takeConfirm_basis (d : DoorId) (tag : Byte) (holder cls : Nat) :
    (takeConfirm d tag holder cls s).basis = s.basis := by
  unfold takeConfirm recordOutcome
  split <;> simp

/-! ## Postures and alarms -/

@[simp] theorem adoptPosture_basis (a : Nat) (p : Posture) (e : Byte) : (adoptPosture a p e s).basis = s.basis := by
  unfold adoptPosture
  split <;> simp

@[simp] theorem rotate_basis (x : Source) : (rotate x s).basis = s.basis := by
  unfold rotate
  split <;> rfl

@[simp] theorem acknowledge_basis (x : Source) : (acknowledge x s).basis = s.basis := by
  unfold acknowledge
  split <;> simp

@[simp] theorem restoreSource_basis (x : Source) : (restoreSource x s).basis = s.basis := by
  unfold restoreSource
  dsimp only
  split <;> simp

@[simp] theorem removeRemote_basis (a : Nat) (k : RemoteKind) : (removeRemote a k s).basis = s.basis := rfl

end

end Sys2Proof.Machine
end

section
/-! SUPPORT. While a member of the area is unheard no countdown starts by itself (R28, R52, R78): what every operation but a
manual release does to a release station whose stage is INHIBITED or below. -/

namespace Sys2Proof.Machine

/-! ## A member that is unheard -/

/-- R28: a member of the area is not LIVE or has sent no STATUS. -/
def State.Unheard (s : State) : Prop :=
  ∃ m ∈ s.img.members, (s.peer m).presence ≠ .live ∨ (s.peer m).statusHeard = false

/-- R28, R52: area occupied is then set. -/
theorem State.Unheard.areaOccupied {s : State} (h : s.Unheard) : s.areaOccupied = true := by
  obtain ⟨m, hm, h⟩ := h
  exact (areaOccupied_iff s).mpr (.inr (.inr ⟨m, hm, h.imp id .inl⟩))

theorem State.Unheard.congr {s t : State} (h : t.Unheard) (hi : t.image = s.image) (hp : t.peers = s.peers) :
    s.Unheard := by
  unfold State.Unheard State.img State.peer at *
  rwa [hi, hp] at h

/-- R56: no countdown has started at the release station, and the Sequencer holds the area as occupied. -/
structure State.Barred (s : State) : Prop where
  role : s.role = .release
  stage : s.seq.stage.ordinal ≤ 3
  occupied : s.seq.occupied = true

/-- R78: `s` becomes `t` with no countdown started, if a member is unheard in `t`; it was then unheard in `s`. -/
def Bars (s t : State) : Prop := t.Unheard → s.Unheard ∧ (s.Barred → t.Barred)

theorem Bars.refl (s : State) : Bars s s := fun h => ⟨h, id⟩

theorem Bars.trans {s t u : State} (h : Bars s t) (k : Bars t u) : Bars s u := fun hu =>
  have ⟨ht, kb⟩ := k hu
  have ⟨hs, hb⟩ := h ht
  ⟨hs, fun b => kb (hb b)⟩

theorem Bars.foldl {α : Type} {f : State → α → State} (h : ∀ s x, Bars s (f s x)) (xs : List α) (s : State) :
    Bars s (xs.foldl f s) := by
  induction xs generalizing s with
  | nil => exact .refl s
  | cons x xs ih => exact (h s x).trans (ih _)

/-- What leaves the image, the peer table and the Sequencer alone. -/
theorem Bars.of_basis {s t : State} (h : t.basis = s.basis) : Bars s t := by
  obtain ⟨hi, h⟩ := Prod.mk.inj h
  obtain ⟨hp, hq⟩ := Prod.mk.inj h
  refine fun hu => ⟨hu.congr hi hp, fun ⟨hr, hs, ho⟩ => ⟨?_, hq ▸ hs, hq ▸ ho⟩⟩
  unfold State.role State.img at *
  rwa [hi]

/-- A hand-off that enters no stage above INHIBITED and leaves the area as occupied as it was. -/
theorem Handed.bars {s t : State} (h : Handed s t) (k : s.Barred → t.seq.stage.ordinal ≤ 3 ∧ t.seq.occupied = true) :
    Bars s t :=
  fun hu => ⟨hu.congr h.image h.peers, fun b => ⟨h.role.trans b.role, (k b).1, (k b).2⟩⟩

/-- The stage machine has moved, and told it by notices. -/
theorem Notified.bars {s t : State} (n : Notified s t) (h : Handed s t) (k : s.Barred → t.seq.stage.ordinal ≤ 3) :
    Bars s t := h.bars fun b => ⟨k b, n.occupied.trans b.occupied⟩

theorem setSeq_bars (s : State) (q : Sequencer) (hs : q.stage = s.seq.stage := by rfl)
    (ho : q.occupied = s.seq.occupied := by rfl) : Bars s (s.setSeq q) :=
  (setSeq_only s q).toHanded.bars fun b => ⟨hs ▸ b.stage, ho.trans b.occupied⟩

/-! ## What follows from an event -/

/-- R28, R56: an occupied area that the Sequencer holds as occupied ends nothing. -/
theorem evalOccupancy_bars (s : State) : Bars s (evalOccupancy s) := by
  have h := (evalOccupancy_only s).toHanded
  refine fun hu => ⟨hu.congr h.image h.peers, fun b => ?_⟩
  rwa [evalOccupancy_of_agree s (.inr (by rw [(hu.congr h.image h.peers).areaOccupied, b.occupied]))]

theorem settle_bars (s : State) : Bars s (settle s) := by
  cases hr : s.running
  · rw [settle_of_stopped s hr]
    exact .refl s
  · have h := settle_handed s
    obtain ⟨ha, ho⟩ := settle_seq s hr
    refine fun hu => ⟨hu.congr h.image h.peers, fun b => ?_⟩
    rw [evalOccupancy_of_agree s (.inr (by rw [(hu.congr h.image h.peers).areaOccupied, b.occupied]))] at ha ho
    exact ⟨h.role.trans b.role, (apart_fields ha).1 ▸ b.stage, ho.trans b.occupied⟩

/-- An event that is settled. -/
theorem Bars.settled {s u : State} (h : Bars s u) : Bars s (settle u) := h.trans (settle_bars u)

theorem settled_bars {s u : State} (h : u.basis = s.basis) : Bars s (settle u) := (Bars.of_basis h).settled

/-! ## The stage machine -/

theorem enterStage_bars {st : Stage} (h : st.ordinal ≤ 3) (s : State) : Bars s (enterStage st s) :=
  (enterStage_advances st s).toNotified.bars (enterStage_only st s).toHanded fun _ => by rwa [enterStage_stage]

theorem sendNotice_bars (s : State) : Bars s (sendNotice s) :=
  (sendNotice_advances s).toNotified.bars (sendNotice_only s).toHanded fun b => by
    rw [sendNotice_stage]
    exact b.stage

theorem confirmFlow_bars (s : State) : Bars s (confirmFlow s) := (setSeq_bars s _).trans (sendNotice_bars _)

theorem energiseValve_bars (s : State) : Bars s (energiseValve s) :=
  (energiseValve_advances s).toNotified.bars (energiseValve_only s).toHanded fun b => by
    rw [energiseValve_stage]
    exact b.stage

/-- R55: while the area is occupied, coincidence leads to INHIBITED. -/
theorem coincidenceMet_bars (s : State) : Bars s (coincidenceMet s) := by
  refine (coincidenceMet_advances s).toNotified.bars (coincidenceMet_only s).toHanded fun b => ?_
  unfold coincidenceMet
  split
  · rw [if_pos b.occupied, enterStage_stage]
    decide
  · exact b.stage

theorem followList_bars (s : State) : Bars s (followList s) := by
  unfold followList
  split
  · exact enterStage_bars (by decide) s
  · split
    · exact enterStage_bars (by decide) s
    · exact .refl s

theorem listChanged_bars (s : State) : Bars s (listChanged s) := by
  unfold listChanged
  split
  · split
    · exact ((setSeq_bars s _).trans (coincidenceMet_bars _)).trans (followList_bars _)
    · exact followList_bars s
  · exact .refl s

theorem detect_bars (r : Bool) (a : Nat) (l : Fin 4) (g : Group) (s : State) : Bars s (detect r a l g s) := by
  unfold detect
  split
  · exact .refl s
  · split
    · split
      · exact .refl s
      · exact (setSeq_bars s _).trans (listChanged_bars _)
    · split
      · exact (setSeq_bars s _).trans (listChanged_bars _)
      · exact .refl s

theorem dropDetection_bars (a : Nat) (l : Fin 4) (s : State) : Bars s (dropDetection a l s) := by
  unfold dropDetection
  split
  · exact (setSeq_bars s _).trans (listChanged_bars _)
  · exact .refl s

theorem withdraw_bars (a : Nat) (l : Fin 4) (s : State) : Bars s (withdraw a l s) := by
  unfold withdraw
  split
  · exact .refl s
  · exact dropDetection_bars a l s

/-- A stage above INHIBITED is none that a barred station has. -/
theorem State.Barred.stage_ne {s : State} (b : s.Barred) {st : Stage} (h : 3 < st.ordinal) : s.seq.stage ≠ st := by
  intro he
  have := b.stage
  rw [he] at this
  omega

/-- R59: an abort holds no countdown where none runs. -/
theorem abortJoin_bars (a : Nat) (s : State) : Bars s (abortJoin a s) := by
  refine (abortJoin_only a s).toHanded.bars fun b => ?_
  have hn := b.stage_ne (st := .countdown) (by decide)
  unfold abortJoin
  dsimp only
  split
  · exact ⟨b.stage, b.occupied⟩
  · split
    · rw [if_neg (by exact hn)]
      exact ⟨b.stage, b.occupied⟩
    · exact ⟨b.stage, b.occupied⟩

/-- R60: an abort that ends resumes no countdown where none is held. -/
theorem abortLeave_bars (a : Nat) (s : State) : Bars s (abortLeave a s) := by
  refine (abortLeave_only a s).toHanded.bars fun b => ?_
  have hn := b.stage_ne (st := .held) (by decide)
  unfold abortLeave
  dsimp only
  split
  · split
    · rw [if_neg (by exact hn)]
      exact ⟨b.stage, b.occupied⟩
    · exact ⟨b.stage, b.occupied⟩
  · exact ⟨b.stage, b.occupied⟩

theorem setMirror_bars (m : Mirror) (s : State) : Bars s (setMirror m s) := by
  refine (setMirror_only m s).toHanded.bars fun b => ?_
  rw [(setMirror_sets m s).1]
  exact ⟨b.stage, b.occupied⟩

theorem resetSequence_bars (s : State) : Bars s (resetSequence s) :=
  (setSeq_bars s _).trans (enterStage_bars (by decide) _)

theorem suppressionReset_bars (x : Unit) (s : State) : Bars s (suppressionReset x s).2 := by
  have hr := (resetSequence_bars s).settled
  have hj : Bars s (resetAndRejoin s) := by
    unfold resetAndRejoin rejoinAbort
    split
    · exact hr.trans (abortJoin_bars _ _).settled
    · exact hr
  unfold suppressionReset
  split
  · exact .refl s
  · split
    · exact .refl s
    · split
      · exact .refl s
      · exact hj

theorem suppressionIsolate_bars (on : Bool) (s : State) : Bars s (suppressionIsolate on s).2 := by
  have enters (st : Stage) (h : st.ordinal ≤ 3) : Bars s (settle (enterStage st s)) := (enterStage_bars h s).settled
  unfold suppressionIsolate isolateOn isolateOff
  split
  · exact .refl s
  · split
    · split
      case h_1 => exact enters _ (by decide)
      case h_2 => exact enters _ (by decide)
      all_goals exact .refl s
    · split
      case h_1 =>
        split
        · exact .refl s
        · exact enters _ (by split <;> decide)
      all_goals exact .refl s

/-! ## Detector lines -/

theorem putLine_bars (l : Fin 4) (x : Line) (s : State) : Bars s (putLine l x s) := by
  have entered (u : State) : Bars u (alarmEntered l u) := by
    unfold alarmEntered
    split
    · exact .refl u
    · exact (detect_bars _ _ _ _ u).trans (.of_basis (enqueue_basis _ _))
  unfold putLine
  split
  · exact (Bars.of_basis (setLine_basis s l x)).trans (entered _)
  · exact .of_basis rfl

theorem resetLine_bars (s : State) (l : Fin 4) : Bars s (resetLine s l) := by
  unfold resetLine resetAccepted
  split
  · have h : Bars s (s.setLine l ((s.line l).resetAlarm (s.lineCfg l))) := .of_basis rfl
    dsimp only
    split
    · exact h
    · exact (h.trans (withdraw_bars _ _ _)).trans (.of_basis (enqueue_basis _ _))
  · exact .refl s

theorem resetDetection_bars (x : Option (Fin 4)) (s : State) : Bars s (resetDetection x s).2 := by
  rcases resetDetection_cases x s with h | ⟨ls, h⟩ <;> rw [h]
  · exact .refl s
  · exact (Bars.foldl resetLine_bars ls s).settled

theorem ownCheck_bars (s : State) : Bars s (ownCheck s) := by
  refine Bars.foldl (fun u l => ?_) _ s
  unfold ownCheckLine
  split
  · exact detect_bars _ _ _ _ u
  · exact .refl u

/-! ## The owners of bus frames -/

theorem addRemote_bars (a : Nat) (k : RemoteKind) (s : State) : Bars s (addRemote a k s) := by
  have joined (u : State) : (joinRemote a k u).basis = u.basis := rfl
  unfold addRemote
  split
  · exact .refl s
  · split
    · exact .of_basis (joined s)
    · have evicted : Bars s (evictOldest s) := settled_bars rfl
      exact evicted.trans (.of_basis (joined _))

theorem recoverDetections_bars (a : Nat) (c : Announcement) (s : State) : Bars s (recoverDetections a c s) := by
  unfold recoverDetections
  split
  · refine Bars.foldl (fun u l => ?_) _ s
    unfold recoverLine
    split
    · exact detect_bars _ _ _ _ u
    · exact .refl u
  · exact .refl s

theorem recoverDuress_bars (a : Nat) (c : Announcement) (s : State) : Bars s (recoverDuress a c s) := by
  unfold recoverDuress
  split
  · exact addRemote_bars a _ s
  · exact .of_basis rfl

theorem recoverFirstAlarm_bars (a : Nat) (c : Announcement) (s : State) : Bars s (recoverFirstAlarm a c s) := by
  unfold recoverFirstAlarm
  split
  · exact .of_basis rfl
  · split
    · exact addRemote_bars a _ s
    · exact .refl s

theorem recoverAbort_bars (a : Nat) (c : Announcement) (s : State) : Bars s (recoverAbort a c s) := by
  unfold recoverAbort
  split
  · exact abortLeave_bars a s
  · exact .refl s

theorem mirrorStatus_bars (a : Nat) (c : Announcement) (s : State) : Bars s (mirrorStatus a c s) := by
  unfold mirrorStatus
  split
  · exact setMirror_bars _ s
  · exact .refl s

theorem statusOwner_bars (a : Nat) (f : Frame) (s : State) : Bars s (statusOwner a f s) := by
  cases f
  case status c =>
    have lists : Bars s (listsRecovered a c s) :=
      (((recoverDetections_bars a c s).settled.trans (recoverDuress_bars a c _)).settled.trans
        (recoverFirstAlarm_bars a c _)).settled
    have view (u : State) : Bars u (viewRecovered a c u) :=
      ((settle_bars u).trans (.of_basis (adoptPosture_basis _ a _ _))).settled.trans (mirrorStatus_bars a c _)
    exact (lists.trans (recoverAbort_bars a c _)).trans (view _)
  all_goals exact .refl s

theorem queryOwner_bars (a : Nat) (f : Frame) (s : State) : Bars s (queryOwner a f s) := by
  unfold queryOwner
  split
  · exact .of_basis (askStatus_basis s)
  · exact .refl s

theorem duressOwner_bars (a : Nat) (f : Frame) (s : State) : Bars s (duressOwner a f s) := by
  unfold duressOwner
  split
  case h_1 =>
    split
    · split
      · exact addRemote_bars a _ s
      · exact .of_basis rfl
    · exact .refl s
  all_goals exact .refl s

theorem detectOwner_bars (a : Nat) (f : Frame) (s : State) : Bars s (detectOwner a f s) := by
  unfold detectOwner
  split
  case h_1 =>
    split
    · split
      · split
        · exact detect_bars _ _ _ _ s
        · exact withdraw_bars _ _ s
      · exact .refl s
    · exact .refl s
  all_goals exact .refl s

theorem noticeOwner_bars (a : Nat) (f : Frame) (s : State) : Bars s (noticeOwner a f s) := by
  unfold noticeOwner
  split
  case h_1 =>
    split
    · split
      · exact setMirror_bars _ s
      · exact .refl s
    · exact .refl s
  all_goals exact .refl s

theorem confirmOwner_bars (a : Nat) (f : Frame) (s : State) : Bars s (confirmOwner a f s) := by
  unfold confirmOwner
  split
  case h_1 =>
    split
    · split
      · exact .of_basis (takeConfirm_basis s _ _ _ _)
      · exact .refl s
    · exact .refl s
  all_goals exact .refl s

theorem postureOwner_bars (a : Nat) (f : Frame) (s : State) : Bars s (postureOwner a f s) := by
  unfold postureOwner
  split
  case h_1 =>
    split
    · split
      · exact .of_basis (adoptPosture_basis s a _ _)
      · exact .refl s
    · exact .refl s
  all_goals exact .refl s

/-- R24, R25: a frame makes its sender LIVE, and takes no STATUS from it. -/
theorem Peer.after_heard (now : Nat) (f : Frame) (p : Peer) : (p.after now f).presence = .live ∧
    ((p.after now f).statusHeard = false → p.statusHeard = false) := by
  cases f
  case status => exact ⟨rfl, fun h => by cases h⟩
  all_goals exact ⟨rfl, id⟩

/-- R24, R25: who is unheard after a frame was so before it. -/
theorem peerHeard_bars (a : Nat) (f : Frame) (s : State) : Bars s (peerHeard a f s) := by
  refine Bars.trans (t := s.setPeer a ((s.peer a).after s.now f)) (fun ⟨m, hm, hu⟩ => ⟨⟨m, ?_, ?_⟩, ?_⟩)
    (evalOccupancy_bars _)
  · rwa [State.img, State.setPeer_image] at hm
  · rw [State.setPeer_peer] at hu
    split at hu
    · next h =>
      obtain ⟨hl, hs⟩ := (s.peer a).after_heard s.now f
      rw [h.1]
      exact hu.elim (absurd hl) fun h => .inr (hs h)
    · exact hu
  · rintro ⟨hr, hs, ho⟩
    rw [← State.setPeer_seq s a ((s.peer a).after s.now f)] at hs ho
    refine ⟨?_, hs, ho⟩
    rwa [State.role, State.img, State.setPeer_image]

/-! ## Commands by their kind -/

theorem elapse_bars (s : State) (dt : Nat) : Bars s (s.elapse dt) := .of_basis rfl

theorem panelCommand_bars {α : Type} {code len : Nat} {parse : State → List Byte → Option α}
    {act : α → State → Answer × State} {dt : Nat} {rest : PanelRest} (hact : ∀ x u, Bars u (act x u).2) (s : State) :
    Bars s (panelCommand code len parse act dt rest s) := by
  have hp : ∀ u p, Bars s u → Bars s (u.setPort p) := fun u p h => h.trans (.of_basis rfl)
  exact panelCommand_induction hp hp (fun _ h => h) (fun x u h => h.trans (hact x u)) (elapse_bars s dt)

theorem receiveFrame_bars {kind : Nat} {owner : Nat → Frame → State → State} {bits : List Bool}
    (howner : ∀ a f u, Bars u (owner a f u)) (s : State) (dt : Nat) :
    Bars s (receiveFrame kind owner bits (s.elapse dt)) := by
  have hh : Bars s ((s.elapse dt).hear bits) := .of_basis (by simp)
  have hd : ∀ a f (u : State), Bars u (deliver a f owner u) := fun a f u => by
    unfold deliver
    split
    · exact settled_bars rfl
    · exact ((peerHeard_bars a f u).trans (howner a f _)).settled
  unfold receiveFrame
  split
  · split
    · split
      · exact hh.trans (hd _ _ _)
      · exact hh
    · exact hh
  · exact hh

theorem inputEvent_bars {i : Input} {act : Bool → State → State} (hact : ∀ b u, Bars u (act b u)) (level : Bool)
    (e : InputEvent) (s : State) : Bars s (inputEvent i level act e s) := by
  have pins : ∀ (u : State) (p : Pins), Bars u (u.setPins p) := fun u p => .of_basis rfl
  have taken : ∀ u, Bars u (takeInput i act u) := fun u => (pins u _).trans (hact _ _)
  unfold inputEvent
  split
  · next dt =>
    refine (elapse_bars s dt).trans ?_
    unfold pinMoves
    split
    · exact .refl _
    · split
      · split
        · exact pins _ _
        · unfold pinReturns
          split
          · exact (taken _).trans (pins _ _)
          · exact pins _ _
      · exact pins _ _
  · split
    · split
      · exact .refl s
      · exact (Bars.of_basis (reach_basis s _)).trans (taken _)
    · exact .refl s

end Sys2Proof.Machine
end

section
/-! SUPPORT. Every command but a manual release, from outside and by a call, leaves the area occupied and starts no countdown
while a member is unheard (R78). -/

namespace Sys2Proof.Machine

/-! ## Commands of the blocks beside the Sequencer -/

theorem initExpiry_bars (s : State) : Bars s (initExpiry s) := by
  unfold initExpiry
  split
  · exact .of_basis rfl
  · exact .refl s

theorem referenceCycle_bars (s : State) : Bars s (referenceCycle s) := by
  unfold referenceCycle
  split
  · split
    · exact settled_bars rfl
    · exact .of_basis rfl
  · exact .refl s

theorem referenceGap_bars (s : State) : Bars s (referenceGap s) := by
  unfold referenceGap
  split
  · exact .of_basis rfl
  · exact .refl s

theorem clockLimitExpiry_bars (s : State) : Bars s (clockLimitExpiry s) := by
  unfold clockLimitExpiry
  split
  · exact settled_bars rfl
  · exact .refl s

theorem clockFallback_bars (s : State) : Bars s (clockFallback s) := by
  unfold clockFallback
  split
  · exact settled_bars rfl
  · exact .refl s

theorem joinTimerExpiry_bars (s : State) : Bars s (joinTimerExpiry s) := by
  have joined (u : State) : Bars u (enterRun u) := by
    have begun (x : Startup) (b : Bus) : Bars u ((u.setStartup x).setBus b) := .of_basis rfl
    unfold enterRun
    dsimp only
    split
    · exact (begun _ _).trans (sendNotice_bars _)
    · exact begun _ _
  unfold joinTimerExpiry
  split
  · exact ((Bars.of_basis (by simp)).trans (joined _)).settled
  · exact .refl s

theorem risingEdge_bars (l : Fin 4) (s : State) : Bars s (risingEdge l s) := by
  unfold risingEdge
  split
  · exact .refl s
  · split <;> exact .of_basis rfl

theorem fallingEdge_bars (l : Fin 4) (s : State) : Bars s (fallingEdge l s) := by
  have pins : Bars s (setDet l false s) := .of_basis rfl
  unfold fallingEdge
  split
  · split
    · exact (pins.trans (putLine_bars l _ _)).settled
    · exact pins
  · exact .refl s

theorem longPulse_bars (l : Fin 4) (s : State) : Bars s (longPulse l s) := by
  unfold longPulse
  split
  · exact .refl s
  · exact ((Bars.of_basis (reach_basis s _)).trans (putLine_bars l _ _)).settled

theorem stuckTimerExpiry_bars (l : Fin 4) (s : State) : Bars s (stuckTimerExpiry l s) := by
  unfold stuckTimerExpiry
  split
  · exact .refl s
  · split
    · exact settled_bars rfl
    · exact .of_basis rfl

theorem openTimerExpiry_bars (l : Fin 4) (s : State) : Bars s (openTimerExpiry l s) := by
  unfold openTimerExpiry
  split
  · exact .refl s
  · split
    · exact .of_basis rfl
    · exact settled_bars rfl

theorem contactChange_bars (d : DoorId) (b : Bool) (s : State) : Bars s (contactChange d b s) := by
  unfold contactChange
  split
  · split <;> exact settled_bars (by simp)
  · exact .refl s

theorem exitChange_bars (d : DoorId) (b : Bool) (s : State) : Bars s (exitChange d b s) := by
  unfold exitChange
  dsimp only
  split
  · split
    · exact settled_bars (by simp)
    · exact .of_basis (by simp)
  · exact .refl s

theorem releaseExpiry_bars (d : DoorId) (s : State) : Bars s (releaseExpiry d s) := by
  unfold releaseExpiry
  split
  · exact settled_bars (by simp)
  · exact .refl s

theorem heldExpiry_bars (d : DoorId) (s : State) : Bars s (heldExpiry d s) := by
  unfold heldExpiry
  split
  · exact settled_bars (by simp)
  · exact .refl s

theorem waitExpiry_bars (d : DoorId) (s : State) : Bars s (waitExpiry d s) := by
  unfold waitExpiry
  split
  · exact .refl s
  · exact .of_basis (by simp)

theorem pairExpiry_bars (d : DoorId) (s : State) : Bars s (pairExpiry d s) := by
  unfold pairExpiry
  split
  · exact .refl s
  · exact .of_basis (by simp)

theorem presentCredential_bars (p : Presentation) (s : State) : Bars s (presentCredential p s).2 :=
  settled_bars (u := (decidePresentation p s).after.setBroken p.door false) (by simp)

theorem zoneSweep_bars (x : Unit) (s : State) : Bars s (zoneSweep x s).2 := by
  unfold zoneSweep
  split
  · exact settled_bars rfl
  · exact .refl s

theorem setPosture_bars (p : Posture) (s : State) : Bars s (setPosture p s).2 := by
  unfold setPosture
  split
  · exact .refl s
  · split
    · exact .refl s
    · exact settled_bars (by simp [acceptPosture])

theorem forceOutput_bars (x : Fin 12 × Bool) (s : State) : Bars s (forceOutput x s).2 := by
  unfold forceOutput
  split
  · exact .refl s
  · exact settled_bars rfl

theorem releaseOutput_bars (l : Fin 12) (s : State) : Bars s (releaseOutput l s).2 :=
  settled_bars (u := s.setOutput l _) rfl

theorem senseChange_bars (l : Fin 12) (high : Bool) (s : State) : Bars s (senseChange l high s) := by
  unfold senseChange
  split
  · exact .refl s
  · dsimp only
    split
    · exact settled_bars rfl
    · exact .of_basis rfl

theorem mismatchExpiry_bars (l : Fin 12) (s : State) : Bars s (mismatchExpiry l s) := by
  unfold mismatchExpiry
  split
  · exact .refl s
  · exact settled_bars rfl

theorem duressChange_bars (d : DuressInput) (b : Bool) (s : State) : Bars s (duressChange d b s) := by
  unfold duressChange
  split
  · exact settled_bars (trigger_basis s _)
  · exact .refl s

theorem tamperChange_bars (b : Bool) (s : State) : Bars s (tamperChange b s) := by
  unfold tamperChange
  split
  · exact settled_bars (trigger_basis s _)
  · exact .refl s

theorem nextAlarm_bars (x : Unit) (s : State) : Bars s (nextAlarm x s).2 := by
  unfold nextAlarm
  split
  · exact settled_bars (acknowledge_basis s _)
  · exact .of_basis rfl

theorem restoreAlarm_bars (x : Source) (s : State) : Bars s (restoreAlarm x s).2 := by
  unfold restoreAlarm
  iterate 4
    split
    · exact .refl s
  exact settled_bars (restoreSource_basis s x)

theorem maskAlarm_bars (x : Source × Bool) (s : State) : Bars s (maskAlarm x s).2 := by
  unfold maskAlarm
  split
  · exact .refl s
  · exact settled_bars rfl

theorem confirmRemote_bars (f : Frame) (s : State) : Bars s (confirmRemote f s).2 :=
  settled_bars (u := enqueue f s) (enqueue_basis s f)

/-! ## Commands of the zone bus -/

theorem beginFrame_bars (s : State) : Bars s (beginFrame s) := by
  unfold beginFrame
  split
  · exact .refl s
  · split
    · exact .of_basis rfl
    · exact .refl s

theorem loseArbitration_bars (s : State) : Bars s (loseArbitration s) := by
  unfold loseArbitration
  split
  · exact .refl s
  · exact settled_bars (by simp)

theorem bitError_bars (bits : List Bool) (s : State) : Bars s (bitError bits s) := by
  unfold bitError
  split
  · exact .refl s
  · exact settled_bars (by simp)

theorem quietExpiry_bars (s : State) : Bars s (quietExpiry s) := by
  unfold quietExpiry
  split
  · exact .refl s
  · exact settled_bars rfl

theorem completeFrame_bars (s : State) : Bars s (completeFrame s) := by
  unfold completeFrame
  split
  · exact .refl s
  · exact .of_basis (by simp)

theorem setStuck_bars (b : Bool) (s : State) : Bars s (setStuck b s) := by
  unfold setStuck
  split
  · exact settled_bars rfl
  · exact .refl s

theorem firstStatusExpiry_bars (s : State) : Bars s (firstStatusExpiry s) := by
  unfold firstStatusExpiry
  split
  · exact .refl s
  · exact settled_bars (by simp)

theorem statusExpiry_bars (s : State) : Bars s (statusExpiry s) := by
  unfold statusExpiry
  split
  · exact .refl s
  · exact (((Bars.of_basis (reach_basis s _)).trans (ownCheck_bars _)).trans (.of_basis (sendStatus_basis _))).settled

/-! ## Commands of the panel port -/

theorem readReply_bars (clocked before : Nat) (s : State) : Bars s (readReply clocked before s) := by
  have port (p : Port) : Bars s (s.setPort p) := .of_basis rfl
  unfold readReply
  split
  · exact .refl s
  · split
    · split <;> exact port _
    · exact port _

theorem unknownCode_bars (code : Nat) (rest : PanelRest) (s : State) : Bars s (unknownCode code rest s) := by
  have hp : ∀ u p, Bars s u → Bars s (u.setPort p) := fun u p h => h.trans (.of_basis rfl)
  unfold unknownCode
  split
  · exact commandFrame_induction hp hp (fun _ h => h) (fun _ h => h) (.refl s)
  · exact .refl s

theorem latchTimes_bars (x : Unit) (s : State) : Bars s (latchTimes x s).2 := by
  unfold latchTimes
  split
  · exact .refl s
  · exact .of_basis rfl

theorem readTimes_bars (x : Unit) (s : State) : Bars s (readTimes x s).2 := by
  unfold readTimes
  split
  · exact .of_basis rfl
  · exact .refl s

/-! ## Commands of the Sequencer -/

theorem windowExpiry_bars (a : Nat) (l : Fin 4) (s : State) : Bars s (windowExpiry a l s) := by
  unfold windowExpiry
  split
  · exact .refl s
  · exact ((Bars.of_basis (reach_basis s _)).trans (dropDetection_bars a l _)).settled

theorem abortChange_bars (b : Bool) (s : State) : Bars s (abortChange b s) := by
  have moved : Bars s (abortInput b s) := by
    unfold abortInput
    split
    · split
      · exact abortJoin_bars _ s
      · exact abortLeave_bars _ s
    · exact .of_basis (by simp [abortCall])
    · exact .refl s
  unfold abortChange
  split
  · exact moved.settled
  · exact .refl s

theorem abortStuckExpiry_bars (s : State) : Bars s (abortStuckExpiry s) := by
  unfold abortStuckExpiry
  split
  · exact .refl s
  · exact (((Bars.of_basis (reach_basis s _)).trans (setSeq_bars _ _)).trans (.of_basis (trigger_basis _ _))).settled

/-- R57: a countdown that runs is past INHIBITED already. -/
theorem countdownExpiry_bars (s : State) : Bars s (countdownExpiry s) := by
  unfold countdownExpiry
  split
  · next t hs _ =>
    exact ((Bars.of_basis (reach_basis s t)).trans
      ((enterReleasing_only (s.reach t)).toHanded.bars fun b => absurd hs (b.stage_ne (by decide)))).settled
  · exact .refl s

theorem valveDelayExpiry_bars (s : State) : Bars s (valveDelayExpiry s) := by
  unfold valveDelayExpiry
  split
  · exact ((Bars.of_basis (reach_basis s _)).trans (energiseValve_bars _)).settled
  · exact .refl s

theorem valvePulseExpiry_bars (s : State) : Bars s (valvePulseExpiry s) := by
  unfold valvePulseExpiry
  split
  · next t hs _ =>
    exact ((Bars.of_basis (reach_basis s t)).trans (((setSeq_only (s.reach t) _).trans
      (enterStage_only _ _)).toHanded.bars fun b => absurd hs (b.stage_ne (by decide)))).settled
  · exact .refl s

theorem soakExpiry_bars (s : State) : Bars s (soakExpiry s) := by
  unfold soakExpiry
  split
  · next t hs _ =>
    exact ((Bars.of_basis (reach_basis s t)).trans (((setSeq_only (s.reach t) _).trans
      (enterStage_only _ _)).toHanded.bars fun b => absurd hs (b.stage_ne (by decide)))).settled
  · exact .refl s

theorem flowChange_bars (b : Bool) (s : State) : Bars s (flowChange b s) := by
  unfold flowChange
  split
  · exact (confirmFlow_bars s).settled
  · exact .refl s

theorem flowWaitExpiry_bars (s : State) : Bars s (flowWaitExpiry s) := by
  unfold flowWaitExpiry
  split
  · exact .refl s
  · exact (((Bars.of_basis (reach_basis s _)).trans (setSeq_bars _ _)).trans (.of_basis (trigger_basis _ _))).settled

theorem noticeExpiry_bars (s : State) : Bars s (noticeExpiry s) := by
  unfold noticeExpiry
  split
  · exact .refl s
  · exact ((Bars.of_basis (reach_basis s _)).trans (sendNotice_bars _)).settled

theorem cadenceExpiry_bars (s : State) : Bars s (cadenceExpiry s) := by
  unfold cadenceExpiry
  split
  · exact .refl s
  · exact (Bars.of_basis (reach_basis s _)).trans (setSeq_bars _ _)

/-! ## Every command -/

/-- The owner of a panel command that only reports. -/
theorem report_bars {α : Type} {act : α → State → Answer × State} (h : ∀ x u, (act x u).2 = u) (x : α) (u : State) :
    Bars u (act x u).2 := by
  rw [h]
  exact .refl u

/-- R26: as a peer falls SILENT, the area of the state it leaves decides. -/
theorem silenceExpiry_barred (a : Nat) {s : State} (h : (silenceExpiry a s).Unheard) (b : s.Barred) :
    (silenceExpiry a s).Barred := by
  unfold silenceExpiry at h ⊢
  split at h
  · exact b
  · next t _ =>
    refine (settle_bars _ h).2 ⟨?_, ?_, ?_⟩
    · rw [State.role, State.img, State.setPeer_image]
      exact b.role
    · rw [State.setPeer_seq]
      exact b.stage
    · rw [State.setPeer_seq]
      exact b.occupied

/-- The commands that `Bars` does not speak of: the resets, the end of LOAD, a peer's silence, and a manual release. -/
def Instr.aside : Instr → Bool
  | .powerOnReset => true
  | .pinReset => true
  | .imageLoadComplete .. => true
  | .silenceTimerExpiry _ => true
  | .manrelMade .. => true
  | .releaseCallFrame .. => true
  | _ => false

theorem exec_bars (c : Instr) (s : State) : Instr.aside c = true ∨ ∃ t, exec c s = .next t ∧ Bars s t := by
  have late := fun dt => elapse_bars s dt
  cases c with
  | powerOnReset => exact .inl rfl
  | pinReset => exact .inl rfl
  | imageLoadComplete dt m => exact .inl rfl
  | silenceTimerExpiry a => exact .inl rfl
  | manrelMade e b => exact .inl rfl
  | releaseCallFrame dt bits => exact .inl rfl
  | resetDetection dt rest => exact .inr ⟨_, rfl, panelCommand_bars resetDetection_bars s⟩
  | suppressionIsolate dt rest => exact .inr ⟨_, rfl, panelCommand_bars suppressionIsolate_bars s⟩
  | initExpiry => exact .inr ⟨_, rfl, initExpiry_bars s⟩
  | referenceCycle dt => exact .inr ⟨_, rfl, (late dt).trans (referenceCycle_bars _)⟩
  | referenceGap dt => exact .inr ⟨_, rfl, (late dt).trans (referenceGap_bars _)⟩
  | clockLimitExpiry => exact .inr ⟨_, rfl, clockLimitExpiry_bars s⟩
  | clockFallback dt => exact .inr ⟨_, rfl, (late dt).trans (clockFallback_bars _)⟩
  | joinTimerExpiry => exact .inr ⟨_, rfl, joinTimerExpiry_bars s⟩
  | detectorRisingEdge dt l => exact .inr ⟨_, rfl, (late dt).trans (risingEdge_bars l _)⟩
  | detectorFallingEdge dt l => exact .inr ⟨_, rfl, (late dt).trans (fallingEdge_bars l _)⟩
  | longPulse l => exact .inr ⟨_, rfl, longPulse_bars l s⟩
  | stuckTimerExpiry l => exact .inr ⟨_, rfl, stuckTimerExpiry_bars l s⟩
  | openTimerExpiry l => exact .inr ⟨_, rfl, openTimerExpiry_bars l s⟩
  | readDetector dt rest => exact .inr ⟨_, rfl, panelCommand_bars (report_bars fun _ _ => rfl) s⟩
  | statusFrame dt bits => exact .inr ⟨_, rfl, receiveFrame_bars statusOwner_bars s dt⟩
  | queryFrame dt bits => exact .inr ⟨_, rfl, receiveFrame_bars queryOwner_bars s dt⟩
  | readPeer dt rest => exact .inr ⟨_, rfl, panelCommand_bars (report_bars fun _ _ => rfl) s⟩
  | detectFrame dt bits => exact .inr ⟨_, rfl, receiveFrame_bars detectOwner_bars s dt⟩
  | windowTimerExpiry a l => exact .inr ⟨_, rfl, windowExpiry_bars a l s⟩
  | abortInputChange e b => exact .inr ⟨_, rfl, inputEvent_bars abortChange_bars b e s⟩
  | abortStuckExpiry => exact .inr ⟨_, rfl, abortStuckExpiry_bars s⟩
  | countdownExpiry => exact .inr ⟨_, rfl, countdownExpiry_bars s⟩
  | valveDelayExpiry => exact .inr ⟨_, rfl, valveDelayExpiry_bars s⟩
  | valvePulseExpiry => exact .inr ⟨_, rfl, valvePulseExpiry_bars s⟩
  | flowMade e b => exact .inr ⟨_, rfl, inputEvent_bars flowChange_bars b e s⟩
  | flowWaitExpiry => exact .inr ⟨_, rfl, flowWaitExpiry_bars s⟩
  | soakTimerExpiry => exact .inr ⟨_, rfl, soakExpiry_bars s⟩
  | vsupChange dt b => exact .inr ⟨_, rfl, (late dt).trans (settled_bars (setPins_basis _ _))⟩
  | noticeTimerExpiry => exact .inr ⟨_, rfl, noticeExpiry_bars s⟩
  | suppressionReset dt rest => exact .inr ⟨_, rfl, panelCommand_bars suppressionReset_bars s⟩
  | releaseNoticeFrame dt bits => exact .inr ⟨_, rfl, receiveFrame_bars noticeOwner_bars s dt⟩
  | cadencePhaseExpiry => exact .inr ⟨_, rfl, cadenceExpiry_bars s⟩
  | doorContactOpens e d => exact .inr ⟨_, rfl, inputEvent_bars (contactChange_bars d) true e s⟩
  | doorContactCloses e d => exact .inr ⟨_, rfl, inputEvent_bars (contactChange_bars d) false e s⟩
  | requestToExitPress e d b => exact .inr ⟨_, rfl, inputEvent_bars (exitChange_bars d) b e s⟩
  | releaseWindowExpiry d => exact .inr ⟨_, rfl, releaseExpiry_bars d s⟩
  | heldTimerExpiry d => exact .inr ⟨_, rfl, heldExpiry_bars d s⟩
  | pendingWaitExpiry d => exact .inr ⟨_, rfl, waitExpiry_bars d s⟩
  | presentCredential dt rest => exact .inr ⟨_, rfl, panelCommand_bars presentCredential_bars s⟩
  | pairWindowExpiry d => exact .inr ⟨_, rfl, pairExpiry_bars d s⟩
  | confirmRemote dt rest => exact .inr ⟨_, rfl, panelCommand_bars confirmRemote_bars s⟩
  | confirmFrame dt bits => exact .inr ⟨_, rfl, receiveFrame_bars confirmOwner_bars s dt⟩
  | zoneSweep dt rest => exact .inr ⟨_, rfl, panelCommand_bars zoneSweep_bars s⟩
  | readRoster dt rest => exact .inr ⟨_, rfl, panelCommand_bars (report_bars fun _ _ => rfl) s⟩
  | setPosture dt rest => exact .inr ⟨_, rfl, panelCommand_bars setPosture_bars s⟩
  | postureFrame dt bits => exact .inr ⟨_, rfl, receiveFrame_bars postureOwner_bars s dt⟩
  | forceOutput dt rest => exact .inr ⟨_, rfl, panelCommand_bars forceOutput_bars s⟩
  | releaseOutput dt rest => exact .inr ⟨_, rfl, panelCommand_bars releaseOutput_bars s⟩
  | readOutputs dt rest => exact .inr ⟨_, rfl, panelCommand_bars (report_bars fun _ _ => rfl) s⟩
  | senseInputChange dt l b => exact .inr ⟨_, rfl, (late dt).trans (senseChange_bars l b _)⟩
  | mismatchTimerExpiry l => exact .inr ⟨_, rfl, mismatchExpiry_bars l s⟩
  | duressInputChange e d b => exact .inr ⟨_, rfl, inputEvent_bars (duressChange_bars d) b e s⟩
  | tamperInputChange e b => exact .inr ⟨_, rfl, inputEvent_bars tamperChange_bars b e s⟩
  | nextAlarm dt rest => exact .inr ⟨_, rfl, panelCommand_bars nextAlarm_bars s⟩
  | restoreAlarm dt rest => exact .inr ⟨_, rfl, panelCommand_bars restoreAlarm_bars s⟩
  | maskAlarm dt rest => exact .inr ⟨_, rfl, panelCommand_bars maskAlarm_bars s⟩
  | readSources dt rest => exact .inr ⟨_, rfl, panelCommand_bars (report_bars fun _ _ => rfl) s⟩
  | duressFrame dt bits => exact .inr ⟨_, rfl, receiveFrame_bars duressOwner_bars s dt⟩
  | readRemoteList dt rest =>
    exact .inr ⟨_, rfl, panelCommand_bars (act := readRemoteList) (fun _ _ => .of_basis rfl) s⟩
  | beginTransmission dt levels =>
    exact .inr ⟨_, rfl, ((late dt).trans (.of_basis (hear_basis _ levels))).trans (beginFrame_bars _)⟩
  | arbitrationLoss dt => exact .inr ⟨_, rfl, (late dt).trans (loseArbitration_bars _)⟩
  | ownBitError back => exact .inr ⟨_, rfl, (late back.dt).trans (bitError_bars back.bits _)⟩
  | quietSpellExpiry => exact .inr ⟨_, rfl, quietExpiry_bars s⟩
  | transmissionComplete dt => exact .inr ⟨_, rfl, (late dt).trans (completeFrame_bars _)⟩
  | busStuck dt => exact .inr ⟨_, rfl, (late dt).trans (setStuck_bars true _)⟩
  | busStuckEnd dt => exact .inr ⟨_, rfl, (late dt).trans (setStuck_bars false _)⟩
  | receiveDiscard dt bits => exact .inr ⟨_, rfl, (late dt).trans (.of_basis (hear_basis _ bits))⟩
  | firstStatusDelayExpiry => exact .inr ⟨_, rfl, firstStatusExpiry_bars s⟩
  | statusTimerExpiry => exact .inr ⟨_, rfl, statusExpiry_bars s⟩
  | replyRead dt n b => exact .inr ⟨_, rfl, (late dt).trans (readReply_bars n b _)⟩
  | unknownCommand dt k rest => exact .inr ⟨_, rfl, (late dt).trans (unknownCode_bars k rest _)⟩
  | getStatus dt rest => exact .inr ⟨_, rfl, panelCommand_bars (act := getStatus) (fun _ _ => .of_basis rfl) s⟩
  | latchTimes dt rest => exact .inr ⟨_, rfl, panelCommand_bars latchTimes_bars s⟩
  | readTimes dt rest => exact .inr ⟨_, rfl, panelCommand_bars readTimes_bars s⟩

/-- R193: the blocks run only after LOAD, where no image is loaded. -/
theorem imageLoaded_of_running {s : State} (h : s.running = true) (m : Vector Byte 96) : imageLoaded m s = s := by
  unfold State.running at h
  unfold imageLoaded
  split at h <;> simp_all

/-- R78: while a member is unheard no command but a manual release starts a countdown. -/
theorem exec_barred {c : Instr} {s t : State} (h : exec c s = .next t) (hs : s.running = true) (ht : t.running = true)
    (hu : t.Unheard) (hm : ∀ e made, c ≠ .manrelMade e made) (hc : ∀ dt bits, c ≠ .releaseCallFrame dt bits)
    (b : s.Barred) : t.Barred := by
  rcases exec_bars c s with ha | ⟨u, hx, k⟩
  · unfold Instr.aside at ha
    split at ha
    case h_1 | h_2 =>
      injection h with e
      rw [← e] at ht
      cases ht
    case h_3 dt m =>
      injection h with e
      have e : imageLoaded m (s.elapse dt) = t := e
      rw [imageLoaded_of_running (s := s.elapse dt) hs] at e
      rw [← e] at hu ⊢
      exact (elapse_bars s dt hu).2 b
    case h_4 a =>
      injection h with e
      have e : silenceExpiry a s = t := e
      rw [← e] at hu ⊢
      exact silenceExpiry_barred a hu b
    case h_5 e made => exact absurd rfl (hm e made)
    case h_6 dt bits => exact absurd rfl (hc dt bits)
    · cases ha
  · rw [hx] at h
    injection h with e
    rw [← e] at hu ⊢
    exact (k hu).2 b

end Sys2Proof.Machine
end

section
/-! SUPPORT. The start of the sequence at a release station by a detection from the bus (R45, R46, R54, R55). -/

namespace Sys2Proof.Machine

/-! ## What follows once the area occupancy has been handed on -/

/-- R28, R56: where a settling does not end INHIBITED, the Sequencer and a notice that waits stand. -/
theorem settle_onward_of_noStart {s : State} (h : s.NoStart) : Onward s (settle s) := by
  have ha := settle_after s
  refine ⟨ha.seq h, fun ⟨hp, e, he, hf⟩ => ⟨(settle_sent s hp).1, e, settle_others s h hp e he ?_, ?_⟩⟩
  · rw [hf]
    exact (by decide : 0 ≠ 6)
  · rw [hf, noticeFrame_congr (ha.seq h) ha.handed.image ha.handed.now]

/-- R55, R69: a countdown that starts with something remaining is told. -/
theorem startCountdown_tells {r : Nat} {s : State} (hr : r ≠ 0) (hp : places s.bus.queue ≤ 6) :
    Tells (startCountdown r s) := by
  unfold startCountdown
  split
  · exact (enterCountdown_runs hr).2.2.2 hp
  · have hsent := (sendNotice_told (s.setSeq { s.seq with stage := .held, countdown := none, frozen := r })).sent
    exact ⟨(hsent hp).1, sendNotice_notice hp⟩

theorem startCountdown_frozen {r : Nat} {s : State} (ha : s.seq.abortSet = []) (hr : r ≠ 0) :
    (startCountdown r s).seq.frozen = 0 := by
  simp [startCountdown, enterCountdown, ha, hr, sendNotice_seq]

theorem startCountdown_countdown {r : Nat} {s : State} (ha : s.seq.abortSet ≠ []) :
    (startCountdown r s).seq.countdown = none := by
  simp [startCountdown, enterHeld, ha, sendNotice_seq]

theorem enterStage_tells (st : Stage) {s : State} (hp : places s.bus.queue ≤ 6) : Tells (enterStage st s) :=
  ⟨((enterStage_told st s).sent hp).1, enterStage_notice st s hp⟩

/-! ## Coincidence is met -/

/-- R45, R46, R55, R69: a list with both groups has been reached in NORMAL or FIRST_ALARM with the latch clear; `u` is the
station before what follows from the list, and `t` all that follows. -/
structure Met (u t : State) : Prop where
  latch : t.seq.latch = true
  list : t.seq.list = u.seq.list.map Detection.consume
  abortSet : t.seq.abortSet = u.seq.abortSet
  inhibited : u.areaOccupied = true → t.seq.stage = .inhibited ∧ t.seq.countdown = none ∧ t.seq.frozen = 0
  countdown : u.areaOccupied = false → u.seq.abortSet = [] → u.img.tpd ≠ 0 →
    t.seq.stage = .countdown ∧ t.seq.countdown = some (u.now + u.img.tpd * 1000000) ∧ t.seq.frozen = 0
  held : u.areaOccupied = false → u.seq.abortSet ≠ [] →
    t.seq.stage = .held ∧ t.seq.countdown = none ∧ t.seq.frozen = u.img.tpd * 1000000
  tells : u.img.tpd ≠ 0 → places u.bus.queue ≤ 6 → Tells t

theorem listChanged_met {u : State} (calm : u.areaOccupied = u.seq.occupied) (hr : u.role = .release)
    (hb : u.seq.stage = .normal ∨ u.seq.stage = .firstAlarm) (hl : u.seq.latch = false)
    (hg : ∃ e ∈ u.seq.list, ∃ x ∈ u.seq.list, e.group ≠ x.group) : Met u (listChanged u) := by
  obtain ⟨hlatch, hlist⟩ := listChanged_of_meeting_list hr hb hl hg
  have hc := listChanged_of_meeting hr hb hl hg
  have htpd (h : u.img.tpd ≠ 0) : Config.sec u.img.tpd ≠ 0 := by unfold Config.sec; omega
  have hclear (h : u.areaOccupied = false) :
      listChanged u = startCountdown (Config.sec u.img.tpd) (latchList u) := by
    rw [hc, if_neg (by rw [← calm, h]; decide)]
  refine ⟨hlatch, hlist, (listChanged_aside u).1, fun h => ?_, fun h ha ht => ?_, fun h ha => ?_, fun ht hp => ?_⟩
  · rw [hc, if_pos (calm ▸ h), enterStage_seq]
    exact ⟨rfl, rfl, rfl⟩
  · rw [hclear h]
    obtain ⟨h1, h2⟩ := startCountdown_runs (s := latchList u) ha (htpd ht)
    exact ⟨h1, h2, startCountdown_frozen (s := latchList u) ha (htpd ht)⟩
  · rw [hclear h]
    obtain ⟨h1, h2⟩ := startCountdown_holds (r := Config.sec u.img.tpd) (s := latchList u) ha
    exact ⟨h1, startCountdown_countdown (s := latchList u) ha, h2⟩
  · rw [hc]
    split
    · exact enterStage_tells _ (s := latchList u) hp
    · exact startCountdown_tells (s := latchList u) (htpd ht) hp

theorem Met.onward {u v t : State} (h : Met u v) (k : Onward v t) : Met u t := by
  obtain ⟨hstage, -, habort, hlist⟩ := apart_fields k.apart
  have hlatch : t.seq.latch = v.seq.latch := (congrArg Sequencer.latch k.apart :)
  have hcount : t.seq.countdown = v.seq.countdown := (congrArg Sequencer.countdown k.apart :)
  have hfrozen : t.seq.frozen = v.seq.frozen := (congrArg Sequencer.frozen k.apart :)
  obtain ⟨h1, h2, h3, h4, h5, h6, h7⟩ := h
  rw [← hlatch] at h1
  rw [← hlist] at h2
  rw [← habort] at h3
  rw [← hstage, ← hcount, ← hfrozen] at h4 h5 h6
  exact ⟨h1, h2, h3, h4, h5, h6, fun ht hp => k.tells (h7 ht hp)⟩

/-- The area occupancy has been handed on already, so the sequence that starts stands as it started. -/
theorem listChanged_onward {u : State} (calm : u.areaOccupied = u.seq.occupied) :
    Onward (listChanged u) (settle (listChanged u)) :=
  settle_onward_of_noStart (.inr (.inr (.inr (by
    rw [(listChanged_only u).toHanded.areaOccupied, (listChanged_notified u).occupied, calm]))))

/-! ## Coincidence is not met -/

/-- R54, R71: the list has grown with no coincidence: FIRST_ALARM, and in ISOLATED nothing. -/
theorem listChanged_recorded {u : State} (hr : u.role = .release) (hl : u.seq.list ≠ [])
    (hn : (u.seq.stage = .normal ∨ u.seq.stage = .firstAlarm) ∧ (∀ e ∈ u.seq.list, ∀ x ∈ u.seq.list, e.group = x.group) ∨
      u.seq.stage = .isolated) :
    (listChanged u).seq.list = u.seq.list ∧ (listChanged u).seq.latch = u.seq.latch ∧
      (listChanged u).seq.stage = (if u.seq.stage = .isolated then .isolated else .firstAlarm) ∧
      (u.seq.stage = .normal → places u.bus.queue ≤ 6 → Tells (listChanged u)) := by
  rw [listChanged_of_noMeeting hr (.inr (hn.symm.imp id And.right))]
  have k := followList_advances u
  refine ⟨k.list, k.latch, ?_, fun hs hp => ?_⟩
  · rcases hn with ⟨h | h, -⟩ | h
    · rw [followList_normal h hl, enterStage_stage, h]
      rfl
    · rw [followList_firstAlarm h hl, h]
      rfl
    · rw [followList_of_other (by rw [h]; decide) (by rw [h]; decide), h]
      rfl
  · rw [followList_normal hs hl]
    exact enterStage_tells _ hp

/-! ## A detection from the bus -/

/-- R40: a detection that has no entry, in a list that has room. -/
theorem detect_joins {a : Nat} {l : Fin 4} {g : Group} {s : State} (hr : s.role ≠ .noArea)
    (hn : ∀ e ∈ s.seq.list, ¬(e.station = a ∧ e.line = l)) (hl : s.seq.list.length < 8) :
    detect false a l g s = listChanged (s.withList (s.seq.list ++ [newDetection s a l g])) := by
  refine detect_new hr (List.find?_eq_none.mpr fun e he => ?_) (makeRoom_free hl)
  simpa [Detection.names] using hn e he

theorem forall_consumed (list : List Detection) :
    ∀ e ∈ list.map Detection.consume, e.consumed = true ∧ e.window = none := by
  intro e he
  obtain ⟨x, -, rfl⟩ := List.mem_map.mp he
  exact ⟨rfl, rfl⟩

end Sys2Proof.Machine
end

section
/-! SUPPORT. A detection from the bus in the list of a release station, with what follows from it (R45, R54). -/

namespace Sys2Proof.Machine

/-- R38, R40: `u` is what a DETECT has made of the station `s`: the entry `n` is the newest of the list, the area occupancy
has been handed on, and what follows from the list is yet to come. -/
structure Joined (s : State) (dt : Nat) (n : Detection) (u : State) : Prop where
  role : u.role = .release
  img : u.img = s.img
  now : u.now = s.now + dt
  list : u.seq.list = s.seq.list ++ [n]
  latch : u.seq.latch = s.seq.latch
  abortSet : u.seq.abortSet = s.seq.abortSet
  stage : s.seq.stage ≠ .inhibited → u.seq.stage = s.seq.stage
  calm : u.areaOccupied = u.seq.occupied
  room : s.bus.queue.length ≤ 3 → places u.bus.queue ≤ 6
  rest : ∀ t, Handed u t → t.roster = s.roster ∧ t.port = s.port ∧ t.posture.view = s.posture.view

/-- R40: the entry of a detection that has arrived now. -/
def arrivedDetection (s : State) (dt a : Nat) (l : Fin 4) (g : Group) : Detection where
  station := a
  line := l
  group := g
  arrival := s.now + dt
  consumed := false
  window := some (s.now + dt + s.img.tc * 1000000)

theorem exec_detectFrame_joins {s : State} {dt a : Nat} {bits : List Bool} {area : BitVec 4} {line : Fin 4}
    {group level : Byte} {g : Group}
    (h : Reaches { kind := 3, dt := dt, bits := bits } s a (.detect area line group true level)) (hr : s.role = .release)
    (ha : area.toNat = s.area) (hg : Group.ofNat? group.toNat = some g) (hl : s.seq.list.length < 8)
    (hn : ∀ e ∈ s.seq.list, ¬(e.station = a ∧ e.line = line)) :
    ∃ u, exec (.detectFrame dt bits) s = .next (settle (listChanged u)) ∧
      Joined s dt (arrivedDetection s dt a line g) u := by
  obtain ⟨u, hu⟩ : ∃ u, s.reached { kind := 3, dt := dt, bits := bits } a (.detect area line group true level) = u :=
    ⟨_, rfl⟩
  have hrole : u.role = .release := hu ▸ (reached_role ..).trans hr
  have harea : area.toNat = u.area := hu ▸ ha.trans (reached_area ..).symm
  have hlist : u.seq.list = s.seq.list := hu ▸ (reached_list ..).1
  have hnow : u.now = s.now + dt := hu ▸ reached_now ..
  have himg : u.img = s.img := hu ▸ reached_img ..
  have hne : u.role ≠ .noArea := by rw [hrole]; decide
  have hnew : newDetection u a line g = arrivedDetection s dt a line g := by
    rw [newDetection_eq, hnow, himg]
    rfl
  have he := exec_detectFrame h
  rw [hu, detectOwner_active hne harea hg, detect_joins hne (by rwa [hlist]) (by rwa [hlist]), hnew, hlist] at he
  exact ⟨_, he, {
    role := hrole
    img := himg
    now := hnow
    list := rfl
    latch := hu ▸ (reached_list ..).2
    abortSet := hu ▸ reached_abortSet ..
    stage := fun hs => hu ▸ reached_stage _ _ _ _ hs
    calm := by subst hu; exact evalOccupancy_calm (s := s.heard _ a _) (by rw [heard_role, hr]; decide)
    room := fun hq => hu ▸ reached_places _ _ _ _ hq
    rest := fun t ht => by
      obtain ⟨hroster, hport, hview, -⟩ :=
        reached_rest s _ a _ (by rw [hu]; exact (setSeq_only u _).toHanded.trans ht)
      exact ⟨hroster, hport, hview⟩ }⟩

theorem settle_listChanged_handed (u : State) : Handed u (settle (listChanged u)) :=
  (listChanged_only u).toHanded.trans (settle_handed _)

end Sys2Proof.Machine
end

section
/-! SUPPORT. INHIBITED and an area that may have become clear: by a sweep, by a passage, and by a STATUS with the
recoveries it brings (R28, R30, R31, R56). -/

namespace Sys2Proof.Machine

/-! ## A stage that stands while its event runs out -/

/-- The stage, with what remains of a countdown, the abort set and the area occupancy stand, and so does a notice that
waits; the coincidence list may have moved. -/
structure Proceeds (s t : State) : Prop where
  stage : t.seq.stage = s.seq.stage
  countdown : t.seq.countdown = s.seq.countdown
  frozen : t.seq.frozen = s.seq.frozen
  abortSet : t.seq.abortSet = s.seq.abortSet
  area : t.areaOccupied = s.areaOccupied
  tells : Tells s → Tells t

theorem Proceeds.refl (s : State) : Proceeds s s := ⟨rfl, rfl, rfl, rfl, rfl, id⟩

theorem Proceeds.trans {s t u : State} (h : Proceeds s t) (k : Proceeds t u) : Proceeds s u where
  stage := k.stage.trans h.stage
  countdown := k.countdown.trans h.countdown
  frozen := k.frozen.trans h.frozen
  abortSet := k.abortSet.trans h.abortSet
  area := k.area.trans h.area
  tells ht := k.tells (h.tells ht)

theorem areaOccupied_congr {s t : State} (hr : t.roster = s.roster) (hi : t.image = s.image) (hp : t.peers = s.peers) :
    t.areaOccupied = s.areaOccupied := by
  unfold State.areaOccupied State.areaCount State.areaDoubt State.img State.peer
  rw [hr, hi, hp]

theorem Onward.proceeds {s t : State} (h : Onward s t) (k : Spares s t) : Proceeds s t :=
  ⟨h.stage, (congrArg Sequencer.countdown h.apart :), (congrArg Sequencer.frozen h.apart :),
    (congrArg Sequencer.abortSet h.apart :), areaOccupied_congr k.roster k.image k.peers, h.tells⟩

theorem setAnn_proceeds (s : State) (x : Annunciator) : Proceeds s (s.setAnn x) :=
  ⟨rfl, rfl, rfl, rfl, rfl, fun ⟨hp, hw⟩ => ⟨hp, hw⟩⟩

/-- A notice says nothing of the coincidence list. -/
theorem withList_proceeds (s : State) (list : List Detection) : Proceeds s (s.withList list) :=
  ⟨rfl, rfl, rfl, rfl, rfl, fun ⟨hp, hw⟩ => ⟨hp, hw⟩⟩

theorem latchList_proceeds (s : State) : Proceeds s (latchList s) :=
  ⟨rfl, rfl, rfl, rfl, rfl, fun ⟨hp, hw⟩ => ⟨hp, hw⟩⟩

/-- The stage is one that the list does not move, and INHIBITED only while the area is occupied. -/
structure State.Steady (s : State) : Prop where
  normal : s.seq.stage ≠ .normal
  firstAlarm : s.seq.stage ≠ .firstAlarm
  area : s.seq.stage ≠ .inhibited ∨ s.areaOccupied = true

theorem State.Steady.noStart {s : State} (h : s.Steady) : s.NoStart := h.area.imp_right fun k => .inr (.inl k)

theorem Proceeds.steady {s t : State} (h : Proceeds s t) (k : s.Steady) : t.Steady := by
  obtain ⟨hn, hf, ha⟩ := k
  rw [← h.stage] at hn hf ha
  rw [← h.area] at ha
  exact ⟨hn, hf, ha⟩

/-! ## What a STATUS recovers in such a stage -/

/-- In such a stage the event proceeds. -/
def Holds (s t : State) : Prop := s.Steady → Proceeds s t

theorem Holds.refl (s : State) : Holds s s := fun _ => .refl s

theorem Holds.trans {s t u : State} (h : Holds s t) (k : Holds t u) : Holds s u :=
  fun hs => (h hs).trans (k ((h hs).steady hs))

theorem settle_holds (s : State) : Holds s (settle s) :=
  fun h => (settle_onward_of_noStart h.noStart).proceeds (settle_handed s).spares

theorem Holds.settled {s t : State} (h : Holds s t) : Holds s (settle t) := h.trans (settle_holds t)

theorem listChanged_holds (s : State) : Holds s (listChanged s) := by
  intro h
  have hm : coincidenceMet (latchList s) = latchList s := if_neg (not_or.mpr ⟨h.normal, h.firstAlarm⟩)
  have follow (u : State) (k : Proceeds s u) : Proceeds s (followList u) := by
    obtain ⟨hn, hf, -⟩ := k.steady h
    rwa [followList_of_other hn hf]
  unfold listChanged
  split
  · split
    · rw [hm]
      exact follow _ (latchList_proceeds s)
    · exact follow s (.refl s)
  · exact .refl s

theorem recoverDetections_holds (a : Nat) (c : Announcement) (s : State) : Holds s (recoverDetections a c s) := by
  have line (l : Fin 4) (u : State) : Holds u (recoverLine a c u l) := by
    unfold recoverLine
    split
    · rcases detect_recovered a l (if c.groupMask.getLsbD l.val then .g2 else .g1) u with h | ⟨room, h⟩ <;> rw [h]
      · exact .refl u
      · exact Holds.trans (fun _ => withList_proceeds u _) (listChanged_holds _)
    · exact .refl u
  have fold (ls : List (Fin 4)) (u : State) : Holds u (ls.foldl (recoverLine a c) u) := by
    induction ls generalizing u with
    | nil => exact .refl u
    | cons l ls ih => exact (line l u).trans (ih _)
  unfold recoverDetections
  split
  · exact fold allLines s
  · exact .refl s

theorem addRemote_holds (a : Nat) (k : RemoteKind) (s : State) : Holds s (addRemote a k s) := by
  have ann (u : State) (x : Annunciator) : Holds u (u.setAnn x) := fun _ => setAnn_proceeds u x
  unfold addRemote
  split
  · exact .refl s
  · split
    · exact ann s _
    · exact (ann s _).settled.trans (ann _ _)

theorem recoverDuress_holds (a : Nat) (c : Announcement) (s : State) : Holds s (recoverDuress a c s) := by
  unfold recoverDuress
  split
  · exact addRemote_holds a _ s
  · exact fun _ => setAnn_proceeds s _

theorem recoverFirstAlarm_holds (a : Nat) (c : Announcement) (s : State) : Holds s (recoverFirstAlarm a c s) := by
  unfold recoverFirstAlarm
  split
  · exact fun _ => setAnn_proceeds s _
  · split
    · exact addRemote_holds a _ s
    · exact .refl s

theorem listsRecovered_holds (a : Nat) (c : Announcement) (s : State) : Holds s (listsRecovered a c s) :=
  ((recoverDetections_holds a c s).settled.trans (recoverDuress_holds a c _).settled).trans
    (recoverFirstAlarm_holds a c _).settled

/-- R33: a release station keeps no mirror, so what is left is the posture. -/
theorem viewRecovered_holds {a : Nat} {c : Announcement} {s : State} (hr : s.role = .release) :
    Holds s (viewRecovered a c s) := by
  have hs := ((settle_handed s).spares.trans (adoptPosture_spares a c.posture c.epoch _)).trans (settle_handed _).spares
  have hm : viewRecovered a c s = settle (adoptPosture a c.posture c.epoch (settle s)) := mirrorStatus_of_not fun k => by
    rw [hs.releaseStation, releaseStation_of_release hr] at k
    cases k.1
  rw [hm]
  exact (settle_holds s).trans (Holds.settled fun _ =>
    (adoptPosture_onward a c.posture c.epoch _).proceeds (adoptPosture_spares a c.posture c.epoch _))

/-- R32: a STATUS that lets no abort go. -/
theorem statusOwner_holds {a : Nat} {c : Announcement} {s : State} (hr : s.role = .release)
    (h : a ∉ s.seq.abortSet ∨ c.abortHeld = true) : Holds s (statusOwner a (.status c) s) := by
  have hset := (listsRecovered_listOnly a c s).abortSet
  rw [statusOwner_eq, recoverAbort_of_not (.inr (by rwa [hset]))]
  exact (listsRecovered_holds a c s).trans (viewRecovered_holds ((listsRecovered_spares a c s).role.trans hr))

/-! ## The area occupancy is evaluated -/

theorem settle_evalOccupancy {s : State} (hr : s.running = true) (h : s.role ≠ .noArea) :
    settle (evalOccupancy s) = settle s := by
  unfold settle
  rw [if_pos hr, if_pos ((evalOccupancy_only s).toHanded.running.trans hr),
    evalOccupancy_of_agree (evalOccupancy s) (.inr (evalOccupancy_calm h))]

theorem settle_proceeds {s : State} (hr : s.running = true) (h : s.role ≠ .noArea) :
    Proceeds (evalOccupancy s) (settle s) := by
  rw [← settle_evalOccupancy hr h]
  exact (settle_onward_of_noStart (.inr (.inr (.inr (evalOccupancy_calm h))))).proceeds (settle_handed _).spares

/-- R56: INHIBITED ends as the area becomes clear. -/
theorem evalOccupancy_clear {s : State} (hr : s.role = .release) (hi : s.seq.stage = .inhibited)
    (ho : s.seq.occupied = true) (ha : s.areaOccupied = false) : evalOccupancy s =
      startCountdown (Config.sec s.img.tpd) (s.setSeq { s.seq with occupied := false }) := by
  unfold evalOccupancy
  rw [if_neg (by rw [hr, ho, ha]; decide), ha]
  exact if_pos ⟨hr, hi, rfl⟩

theorem startCountdown_begins (r : Nat) (s : State) : (startCountdown r s).seq.stage = .countdown ∨
    (startCountdown r s).seq.stage = .releasing ∨ (startCountdown r s).seq.stage = .held := by
  by_cases ha : s.seq.abortSet = []
  · by_cases hz : r = 0
    · exact .inr (.inl (hz ▸ startCountdown_expires ha))
    · exact .inl (startCountdown_runs ha hz).1
  · exact .inr (.inr (startCountdown_holds ha).1)

theorem evalOccupancy_steady {s : State} (hr : s.role = .release) (hi : s.seq.stage = .inhibited)
    (ho : s.seq.occupied = true) : (evalOccupancy s).Steady := by
  cases ha : s.areaOccupied
  · rw [evalOccupancy_clear hr hi ho ha]
    rcases startCountdown_begins (Config.sec s.img.tpd) (s.setSeq { s.seq with occupied := false }) with h | h | h <;>
      exact ⟨by rw [h]; decide, by rw [h]; decide, .inl (by rw [h]; decide)⟩
  · rw [evalOccupancy_of_agree s (.inr (ha.trans ho.symm))]
    exact ⟨by rw [hi]; decide, by rw [hi]; decide, .inr ha⟩

/-- What R56 says of `t`, which an event has made of a station `s` in INHIBITED: the stage holds while the area is
occupied, and what the countdown starts with stands when it has become clear. -/
def AreaDecides (s t : State) : Prop :=
  (t.areaOccupied = true → t.seq.stage = .inhibited ∧ t.seq.occupied = true) ∧
  (t.areaOccupied = false → t.seq.occupied = false ∧ t.seq.abortSet = s.seq.abortSet ∧
    (s.seq.abortSet = [] → s.img.tpd ≠ 0 →
      t.seq.stage = .countdown ∧ t.seq.countdown = some (t.now + s.img.tpd * 1000000)) ∧
    (s.seq.abortSet = [] → s.img.tpd = 0 → t.seq.stage = .releasing) ∧
    (s.seq.abortSet ≠ [] → t.seq.stage = .held ∧ t.seq.countdown = none ∧ t.seq.frozen = s.img.tpd * 1000000) ∧
    (s.img.tpd ≠ 0 → s.bus.queue.length ≤ 3 → NoticeWaits t))

/-- `u` is the running station `s`, whose roster or whose peer table may have changed, with the area occupancy yet to be
evaluated. -/
structure Awaits (s u : State) : Prop where
  seq : u.seq = s.seq
  image : u.image = s.image
  queue : u.bus.queue = s.bus.queue
  running : u.running = true

theorem of_basis {s t : State} (h : t.basis = s.basis) : t.image = s.image ∧ t.seq = s.seq :=
  ⟨(congrArg Prod.fst h :), (congrArg (fun b => b.2.2) h :)⟩

theorem running_of_receiving {s : State} : s.receiving = true → s.running = true := by
  unfold State.receiving State.running
  cases s.startup.phase <;> decide

theorem Awaits.role {s u : State} (h : Awaits s u) : u.role = s.role := by
  rw [State.role, State.role, State.img, State.img, h.image]

/-- R56: an event that leaves the Sequencer and an occupied area as they are. -/
theorem areaDecides_of_occupied {s t : State} (hi : s.seq.stage = .inhibited) (ho : s.seq.occupied = true)
    (h : t.seq = s.seq) (ha : t.areaOccupied = true) : AreaDecides s t :=
  ⟨fun _ => by rw [h]; exact ⟨hi, ho⟩, fun k => absurd (ha.symm.trans k) (by decide)⟩

section
variable {s : State} (hr : s.role = .release) (hi : s.seq.stage = .inhibited) (ho : s.seq.occupied = true)
include hr hi ho

/-- R55, R56, R69: the event has run out from the area occupancy's evaluation at `u`. -/
theorem areaDecides_of_proceeds {u t : State} (h : Awaits s u) (k : Proceeds (evalOccupancy u) t)
    (hocc : t.seq.occupied = t.areaOccupied) (hnow : t.now = u.now) : AreaDecides s t := by
  have hur := h.role.trans hr
  have himg : u.img = s.img := by rw [State.img, State.img, h.image]
  rw [← h.seq] at hi ho
  have harea : t.areaOccupied = u.areaOccupied := k.area.trans (evalOccupancy_only u).toHanded.areaOccupied
  refine ⟨fun ha => ⟨?_, hocc.trans ha⟩, fun ha => ?_⟩
  · rw [k.stage, evalOccupancy_of_agree u (.inr ((harea.symm.trans ha).trans ho.symm)), hi]
  · have hstaged := (startCountdown_staged (Config.sec u.img.tpd) (u.setSeq { u.seq with occupied := false })).abortSet
    rw [evalOccupancy_clear hur hi ho (harea.symm.trans ha)] at k
    obtain ⟨hstage, hcount, hfrozen, habort, -, htells⟩ := k
    have hset : (u.setSeq { u.seq with occupied := false }).seq.abortSet = s.seq.abortSet := by
      rw [← h.seq]
      rfl
    have htpd (h : s.img.tpd ≠ 0) : Config.sec s.img.tpd ≠ 0 := by unfold Config.sec; omega
    rw [himg] at *
    refine ⟨hocc.trans ha, habort.trans (hstaged.trans hset), fun hs ht => ?_, fun hs ht => ?_, fun hs => ?_,
      fun ht hq => ?_⟩
    · obtain ⟨h1, h2⟩ := startCountdown_runs (hset.trans hs) (htpd ht)
      exact ⟨hstage.trans h1, hcount.trans (hnow ▸ h2)⟩
    · rw [ht] at hstage
      exact hstage.trans (startCountdown_expires (hset.trans hs))
    · obtain ⟨h1, h2⟩ := startCountdown_holds (r := Config.sec s.img.tpd) (fun k => hs (hset.symm.trans k))
      exact ⟨hstage.trans h1, hcount.trans (startCountdown_countdown fun k => hs (hset.symm.trans k)), hfrozen.trans h2⟩
    · refine noticeWaits_of _ (htells (startCountdown_tells (htpd ht) (places_le _ ?_))).waits
      rw [State.setSeq_bus, h.queue]
      omega

theorem areaDecides_settle {u : State} (h : Awaits s u) : AreaDecides s (settle u) := by
  have hn : u.role ≠ .noArea := by rw [h.role, hr]; decide
  exact areaDecides_of_proceeds hr hi ho h (settle_proceeds h.running hn) (settle_occupied u h.running hn) (settle_handed u).now

/-! ## The three events -/

/-- R128: a sweep empties the roster. -/
theorem areaDecides_zoneSweep (ha : s.areaOccupied = true) {dt : Nat} {rest : PanelRest} (hp : s.AtPanel) :
    AreaDecides s (panelCommand 10 0 noOperands zoneSweep dt rest s) := by
  have start : Awaits s (s.elapse dt) ∧ (s.elapse dt).areaOccupied = true := ⟨⟨rfl, rfl, rfl, hp.1⟩, ha⟩
  refine panelCommand_induction (P := fun u => Awaits s u ∧ u.areaOccupied = true) (Q := AreaDecides s)
    (fun u p ⟨⟨h1, h2, h3, h4⟩, k⟩ => ⟨⟨h1, h2, h3, h4⟩, k⟩) (fun u p h => h)
    (fun u ⟨h, k⟩ => areaDecides_of_occupied hi ho h.seq k) (fun _ u ⟨h, k⟩ => ?_) start
  unfold zoneSweep
  split
  · exact areaDecides_settle hr hi ho (u := sweep u) ⟨h.seq, h.image, h.queue, h.running⟩
  · exact areaDecides_of_occupied hi ho h.seq k

/-- R85, R86, R95: a door's contact closes, and a credit is consummated. -/
theorem areaDecides_contactCloses (ha : s.areaOccupied = true) (d : DoorId) :
    AreaDecides s (inputEvent (contactInput d) false (contactChange d) .held s) := by
  by_cases hn : s.pins.filter (contactInput d) = none ∨ s.pins.level (contactInput d) = false
  · rw [inputEvent_held_none _ _ _ _ hn]
    exact areaDecides_of_occupied hi ho rfl ha
  · obtain ⟨hf, hl⟩ := not_or.mp hn
    obtain ⟨f, hf⟩ := Option.ne_none_iff_exists'.mp hf
    rw [inputEvent_held _ _ _ _ f hf (by simpa using hl)]
    obtain ⟨u, hu⟩ : ∃ u, (s.reach f).setPins (s.pins.take (contactInput d) false) = u := ⟨_, rfl⟩
    have hw : u.seq = s.seq ∧ u.image = s.image ∧ u.bus = s.bus ∧ u.areaOccupied = true := hu ▸ ⟨rfl, rfl, rfl, ha⟩
    obtain ⟨hseq, himage, hbus, ha⟩ := hw
    rw [hu]
    unfold contactChange
    split
    · next hd =>
      obtain ⟨hrun, -⟩ := Bool.and_eq_true_iff.mp hd
      have hk := (setDoor_keeps u d { u.door d with contactOpen := false }).trans (closeContact_keeps d _)
      obtain ⟨hbasis, hbus'⟩ := closeContact_beside (u.setDoor d { u.door d with contactOpen := false }) d
      obtain ⟨himage', hseq'⟩ := of_basis (hbasis.trans (setDoor_basis u d _))
      exact areaDecides_settle hr hi ho ⟨hseq'.trans hseq, himage'.trans himage,
        by rw [hbus', State.setDoor_bus, hbus], hk.running hrun⟩
    · exact areaDecides_of_occupied hi ho hseq ha

/-- R30 to R32: a STATUS changes its sender's entry, and lets no abort go. -/
theorem areaDecides_status {dt a : Nat} {bits : List Bool} {x : Announcement}
    (h : Reaches { kind := 6, dt := dt, bits := bits } s a (.status x)) (hn : a ∉ s.seq.abortSet ∨ x.abortHeld = true) :
    AreaDecides s (settle (statusOwner a (.status x) (s.reached { kind := 6, dt := dt, bits := bits } a (.status x)))) := by
  obtain ⟨u, hu⟩ : ∃ u, s.heard { kind := 6, dt := dt, bits := bits } a (.status x) = u := ⟨_, rfl⟩
  have hw : Awaits s u := by
    obtain ⟨-, -, -, hstart, -⟩ := heard_rest s { kind := 6, dt := dt, bits := bits } a (.status x)
    have hrun := running_of_receiving h.1
    refine hu ▸ ⟨(heard_seq ..).1, by simp [State.heard], (heard_bus ..).1, ?_⟩
    rwa [State.running, hstart]
  have hr' := hw.role.trans hr
  have hne : u.role ≠ .noArea := by rw [hr']; decide
  have he := (evalOccupancy_only u).toHanded
  have hs := (he.spares.trans (statusOwner_spares a (.status x) _)).trans (settle_handed _).spares
  rw [State.reached, hu]
  refine areaDecides_of_proceeds hr hi ho hw ((statusOwner_holds (he.role.trans hr') ?_).settled
    (evalOccupancy_steady hr' (by rw [hw.seq, hi]) (by rw [hw.seq, ho]))) (settle_occupied _ ?_ ?_) hs.now
  · rwa [(evalOccupancy_staged u).abortSet, hw.seq]
  · rw [State.running, ((statusOwner_spares a (.status x) _).startup.trans he.startup)]
    exact hw.running
  · rw [(statusOwner_spares a (.status x) _).role, he.role]
    exact hne

end

end Sys2Proof.Machine
end

section
/-! SUPPORT. The sequence that coincidence starts (R45 to R57, R78). -/

namespace Sys2Proof.Machine

/-- Settles O19: the detection that completes coincidence is `Met`, one that completes none `listChanged_recorded`; the events
that may clear the area are `AreaDecides`, and an area with an unheard member stays `exec_barred`. -/
theorem coincidenceStartsTheSequence : Obligations.CoincidenceStartsTheSequence := by
  unfold Obligations.CoincidenceStartsTheSequence
  refine ⟨fun s dt a bits area line group level g h hr ha hg hs hlatch hl hn ⟨e, he, hne⟩ => ?_,
    fun s dt a bits area line group level g h hr ha hg hl hn hcase => ?_, fun c s t hr hi ho ha hc ht => ?_,
    fun c s t m ht hr hs hrun hm hp hmade hcall hstage ho => ?_⟩
  · obtain ⟨u, hex, hu⟩ := exec_detectFrame_joins h hr ha hg hl hn
    have hmeets : ∃ e ∈ u.seq.list, ∃ x ∈ u.seq.list, e.group ≠ x.group := by
      rw [hu.list]
      exact ⟨e, List.mem_append_left _ he, _, List.mem_concat_self, hne⟩
    have hbefore : u.seq.stage = .normal ∨ u.seq.stage = .firstAlarm := by
      rwa [hu.stage (by rcases hs with k | k <;> rw [k] <;> decide)]
    have hm := (listChanged_met hu.calm hu.role hbefore (hu.latch.trans hlatch) hmeets).onward
      (listChanged_onward hu.calm)
    have hh := settle_listChanged_handed u
    refine ⟨_, hex, hm.latch, ?_, ?_, hm.abortSet.trans hu.abortSet, ?_, ?_, ?_, ?_, hu.rest _ hh⟩
    · rw [hm.list, List.length_map, hu.list, List.length_append, List.length_singleton]
    · rw [hm.list]
      exact forall_consumed _
    · rw [hh.areaOccupied]
      exact hm.inhibited
    · rw [hh.areaOccupied, ← hu.now, ← hu.img, ← hu.abortSet]
      exact hm.countdown
    · rw [hh.areaOccupied, ← hu.img, ← hu.abortSet]
      exact hm.held
    · rw [← hu.img]
      exact fun ht hq => noticeWaits_of _ (hm.tells ht (hu.room hq)).waits
  · obtain ⟨u, hex, hu⟩ := exec_detectFrame_joins h hr ha hg hl hn
    have hstage : u.seq.stage = s.seq.stage := hu.stage (by rcases hcase with ⟨k | k, -⟩ | k <;> rw [k] <;> decide)
    obtain ⟨hlist, hlatch, hfollow, htells⟩ := listChanged_recorded hu.role (by simp [hu.list]) (by
      rw [hstage, hu.list]
      refine hcase.imp_left (And.imp_right fun k => ?_)
      have all : ∀ e ∈ s.seq.list ++ [arrivedDetection s dt a line g], e.group = g := by
        simpa [or_imp, forall_and, arrivedDetection] using k
      exact fun e he x hx => (all e he).trans (all x hx).symm)
    have k := listChanged_onward hu.calm
    obtain ⟨-, -, habort, hlist'⟩ := apart_fields k.apart
    refine ⟨_, hex, (hlist'.trans hlist).trans hu.list, ?_, fun hs hq => ?_, ?_,
      (habort.trans (listChanged_aside u).1).trans hu.abortSet, hu.rest _ (settle_listChanged_handed u)⟩
    · rw [k.stage, hfollow, hstage]
    · exact noticeWaits_of _ (k.tells (htells (hstage.trans hs) (hu.room hq))).waits
    · exact (congrArg Sequencer.latch k.apart :).trans (hlatch.trans hu.latch)
  · rcases hc with ⟨dt, before, rfl, hp⟩ | ⟨d, rfl⟩ | ⟨dt, bits, a, x, rfl, h, hn⟩
    · obtain rfl := Host.Outcome.next.inj ht
      exact areaDecides_zoneSweep hr hi ho ha hp
    · obtain rfl := Host.Outcome.next.inj ht
      exact areaDecides_contactCloses hr hi ho ha d
    · obtain rfl := Host.Outcome.next.inj ((exec_statusFrame h).symm.trans ht)
      exact areaDecides_status hr hi ho h hn
  · obtain ⟨-, h1, h2⟩ := exec_barred ht hs hrun ⟨m, hm, hp⟩ hmade hcall ⟨hr, hstage, ho⟩
    exact ⟨h1, h2⟩

end Sys2Proof.Machine
end

section
/-! SUPPORT. What the commands do to the valve and to the sounder between two settlings (R52, R65, R74): the operations of
the Sequencer, one by one. -/

namespace Sys2Proof.Machine

/-- An operation that has not been settled yet keeps the valve to RELEASING, and leaves the sounder alone. -/
structure Steers (s u : State) : Prop where
  valve : s.ValveSafe → u.ValveSafe
  cadence : u.seq.cadence = s.seq.cadence
  pattern : u.seq.pattern = s.seq.pattern
  phaseEnd : u.seq.phaseEnd = s.seq.phaseEnd

theorem Steers.refl (s : State) : Steers s s := ⟨id, rfl, rfl, rfl⟩

theorem Steers.trans {s u v : State} (h : Steers s u) (k : Steers u v) : Steers s v :=
  ⟨fun w => k.valve (h.valve w), k.cadence.trans h.cadence, k.pattern.trans h.pattern, k.phaseEnd.trans h.phaseEnd⟩

theorem Steers.foldl {α : Type} {f : State → α → State} (h : ∀ s x, Steers s (f s x)) (xs : List α) (s : State) :
    Steers s (xs.foldl f s) := by
  induction xs generalizing s with
  | nil => exact .refl s
  | cons x xs ih => exact (h s x).trans (ih _)

theorem Steers.of_seq {s u : State} (h : u.seq = s.seq) : Steers s u :=
  ⟨fun w => by rwa [State.ValveSafe, h], by rw [h], by rw [h], by rw [h]⟩

theorem Steers.of_basis {s u : State} (h : u.basis = s.basis) : Steers s u := .of_seq (Machine.of_basis h).2

/-- The Sequencer is written, its sounder left alone. -/
theorem Steers.setSeq (s : State) (q : Sequencer) (hv : s.ValveSafe → q.valve = true → q.stage = .releasing)
    (hc : q.cadence = s.seq.cadence := by rfl) (hp : q.pattern = s.seq.pattern := by rfl)
    (he : q.phaseEnd = s.seq.phaseEnd := by rfl) : Steers s (s.setSeq q) := ⟨hv, hc, hp, he⟩

/-- The Sequencer is written, its stage, its valve and its sounder left alone. -/
theorem Steers.write (s : State) (q : Sequencer) (hs : q.stage = s.seq.stage := by rfl)
    (hv : q.valve = s.seq.valve := by rfl) (hc : q.cadence = s.seq.cadence := by rfl)
    (hp : q.pattern = s.seq.pattern := by rfl) (he : q.phaseEnd = s.seq.phaseEnd := by rfl) : Steers s (s.setSeq q) :=
  ⟨fun w => by rwa [State.ValveSafe, State.setSeq_seq, hs, hv], hc, hp, he⟩

/-- R52: in any stage but RELEASING the valve is off, so another stage may follow. -/
theorem Steers.leave (s : State) (h : s.seq.stage ≠ .releasing) (q : Sequencer) (hv : q.valve = s.seq.valve := by rfl)
    (hc : q.cadence = s.seq.cadence := by rfl) (hp : q.pattern = s.seq.pattern := by rfl)
    (he : q.phaseEnd = s.seq.phaseEnd := by rfl) : Steers s (s.setSeq q) :=
  .setSeq s q (fun w k => absurd (w (hv ▸ k)) h) hc hp he

theorem trigger_steers (x : Source) (s : State) : Steers s (trigger x s) := .of_basis (trigger_basis s x)

/-! ## The stage machine -/

theorem sendNotice_steers (s : State) : Steers s (sendNotice s) :=
  (Steers.write s _).trans (.of_basis (enqueue_basis _ _))

theorem confirmFlow_steers (s : State) : Steers s (confirmFlow s) := (Steers.write s _).trans (sendNotice_steers _)

theorem enterStage_steers (st : Stage) {s : State} (h : s.seq.stage ≠ .releasing) : Steers s (enterStage st s) :=
  (Steers.leave s h _).trans (sendNotice_steers _)

/-- R65: the valve is energised in RELEASING. -/
theorem energiseValve_steers {s : State} (h : s.seq.stage = .releasing) : Steers s (energiseValve s) := by
  unfold energiseValve
  dsimp only
  have on : Steers s (trigger .discharge (s.setSeq { s.seq with
      valve := true, valveDelay := none, valvePulse := some (s.now + Config.ms s.img.pv),
      flowWait := some (s.now + Config.sec s.img.tf), flowConfirmed := false })) :=
    Steers.trans (by exact .setSeq s _ fun _ _ => h) (trigger_steers _ _)
  split
  · exact on.trans (confirmFlow_steers _)
  · exact on

/-- R57, R65: whatever the valve was, RELEASING may follow. -/
theorem enterReleasing_steers (s : State) : Steers s (enterReleasing s) := by
  have entered : Steers s (enterStage .releasing s) :=
    (Steers.setSeq s { s.seq with stage := .releasing, countdown := none, frozen := 0 } fun _ _ => rfl).trans
      (sendNotice_steers _)
  unfold enterReleasing
  dsimp only
  split
  · exact entered.trans (energiseValve_steers (enterStage_stage _ s))
  · exact entered.trans (.write _ _)

theorem enterCountdown_steers (r : Nat) {s : State} (h : s.seq.stage ≠ .releasing) : Steers s (enterCountdown r s) := by
  unfold enterCountdown
  split
  · exact enterReleasing_steers s
  · exact (Steers.leave s h _).trans (sendNotice_steers _)

theorem enterHeld_steers (r : Nat) {s : State} (h : s.seq.stage ≠ .releasing) : Steers s (enterHeld r s) :=
  (Steers.leave s h _).trans (sendNotice_steers _)

theorem startCountdown_steers (r : Nat) {s : State} (h : s.seq.stage ≠ .releasing) : Steers s (startCountdown r s) := by
  unfold startCountdown
  split
  · exact enterCountdown_steers r h
  · exact enterHeld_steers r h

theorem coincidenceMet_steers (s : State) : Steers s (coincidenceMet s) := by
  unfold coincidenceMet
  split
  · next h =>
    have hn : s.seq.stage ≠ .releasing := fun i => by simp [i] at h
    split
    · exact enterStage_steers _ hn
    · exact startCountdown_steers _ hn
  · exact .refl s

theorem followList_steers (s : State) : Steers s (followList s) := by
  unfold followList
  split
  · next h => exact enterStage_steers _ (by simp [h.1])
  · split
    · next h => exact enterStage_steers _ (by simp [h.1])
    · exact .refl s

theorem listChanged_steers (s : State) : Steers s (listChanged s) := by
  unfold listChanged
  split
  · split
    · exact ((Steers.write s _).trans (coincidenceMet_steers _)).trans (followList_steers _)
    · exact followList_steers s
  · exact .refl s

theorem detect_steers (r : Bool) (a : Nat) (l : Fin 4) (g : Group) (s : State) : Steers s (detect r a l g s) := by
  unfold detect
  split
  · exact .refl s
  · split
    · split
      · exact .refl s
      · exact (Steers.write s _).trans (listChanged_steers _)
    · split
      · exact (Steers.write s _).trans (listChanged_steers _)
      · exact .refl s

theorem dropDetection_steers (a : Nat) (l : Fin 4) (s : State) : Steers s (dropDetection a l s) := by
  unfold dropDetection
  split
  · exact (Steers.write s _).trans (listChanged_steers _)
  · exact .refl s

theorem withdraw_steers (a : Nat) (l : Fin 4) (s : State) : Steers s (withdraw a l s) := by
  unfold withdraw
  split
  · exact .refl s
  · exact dropDetection_steers a l s

/-! ## The abort set, manual release, occupancy and mirror -/

theorem abortJoin_steers (a : Nat) (s : State) : Steers s (abortJoin a s) := by
  unfold abortJoin
  dsimp only
  split
  · exact .refl s
  · split
    · split
      · next h => exact (Steers.write s _).trans (enterHeld_steers _ (by rw [h]; decide))
      · exact .write s _
    · exact .write s _

theorem abortLeave_steers (a : Nat) (s : State) : Steers s (abortLeave a s) := by
  unfold abortLeave
  dsimp only
  split
  · split
    · split
      · next h => exact (Steers.write s _).trans (enterCountdown_steers _ (by rw [h]; decide))
      · exact .write s _
    · exact .write s _
  · exact .refl s

theorem manualRelease_steers (s : State) : Steers s (manualRelease s) := by
  unfold manualRelease
  split
  case h_1 h => exact startCountdown_steers _ (by simp [h])
  case h_2 h => exact startCountdown_steers _ (by simp [h])
  case h_3 h => exact startCountdown_steers _ (by simp [h])
  case h_4 h =>
    split
    · exact enterCountdown_steers _ (by simp [h])
    · exact .refl s
  case h_5 h =>
    split
    · exact enterHeld_steers _ (by simp [h])
    · exact .refl s
  all_goals exact .refl s

theorem actOnCall_steers (a : Nat) (call : Byte) (s : State) : Steers s (actOnCall a call s) := by
  unfold actOnCall
  split
  · exact manualRelease_steers s
  · exact abortJoin_steers a s
  · exact abortLeave_steers a s
  · exact .refl s

theorem evalOccupancy_steers (s : State) : Steers s (evalOccupancy s) := by
  unfold evalOccupancy
  dsimp only
  split
  · exact .refl s
  · split
    · next h => exact (Steers.write s _).trans (startCountdown_steers _ (by rw [h.2.1]; decide))
    · exact .write s _

theorem setMirror_steers (m : Mirror) (s : State) : Steers s (setMirror m s) := by
  unfold setMirror
  dsimp only
  split
  · exact (Steers.write s _).trans (trigger_steers _ _)
  · exact .write s _

theorem resetSequence_steers {s : State} (h : s.seq.stage ≠ .releasing) : Steers s (resetSequence s) :=
  (Steers.write s _).trans (enterStage_steers _ h)

/-- R65: the valve is off as RELEASING ends. -/
theorem endValvePulse_steers (s : State) : Steers s (endValvePulse s) := by
  unfold endValvePulse
  refine ⟨fun _ k => ?_, ?_, ?_, ?_⟩ <;> simp only [enterStage_seq] at *
  · cases k
  all_goals rfl

end Sys2Proof.Machine
end

section
/-! SUPPORT. The sounder through an event that settles more than once (R74): no intermediate stage calls for a pattern that
the event leaves again, so the sounder starts at most the patterns it ends with. -/

namespace Sys2Proof.Machine

/-- The patterns in the order in which a sequence goes through them. -/
def Pattern.rank : Pattern → Nat
  | .off => 0
  | .slow => 1
  | .fast => 2
  | .continuous => 3

theorem Pattern.rank_inj : ∀ {p q : Pattern}, p.rank = q.rank → p = q := by
  intro p q h
  cases p <;> cases q <;> simp_all [Pattern.rank]

/-- How far the stage's pattern is along the sequence. -/
def Stage.loudness (st : Stage) : Nat := (soundOf st).rank

/-- R74: the sounder has the pattern of the stage shown. -/
abbrev State.Tuned (s : State) : Prop := s.seq.pattern = soundOf s.shownStage

/-- Where the image, the stage and the mirror are as they were, so is the stage shown. -/
theorem shownStage_congr {s t : State} (hr : t.role = s.role) (hs : t.seq.stage = s.seq.stage)
    (hm : t.seq.mirror = s.seq.mirror) : t.shownStage = s.shownStage := by
  unfold State.shownStage
  rw [hr, hs, hm]

theorem shownStage_of_release {s : State} (h : s.role = .release) : s.shownStage = s.seq.stage := by
  unfold State.shownStage
  rw [if_pos h]

/-- The stage shown is as it was, or a release station has gone on. -/
structure Climbs (s u : State) : Prop where
  now : u.now = s.now
  role : u.role = s.role
  running : u.running = s.running
  cadence : u.seq.cadence = s.seq.cadence
  pattern : u.seq.pattern = s.seq.pattern
  phaseEnd : u.seq.phaseEnd = s.seq.phaseEnd
  shown : u.shownStage = s.shownStage ∨
    s.role = .release ∧ s.shownStage.loudness ≤ u.shownStage.loudness

theorem running_congr {s t : State} (h : t.startup = s.startup) : t.running = s.running := by
  unfold State.running
  rw [h]

theorem role_congr {s t : State} (h : t.image = s.image) : t.role = s.role := by
  unfold State.role State.img
  rw [h]

/-- The Sequencer is as it was. -/
theorem Climbs.still {s u : State} (hn : u.now = s.now := by rfl) (hu : u.startup = s.startup := by rfl)
    (hi : u.image = s.image := by rfl) (hq : u.seq = s.seq := by rfl) : Climbs s u where
  now := hn
  role := role_congr hi
  running := running_congr hu
  cadence := by rw [hq]
  pattern := by rw [hq]
  phaseEnd := by rw [hq]
  shown := .inl (shownStage_congr (role_congr hi) (by rw [hq]) (by rw [hq]))

theorem Climbs.refl (s : State) : Climbs s s := .still

theorem Climbs.trans {s u v : State} (h : Climbs s u) (k : Climbs u v) : Climbs s v where
  now := k.now.trans h.now
  role := k.role.trans h.role
  running := k.running.trans h.running
  cadence := k.cadence.trans h.cadence
  pattern := k.pattern.trans h.pattern
  phaseEnd := k.phaseEnd.trans h.phaseEnd
  shown := by
    rcases h.shown with h1 | ⟨h1, h2⟩ <;> rcases k.shown with k1 | ⟨k1, k2⟩
    · exact .inl (k1.trans h1)
    · exact .inr ⟨h.role ▸ k1, h1 ▸ k2⟩
    · exact .inr ⟨h1, k1 ▸ h2⟩
    · exact .inr ⟨h1, h2.trans k2⟩

theorem Climbs.foldl {α : Type} {f : State → α → State} (h : ∀ s x, Climbs s (f s x)) (xs : List α) (s : State) :
    Climbs s (xs.foldl f s) := by
  induction xs generalizing s with
  | nil => exact .refl s
  | cons x xs ih => exact (h s x).trans (ih _)

/-- The Sequencer is written, its stage, mirror and sounder left alone. -/
theorem Climbs.write (s : State) (q : Sequencer) (hs : q.stage = s.seq.stage := by rfl)
    (hm : q.mirror = s.seq.mirror := by rfl) (hc : q.cadence = s.seq.cadence := by rfl)
    (hp : q.pattern = s.seq.pattern := by rfl) (he : q.phaseEnd = s.seq.phaseEnd := by rfl) : Climbs s (s.setSeq q) :=
  ⟨rfl, rfl, rfl, hc, hp, he, .inl (shownStage_congr rfl hs hm)⟩

/-- The stage of a release station goes on. -/
theorem Climbs.stage {s u : State} (h : SeqOnly s u) (k : Steers s u) (hr : s.role = .release)
    (hl : s.seq.stage.loudness ≤ u.seq.stage.loudness) : Climbs s u where
  now := h.now
  role := h.role
  running := running_congr h.startup
  cadence := k.cadence
  pattern := k.pattern
  phaseEnd := k.phaseEnd
  shown := .inr ⟨hr, by rwa [shownStage_of_release hr, shownStage_of_release (h.role.trans hr)]⟩

/-! ## The stage machine goes on -/

theorem enterCountdown_loudness (r : Nat) (s : State) : 2 ≤ (enterCountdown r s).seq.stage.loudness := by
  unfold enterCountdown
  split
  · rw [enterReleasing_stage]
    decide
  · rw [sendNotice_stage]
    exact (by decide : 2 ≤ Stage.countdown.loudness)

theorem enterHeld_loudness (r : Nat) (s : State) : 2 ≤ (enterHeld r s).seq.stage.loudness := by
  unfold enterHeld
  rw [sendNotice_stage]
  exact (by decide : 2 ≤ Stage.held.loudness)

theorem startCountdown_loudness (r : Nat) (s : State) : 2 ≤ (startCountdown r s).seq.stage.loudness := by
  unfold startCountdown
  split
  · exact enterCountdown_loudness r s
  · exact enterHeld_loudness r s

/-- R52: a stage in which a countdown starts or changes shows no more than a countdown does. -/
theorem startCountdown_climbs (r : Nat) {s : State} (hr : s.role = .release) (h : s.seq.stage.loudness ≤ 2)
    (hn : s.seq.stage ≠ .releasing) : Climbs s (startCountdown r s) :=
  .stage (startCountdown_only r s) (startCountdown_steers r hn) hr (h.trans (startCountdown_loudness r s))

theorem enterCountdown_climbs (r : Nat) {s : State} (hr : s.role = .release) (h : s.seq.stage.loudness ≤ 2)
    (hn : s.seq.stage ≠ .releasing) : Climbs s (enterCountdown r s) :=
  .stage (enterCountdown_only r s) (enterCountdown_steers r hn) hr (h.trans (enterCountdown_loudness r s))

theorem enterHeld_climbs (r : Nat) {s : State} (hr : s.role = .release) (h : s.seq.stage.loudness ≤ 2)
    (hn : s.seq.stage ≠ .releasing) : Climbs s (enterHeld r s) :=
  .stage (enterHeld_only r s) (enterHeld_steers r hn) hr (h.trans (enterHeld_loudness r s))

theorem evalOccupancy_climbs (s : State) : Climbs s (evalOccupancy s) := by
  unfold evalOccupancy
  dsimp only
  split
  · exact .refl s
  · split
    · next h =>
      obtain ⟨hr, hs, -⟩ := h
      exact (Climbs.write s _).trans (startCountdown_climbs _ hr (by rw [hs]; decide) (by rw [hs]; decide))
    · exact .write s _

/-- R55: coincidence leads from NORMAL and FIRST_ALARM on to a stage that follows the list no longer. -/
theorem coincidenceMet_climbs {s : State} (hr : s.role = .release) : Climbs s (coincidenceMet s) := by
  unfold coincidenceMet
  split
  · next h =>
    have low : s.seq.stage.loudness ≤ 1 := by rcases h with h | h <;> rw [h] <;> decide
    have hn : s.seq.stage ≠ .releasing := by rcases h with h | h <;> rw [h] <;> decide
    split
    · exact .stage (enterStage_only _ s) (enterStage_steers _ hn) hr (by rw [enterStage_stage]; exact low)
    · exact startCountdown_climbs _ hr (by omega) hn
  · exact .refl s

theorem coincidenceMet_list (s : State) : (coincidenceMet s).seq.list = s.seq.list := (coincidenceMet_advances s).list

/-- R54: a list that is not empty leads to no lower stage. -/
theorem followList_climbs {s : State} (hr : s.role = .release) (hl : s.seq.list ≠ []) : Climbs s (followList s) := by
  unfold followList
  rw [if_neg (c := s.seq.stage = .firstAlarm ∧ s.seq.list = []) fun h => hl h.2]
  split
  · next h =>
    exact .stage (enterStage_only _ s) (enterStage_steers _ (by rw [h.1]; decide)) hr
      (by rw [enterStage_stage, h.1]; decide)
  · exact .refl s

theorem listChanged_climbs {s : State} (hl : s.seq.list ≠ []) : Climbs s (listChanged s) := by
  unfold listChanged
  split
  · next hr =>
    split
    · refine ((Climbs.write s _).trans (coincidenceMet_climbs (s := latchList s) hr)).trans (followList_climbs ?_ ?_)
      · exact (coincidenceMet_only (latchList s)).role.trans hr
      · rw [coincidenceMet_list]
        simpa [latchList] using hl
    · exact followList_climbs hr hl
  · exact .refl s

theorem detect_climbs (r : Bool) (a : Nat) (l : Fin 4) (g : Group) (s : State) : Climbs s (detect r a l g s) := by
  unfold detect
  split
  · exact .refl s
  · split
    · split
      · exact .refl s
      · exact (Climbs.write s _).trans (listChanged_climbs (by simp))
    · split
      · exact (Climbs.write s _).trans (listChanged_climbs (by simp))
      · exact .refl s

theorem abortJoin_climbs (a : Nat) {s : State} (hr : s.role = .release) : Climbs s (abortJoin a s) := by
  unfold abortJoin
  dsimp only
  split
  · exact .refl s
  · split
    · split
      · next h => exact (Climbs.write s _).trans (enterHeld_climbs _ hr (by rw [h]; decide) (by rw [h]; decide))
      · exact .write s _
    · exact .write s _

theorem abortLeave_climbs (a : Nat) {s : State} (hr : s.role = .release) : Climbs s (abortLeave a s) := by
  unfold abortLeave
  dsimp only
  split
  · split
    · split
      · next h => exact (Climbs.write s _).trans (enterCountdown_climbs _ hr (by rw [h]; decide) (by rw [h]; decide))
      · exact .write s _
    · exact .write s _
  · exact .refl s

theorem manualRelease_climbs {s : State} (hr : s.role = .release) : Climbs s (manualRelease s) := by
  unfold manualRelease
  split
  case h_1 h => exact startCountdown_climbs _ hr (by rw [h]; decide) (by rw [h]; decide)
  case h_2 h => exact startCountdown_climbs _ hr (by rw [h]; decide) (by rw [h]; decide)
  case h_3 h => exact startCountdown_climbs _ hr (by rw [h]; decide) (by rw [h]; decide)
  case h_4 h =>
    split
    · exact enterCountdown_climbs _ hr (by rw [h]; decide) (by rw [h]; decide)
    · exact .refl s
  case h_5 h =>
    split
    · exact enterHeld_climbs _ hr (by rw [h]; decide) (by rw [h]; decide)
    · exact .refl s
  all_goals exact .refl s

theorem actOnCall_climbs (a : Nat) (call : Byte) {s : State} (hr : s.role = .release) :
    Climbs s (actOnCall a call s) := by
  unfold actOnCall
  split
  · exact manualRelease_climbs hr
  · exact abortJoin_climbs a hr
  · exact abortLeave_climbs a hr
  · exact .refl s

/-! ## The sounder in the course of an event -/

/-- The sounder from `s` on, settled perhaps more than once: its pattern lies between that of `s` and that of the stage
now shown, and it is as in `s` or newly begun. -/
structure Sounding (s u : State) : Prop where
  now : u.now = s.now
  role : u.role = s.role
  running : u.running = s.running
  shown : s.role ≠ .release → u.shownStage = s.shownStage
  low : s.seq.pattern.rank ≤ u.seq.pattern.rank
  high : u.seq.pattern.rank ≤ u.shownStage.loudness
  same : u.seq.pattern = s.seq.pattern → u.seq.cadence = s.seq.cadence ∧ u.seq.phaseEnd = s.seq.phaseEnd
  starts : u.seq.pattern ≠ s.seq.pattern →
    u.seq.cadence = (if u.seq.pattern = .off then .off else .on) ∧
    u.seq.phaseEnd = (if u.seq.pattern = .slow then some (u.now + 1000000)
      else if u.seq.pattern = .fast then some (u.now + 250000) else none)

theorem Sounding.climb {s u v : State} (h : Sounding s u) (k : Climbs u v) : Sounding s v where
  now := k.now.trans h.now
  role := k.role.trans h.role
  running := k.running.trans h.running
  shown hn := by
    rcases k.shown with e | ⟨hr, -⟩
    · exact e.trans (h.shown hn)
    · exact absurd (h.role.symm.trans hr) hn
  low := by rw [k.pattern]; exact h.low
  high := by
    rw [k.pattern]
    rcases k.shown with e | ⟨-, hl⟩
    · rw [e]; exact h.high
    · exact h.high.trans hl
  same := by rw [k.pattern, k.cadence, k.phaseEnd]; exact h.same
  starts := by rw [k.pattern, k.cadence, k.phaseEnd, k.now]; exact h.starts

theorem Climbs.sounding {s u : State} (h : s.Tuned) (k : Climbs s u) : Sounding s u :=
  Sounding.climb ⟨rfl, rfl, rfl, fun _ => rfl, le_rfl, (congrArg Pattern.rank h).le, fun _ => ⟨rfl, rfl⟩,
    fun hn => absurd rfl hn⟩ k

theorem apart_shown {s t : State} (h : t.seq.apart = s.seq.apart) (hr : t.role = s.role) :
    t.shownStage = s.shownStage :=
  shownStage_congr hr (by simpa [Sequencer.apart] using congrArg Sequencer.stage h)
    (by simpa [Sequencer.apart] using congrArg Sequencer.mirror h)

/-- The stage shown after a settling is the one that the area occupancy leaves. -/
theorem settle_shown {u : State} (hr : u.running = true) : (settle u).shownStage = (evalOccupancy u).shownStage :=
  apart_shown (settle_seq u hr).1 ((settle_handed u).role.trans (evalOccupancy_only u).role.symm)

/-- What a later settling makes of the sounder: the pattern it had is the one of `s`, or lies beyond it and is not left. -/
theorem Sounding.sounds {s u : State} (h : Sounding s u) (hr : u.running = true) :
    Sounds s (settle u) ∧ Sounding s (settle u) := by
  obtain ⟨hp, hsame, hstarts⟩ := settle_sounds u hr
  have climb := (evalOccupancy_climbs u)
  have e := h.climb climb
  have up : u.seq.pattern.rank ≤ (settle u).seq.pattern.rank := by
    rw [hp, settle_shown hr, ← climb.pattern]
    exact e.high
  have back (k : (settle u).seq.pattern = s.seq.pattern) : (settle u).seq.pattern = u.seq.pattern :=
    Pattern.rank_inj (le_antisymm (k ▸ h.low) up)
  have same (k : (settle u).seq.pattern = s.seq.pattern) :
      (settle u).seq.cadence = s.seq.cadence ∧ (settle u).seq.phaseEnd = s.seq.phaseEnd := by
    obtain ⟨hc, he⟩ := hsame (back k)
    obtain ⟨kc, ke⟩ := h.same ((back k).symm.trans k)
    exact ⟨hc.trans kc, he.trans ke⟩
  have starts (k : (settle u).seq.pattern ≠ s.seq.pattern) :
      (settle u).seq.cadence = (if (settle u).seq.pattern = .off then .off else .on) ∧
      (settle u).seq.phaseEnd = (if (settle u).seq.pattern = .slow then some ((settle u).now + 1000000)
        else if (settle u).seq.pattern = .fast then some ((settle u).now + 250000) else none) := by
    by_cases i : (settle u).seq.pattern = u.seq.pattern
    · obtain ⟨hc, he⟩ := hsame i
      rw [hc, he, i, (settle_handed u).now]
      exact h.starts (i ▸ k)
    · exact hstarts i
  refine ⟨⟨hp, same, starts⟩, (settle_handed u).now.trans h.now, (settle_handed u).role.trans h.role,
    (running_congr (settle_handed u).startup).trans h.running, fun hn => ?_, h.low.trans up, ?_, same, starts⟩
  · rw [settle_shown hr]
    exact e.shown hn
  · exact (congrArg Pattern.rank hp).le

theorem Sounding.settled {s u : State} (h : Sounding s u) (hr : s.running = true) :
    Sounding s (settle u) := (h.sounds (h.running.trans hr)).2

/-- R74: at a station that is no release station the sounder has not moved. -/
theorem Sounding.stays {s u : State} (h : Sounding s u) (ht : s.Tuned) (hn : s.role ≠ .release) :
    u.seq.cadence = s.seq.cadence ∧ u.seq.pattern = s.seq.pattern ∧ u.seq.phaseEnd = s.seq.phaseEnd := by
  have hp : u.seq.pattern = s.seq.pattern := by
    refine (Pattern.rank_inj (le_antisymm h.low ?_)).symm
    have := h.high
    rw [h.shown hn] at this
    rw [ht]
    exact this
  obtain ⟨hc, he⟩ := h.same hp
  exact ⟨hc, hp, he⟩

end Sys2Proof.Machine
end

section
/-! SUPPORT. What a command does to the valve and to the sounder (R52, R65, R74): the commands of the blocks beside the
Sequencer, and of the Sequencer itself. -/

namespace Sys2Proof.Machine

/-- A command keeps the valve to RELEASING, and the sounder follows the stage shown. -/
structure Drives (s t : State) : Prop where
  valve : s.ValveSafe → t.ValveSafe
  sounds : s.running = true → t.running = true → s.Tuned → Sounds s t

theorem ValveSafe.congr_apart {s t : State} (h : t.seq.apart = s.seq.apart) (k : s.ValveSafe) : t.ValveSafe := by
  have hv : t.seq.valve = s.seq.valve := by simpa [Sequencer.apart] using congrArg Sequencer.valve h
  have hs : t.seq.stage = s.seq.stage := by simpa [Sequencer.apart] using congrArg Sequencer.stage h
  rwa [State.ValveSafe, hv, hs]

theorem settle_valve {s : State} (h : s.ValveSafe) : (settle s).ValveSafe := by
  cases hr : s.running
  · rwa [settle_of_stopped s hr]
  · exact ValveSafe.congr_apart (settle_seq s hr).1 ((evalOccupancy_steers s).valve h)

/-- R74: the sounder may be reckoned from any state with the same sounder. -/
theorem Sounds.congr {s u t : State} (h : Sounds u t) (hc : u.seq.cadence = s.seq.cadence)
    (hp : u.seq.pattern = s.seq.pattern) (he : u.seq.phaseEnd = s.seq.phaseEnd) : Sounds s t :=
  ⟨h.pattern, by rw [← hc, ← hp, ← he]; exact h.same, by rw [← hp]; exact h.starts⟩

/-- R74: the sounder is as it was, and so is the stage shown. -/
theorem Sounds.of_same {s t : State} (h : s.Tuned) (hq : t.seq = s.seq) (hi : t.image = s.image) : Sounds s t where
  pattern := by rw [shownStage_congr (role_congr hi) (by rw [hq]) (by rw [hq]), hq]; exact h
  same _ := by rw [hq]; exact ⟨rfl, rfl⟩
  starts hn := absurd (by rw [hq]) hn

theorem Drives.of_same {s t : State} (hq : t.seq = s.seq) (hi : t.image = s.image) : Drives s t :=
  ⟨(Steers.of_seq hq).valve, fun _ _ h => .of_same h hq hi⟩

theorem Drives.of_basis {s t : State} (h : t.basis = s.basis) : Drives s t :=
  have ⟨hi, hq⟩ := Machine.of_basis h
  .of_same hq hi

theorem Drives.refl (s : State) : Drives s s := .of_basis rfl

theorem settle_running (s : State) : (settle s).running = s.running := running_congr (settle_handed s).startup

/-- An event that is settled. -/
theorem Steers.settled {s u : State} (k : Steers s u) : Drives s (settle u) :=
  ⟨fun h => settle_valve (k.valve h), fun _ ht _ =>
    (settle_sounds u ((settle_running u).symm.trans ht)).congr k.cadence k.pattern k.phaseEnd⟩

theorem settled_drives {s u : State} (h : u.basis = s.basis) : Drives s (settle u) := (Steers.of_basis h).settled

/-- Time passes, a level is read or the port takes bytes, and then a command acts. -/
theorem Drives.after {s u t : State} (d : Drives u t) (hb : u.basis = s.basis) (hr : u.running = s.running) :
    Drives s t where
  valve h := d.valve ((Steers.of_basis hb).valve h)
  sounds hs ht h := by
    obtain ⟨hi, hq⟩ := Machine.of_basis hb
    exact (d.sounds (hr.trans hs) ht (Sounds.of_same h hq hi).pattern).congr (by rw [hq]) (by rw [hq]) (by rw [hq])

/-- A command has acted, and then the port or a filter is written. -/
theorem Drives.before {s t u : State} (d : Drives s t) (hb : u.basis = t.basis) (hr : u.running = t.running)
    (hn : u.now = t.now) : Drives s u where
  valve h := (Steers.of_basis hb).valve (d.valve h)
  sounds hs ht h := by
    obtain ⟨hi, hq⟩ := Machine.of_basis hb
    have k := d.sounds hs (hr.symm.trans ht) h
    refine ⟨?_, by rw [hq]; exact k.same, by rw [hq, hn]; exact k.starts⟩
    rw [shownStage_congr (role_congr hi) (by rw [hq]) (by rw [hq]), hq]
    exact k.pattern

/-! ## Commands by their kind -/

theorem elapse_drives {s t : State} {dt : Nat} (d : Drives (s.elapse dt) t) : Drives s t := d.after rfl rfl

theorem panelCommand_drives {α : Type} {code len : Nat} {parse : State → List Byte → Option α}
    {act : α → State → Answer × State} {dt : Nat} {rest : PanelRest} (hact : ∀ x u, Drives u (act x u).2) (s : State) :
    Drives s (panelCommand code len parse act dt rest s) := by
  refine panelCommand_induction (P := fun u => u.basis = s.basis ∧ u.running = s.running) (Q := Drives s)
    (fun u p h => h) (fun u p d => d.before rfl rfl rfl) (fun u h => ?_) (fun x u h => ?_) ⟨rfl, rfl⟩
  · exact .of_basis h.1
  · exact (hact x u).after h.1 h.2

theorem hear_running (s : State) (levels : List Bool) : (s.hear levels).running = s.running := by
  unfold State.hear
  split <;> rfl

theorem peerHeard_climbs (a : Nat) (f : Frame) (s : State) : Climbs s (peerHeard a f s) :=
  have e := s.setPeer_seq a ((s.peer a).after s.now f)
  Climbs.trans (.still (s.setPeer_now _ _) (s.setPeer_startup _ _) (s.setPeer_image _ _) e) (evalOccupancy_climbs _)

theorem peerHeard_steers (a : Nat) (f : Frame) (s : State) : Steers s (peerHeard a f s) :=
  (Steers.of_seq (s.setPeer_seq a ((s.peer a).after s.now f))).trans (evalOccupancy_steers _)

/-- What the owner of a frame does before it is settled: the valve is kept to RELEASING, and the sounder follows, from a
state in which the sender has been heard. -/
structure Owns (owner : Nat → Frame → State → State) : Prop where
  valve : ∀ a f u, u.ValveSafe → (owner a f u).ValveSafe
  sounds : ∀ a f s u, Climbs s u → s.running = true → s.Tuned → Sounds s (settle (owner a f u))

/-- An owner that leaves the sounder alone and settles nothing itself. -/
theorem Owns.of_steers {owner : Nat → Frame → State → State} (h : ∀ a f u, Steers u (owner a f u))
    (hs : ∀ a f u, Spares u (owner a f u)) : Owns owner where
  valve a f u := (h a f u).valve
  sounds a f s u k hr _ := by
    have o := h a f u
    exact (settle_sounds _ ((running_congr (hs a f u).startup).trans (k.running.trans hr))).congr (o.cadence.trans k.cadence)
      (o.pattern.trans k.pattern) (o.phaseEnd.trans k.phaseEnd)

theorem deliver_drives {owner : Nat → Frame → State → State} (h : Owns owner) (a : Nat) (f : Frame) (s : State) :
    Drives s (deliver a f owner s) := by
  unfold deliver
  split
  · exact settled_drives rfl
  · exact ⟨fun v => settle_valve (h.valve a f _ ((peerHeard_steers a f s).valve v)),
      fun hs _ ht => h.sounds a f s _ (peerHeard_climbs a f s) hs ht⟩

theorem receiveFrame_drives {kind : Nat} {owner : Nat → Frame → State → State} {bits : List Bool} (h : Owns owner)
    (s : State) (dt : Nat) : Drives s (receiveFrame kind owner bits (s.elapse dt)) := by
  have heard : Drives s ((s.elapse dt).hear bits) := .of_basis (by simp)
  have delivered (a : Nat) (f : Frame) : Drives s (deliver a f owner ((s.elapse dt).hear bits)) :=
    (deliver_drives h a f _).after (by simp) (hear_running _ bits)
  unfold receiveFrame
  split
  · split
    · split
      · exact delivered _ _
      · exact heard
    · exact heard
  · exact heard

theorem inputEvent_drives {i : Input} {act : Bool → State → State} (hact : ∀ b u, Drives u (act b u)) (level : Bool)
    (e : InputEvent) (s : State) : Drives s (inputEvent i level act e s) := by
  have pins (u : State) (p : Pins) : Drives u (u.setPins p) := .of_basis rfl
  have taken (u : State) : Drives u (takeInput i act u) := (hact _ (u.setPins _)).after rfl rfl
  unfold inputEvent
  split
  · next dt =>
    refine elapse_drives (dt := dt) ?_
    unfold pinMoves
    split
    · exact .refl _
    · split
      · split
        · exact pins _ _
        · unfold pinReturns
          split
          · exact (taken _).before rfl rfl rfl
          · exact pins _ _
      · exact pins _ _
  · split
    · split
      · exact .refl s
      · exact (taken (s.reach _)).after rfl rfl
    · exact .refl s

end Sys2Proof.Machine
end

section
/-! SUPPORT. Every command keeps the valve to RELEASING, and the sounder follows the stage shown (R52, R65, R74). -/

namespace Sys2Proof.Machine

/-! ## Detector lines and the lists -/

theorem putLine_steers (l : Fin 4) (x : Line) (s : State) : Steers s (putLine l x s) := by
  have entered (u : State) : Steers u (alarmEntered l u) := by
    unfold alarmEntered
    split
    · exact .refl u
    · exact (detect_steers _ _ _ _ u).trans (.of_basis (enqueue_basis _ _))
  unfold putLine
  split
  · exact (Steers.of_basis (setLine_basis s l x)).trans (entered _)
  · exact .of_basis rfl

theorem resetLine_steers (s : State) (l : Fin 4) : Steers s (resetLine s l) := by
  unfold resetLine resetAccepted
  split
  · have reset : Steers s (s.setLine l ((s.line l).resetAlarm (s.lineCfg l))) := .of_basis rfl
    dsimp only
    split
    · exact reset
    · exact (reset.trans (withdraw_steers _ _ _)).trans (.of_basis (enqueue_basis _ _))
  · exact .refl s

theorem resetDetection_drives (x : Option (Fin 4)) (s : State) : Drives s (resetDetection x s).2 := by
  rcases resetDetection_cases x s with h | ⟨ls, h⟩ <;> rw [h]
  · exact .refl s
  · exact (Steers.foldl resetLine_steers ls s).settled

theorem ownCheck_steers (s : State) : Steers s (ownCheck s) := by
  refine Steers.foldl (fun u l => ?_) _ s
  unfold ownCheckLine
  split
  · exact detect_steers _ _ _ _ u
  · exact .refl u

/-! ## Owners that settle nothing themselves -/

theorem queryOwner_owns : Owns queryOwner := by
  refine .of_steers (fun a f u => ?_) (fun a f u => (queryOwner_handed a f u).spares)
  unfold queryOwner
  split
  · exact .of_basis (askStatus_basis u)
  · exact .refl u

theorem detectOwner_owns : Owns detectOwner := by
  refine .of_steers (fun a f u => ?_) detectOwner_spares
  unfold detectOwner
  split
  case h_1 =>
    split
    · split
      · split
        · exact detect_steers _ _ _ _ u
        · exact withdraw_steers _ _ u
      · exact .refl u
    · exact .refl u
  all_goals exact .refl u

theorem noticeOwner_owns : Owns noticeOwner := by
  refine .of_steers (fun a f u => ?_) noticeOwner_spares
  unfold noticeOwner
  split
  case h_1 =>
    split
    · split
      · exact setMirror_steers _ u
      · exact .refl u
    · exact .refl u
  all_goals exact .refl u

theorem confirmOwner_owns : Owns confirmOwner := by
  refine .of_steers (fun a f u => ?_) confirmOwner_spares
  unfold confirmOwner
  split
  case h_1 =>
    split
    · split
      · exact .of_basis (takeConfirm_basis u _ _ _ _)
      · exact .refl u
    · exact .refl u
  all_goals exact .refl u

theorem postureOwner_owns : Owns postureOwner := by
  refine .of_steers (fun a f u => ?_) postureOwner_spares
  unfold postureOwner
  split
  case h_1 =>
    split
    · split
      · exact .of_basis (adoptPosture_basis u a _ _)
      · exact .refl u
    · exact .refl u
  all_goals exact .refl u

/-! ## Owners that settle in between -/

/-- What an owner does in one event, settlings of its own included. -/
structure Acts (s u : State) : Prop where
  valve : s.ValveSafe → u.ValveSafe
  sounding : ∀ {b : State}, Sounding b s → b.running = true → Sounding b u

theorem Acts.refl (s : State) : Acts s s := ⟨id, fun h _ => h⟩

theorem Acts.trans {s u v : State} (h : Acts s u) (k : Acts u v) : Acts s v :=
  ⟨fun w => k.valve (h.valve w), fun hb hr => k.sounding (h.sounding hb hr) hr⟩

theorem Acts.of_climbs {s u : State} (h : Steers s u) (k : Climbs s u) : Acts s u :=
  ⟨h.valve, fun hb _ => hb.climb k⟩

theorem Acts.of_basis {s u : State} (h : u.basis = s.basis) (k : Spares s u) : Acts s u :=
  have ⟨hi, hq⟩ := Machine.of_basis h
  .of_climbs (.of_seq hq) (.still k.now k.startup hi hq)

theorem settle_acts (s : State) : Acts s (settle s) := ⟨settle_valve, fun hb hr => hb.settled hr⟩

/-- An owner that acts and leaves the rest to the settling that follows. -/
theorem Owns.of_acts {owner : Nat → Frame → State → State} (h : ∀ a f u, Acts u (owner a f u)) : Owns owner where
  valve a f u := (h a f u).valve
  sounds a f s u k hs ht := by
    have e := (h a f u).sounding (k.sounding ht) hs
    exact (e.sounds (e.running.trans hs)).1

theorem setAnn_acts (s : State) (x : Annunciator) : Acts s (s.setAnn x) := .of_basis rfl (setAnn_spares s x)

theorem addRemote_acts (a : Nat) (k : RemoteKind) (s : State) : Acts s (addRemote a k s) := by
  have joined (u : State) : Acts u (joinRemote a k u) := setAnn_acts u _
  unfold addRemote
  split
  · exact .refl s
  · split
    · exact joined s
    · unfold evictOldest
      exact ((setAnn_acts s _).trans (settle_acts _)).trans (joined _)

theorem removeRemote_acts (a : Nat) (k : RemoteKind) (s : State) : Acts s (removeRemote a k s) :=
  setAnn_acts s _

theorem duressOwner_owns : Owns duressOwner := by
  refine .of_acts fun a f u => ?_
  unfold duressOwner
  split
  case h_1 =>
    split
    · split
      · exact addRemote_acts a _ u
      · exact removeRemote_acts a _ u
    · exact .refl u
  all_goals exact .refl u

/-- R58, R63: a call acts at a release station, after the hearing of its sender has been settled. -/
theorem callOwner_owns : Owns callOwner := by
  refine .of_acts fun a f u => ?_
  unfold callOwner
  split
  case h_1 =>
    split
    · next h =>
      exact (settle_acts u).trans
        (.of_climbs (actOnCall_steers a _ _) (actOnCall_climbs a _ ((settle_handed u).role.trans h.1)))
    · exact .refl u
  all_goals exact .refl u

theorem listsRecovered_acts (a : Nat) (c : Announcement) (s : State) : Acts s (listsRecovered a c s) := by
  have detections (u : State) : Acts u (recoverDetections a c u) := by
    have lines (u : State) (l : Fin 4) : Steers u (recoverLine a c u l) ∧ Climbs u (recoverLine a c u l) := by
      unfold recoverLine
      split
      · exact ⟨detect_steers _ _ _ _ u, detect_climbs _ _ _ _ u⟩
      · exact ⟨.refl u, .refl u⟩
    unfold recoverDetections
    split
    · exact .of_climbs (.foldl (fun u l => (lines u l).1) _ u) (.foldl (fun u l => (lines u l).2) _ u)
    · exact .refl u
  have duress (u : State) : Acts u (recoverDuress a c u) := by
    unfold recoverDuress
    split
    · exact addRemote_acts a _ u
    · exact removeRemote_acts a _ u
  have firstAlarm (u : State) : Acts u (recoverFirstAlarm a c u) := by
    unfold recoverFirstAlarm
    split
    · exact removeRemote_acts a _ u
    · split
      · exact addRemote_acts a _ u
      · exact .refl u
  exact (((((detections s).trans (settle_acts _)).trans (duress _)).trans (settle_acts _)).trans (firstAlarm _)).trans
    (settle_acts _)

theorem recoverAbort_acts (a : Nat) (c : Announcement) (s : State) : Acts s (recoverAbort a c s) := by
  unfold recoverAbort
  split
  · next h => exact .of_climbs (abortLeave_steers a s) (abortLeave_climbs a h.1)
  · exact .refl s

theorem mirrorStatus_steers (a : Nat) (c : Announcement) (s : State) : Steers s (mirrorStatus a c s) := by
  unfold mirrorStatus
  split
  · exact setMirror_steers _ s
  · exact .refl s

/-- R33, R72: a STATUS moves the mirror of a member, where nothing before has moved the sounder. -/
theorem mirrorStatus_sounds {a : Nat} {c : Announcement} {s u : State} (h : Sounding s u) (hs : s.running = true)
    (ht : s.Tuned) : Sounds s (settle (mirrorStatus a c u)) := by
  by_cases hr : s.role = .release
  · have hu : mirrorStatus a c u = u := by
      unfold mirrorStatus
      rw [if_neg]
      rintro ⟨k, -⟩
      rw [releaseStation_of_release (h.role.trans hr)] at k
      cases k
    rw [hu]
    exact (h.sounds (h.running.trans hs)).1
  · obtain ⟨hc, hp, he⟩ := h.stays ht hr
    have m := mirrorStatus_steers a c u
    have hm := (running_congr (mirrorStatus_only a c u).startup).trans (h.running.trans hs)
    exact (settle_sounds _ hm).congr (m.cadence.trans hc) (m.pattern.trans hp) (m.phaseEnd.trans he)

theorem statusOwner_owns : Owns statusOwner := by
  have acts (a : Nat) (c : Announcement) (u : State) :
      Acts u (settle (adoptPosture a c.posture c.epoch (settle (recoverAbort a c (listsRecovered a c u))))) :=
    ((((listsRecovered_acts a c u).trans (recoverAbort_acts a c _)).trans (settle_acts _)).trans
      (.of_basis (adoptPosture_basis _ a _ _) (adoptPosture_spares a _ _ _))).trans (settle_acts _)
  constructor
  · intro a f u h
    cases f
    case status c => exact (mirrorStatus_steers a c _).valve ((acts a c u).valve h)
    all_goals exact h
  · intro a f s u k hs ht
    have plain : Sounds s (settle u) := ((k.sounding ht).sounds (k.running.trans hs)).1
    cases f
    case status c => exact mirrorStatus_sounds ((acts a c u).sounding (k.sounding ht) hs) hs ht
    all_goals exact plain

end Sys2Proof.Machine
end

section
/-! SUPPORT. Every command keeps the valve to RELEASING, and all but the sounder's own timer let the sounder follow the stage
shown (R52, R65, R74). -/

namespace Sys2Proof.Machine

/-! ## Start-up -/

theorem initExpiry_drives (s : State) : Drives s (initExpiry s) := by
  unfold initExpiry
  split
  · exact .of_basis rfl
  · exact .refl s

theorem referenceCycle_drives (s : State) : Drives s (referenceCycle s) := by
  unfold referenceCycle
  split
  · split
    · exact settled_drives rfl
    · exact .of_basis rfl
  · exact .refl s

theorem referenceGap_drives (s : State) : Drives s (referenceGap s) := by
  unfold referenceGap
  split
  · exact .of_basis rfl
  · exact .refl s

theorem clockLimitExpiry_drives (s : State) : Drives s (clockLimitExpiry s) := by
  unfold clockLimitExpiry
  split
  · exact settled_drives rfl
  · exact .refl s

theorem clockFallback_drives (s : State) : Drives s (clockFallback s) := by
  unfold clockFallback
  split
  · exact settled_drives rfl
  · exact .refl s

theorem joinTimerExpiry_drives (s : State) : Drives s (joinTimerExpiry s) := by
  have joined (u : State) : Steers u (enterRun u) := by
    have begun (x : Startup) (b : Bus) : Steers u ((u.setStartup x).setBus b) := .of_basis rfl
    unfold enterRun
    dsimp only
    split
    · exact (begun _ _).trans (sendNotice_steers _)
    · exact begun _ _
  unfold joinTimerExpiry
  split
  · exact ((Steers.of_basis (by simp)).trans (joined _)).settled
  · exact .refl s

/-- R58, R156: the inputs found made as LOAD ends. -/
theorem startInputs_steers (s : State) : Steers s (startInputs s) := by
  have found (b : Bool) (x : Source) (u : State) : Steers u (if b then trigger x u else u) := by
    split
    · exact trigger_steers x u
    · exact .refl u
  have abort : Steers s (if s.pins.abort then abortInput true s else s) := by
    unfold abortInput
    split
    · split
      · exact abortJoin_steers _ s
      · exact .of_basis (by simp [abortCall])
      · exact .refl s
    · exact .refl s
  unfold startInputs
  exact (((abort.trans (found _ _ _)).trans (found _ _ _)).trans (found _ _ _)).trans (found _ _ _)

/-- R193: as LOAD ends no block but the Sequencer's abort set writes the Sequencer. -/
theorem endLoad_valve (i : Image) {s : State} (h : s.ValveSafe) : (endLoad i s).ValveSafe := by
  have kept (u : State) : Steers u (keepImage i u) := .of_seq rfl
  have lines (u : State) : Steers u (startLines u) := .of_seq rfl
  have door (d : DoorId) (o m : Bool) (u : State) : Steers u (startDoor d o m u) := by
    refine .of_basis ?_
    unfold startDoor
    dsimp only
    split
    · rfl
    · split <;> simp
  have doors (u : State) : Steers u (startDoors u) := by
    unfold startDoors
    exact ((Steers.of_basis (by simp)).trans (door _ _ _ _)).trans (door _ _ _ _)
  have outputs (u : State) : Steers u (startOutputs u) :=
    Steers.foldl (f := startOutput) (fun u l => .of_basis rfl) _ u
  have clock (u : State) : Steers u (enterClock u) := by
    unfold enterClock
    split <;> exact .of_seq rfl
  unfold endLoad
  exact settle_valve ((clock _).valve ((outputs _).valve ((startInputs_steers _).valve ((doors _).valve
    ((lines _).valve ((kept s).valve h))))))

theorem imageLoaded_drives (m : Vector Byte 96) (s : State) : Drives s (imageLoaded m s) := by
  refine ⟨fun h => ?_, fun hs _ ht => ?_⟩
  · unfold imageLoaded
    split
    case h_1 =>
      split
      · exact endLoad_valve _ h
      · exact h
    all_goals exact h
  · rw [imageLoaded_of_running hs]
    exact .of_same ht rfl rfl

/-! ## Detector lines -/

theorem risingEdge_drives (l : Fin 4) (s : State) : Drives s (risingEdge l s) := by
  unfold risingEdge
  split
  · exact .refl s
  · split <;> exact .of_basis rfl

theorem fallingEdge_drives (l : Fin 4) (s : State) : Drives s (fallingEdge l s) := by
  have pins : Steers s (setDet l false s) := .of_basis rfl
  unfold fallingEdge
  split
  · split
    · exact (pins.trans (putLine_steers l _ _)).settled
    · exact .of_basis rfl
  · exact .refl s

theorem longPulse_drives (l : Fin 4) (s : State) : Drives s (longPulse l s) := by
  unfold longPulse
  split
  · exact .refl s
  · exact ((Steers.of_basis (reach_basis s _)).trans (putLine_steers l _ _)).settled

theorem stuckTimerExpiry_drives (l : Fin 4) (s : State) : Drives s (stuckTimerExpiry l s) := by
  unfold stuckTimerExpiry
  split
  · exact .refl s
  · split
    · exact settled_drives rfl
    · exact .of_basis rfl

theorem openTimerExpiry_drives (l : Fin 4) (s : State) : Drives s (openTimerExpiry l s) := by
  unfold openTimerExpiry
  split
  · exact .refl s
  · split
    · exact .of_basis rfl
    · exact settled_drives rfl

/-! ## Doors, entry, posture, outputs and alarms -/

theorem contactChange_drives (d : DoorId) (b : Bool) (s : State) : Drives s (contactChange d b s) := by
  unfold contactChange
  split
  · split <;> exact settled_drives (by simp)
  · exact .refl s

theorem exitChange_drives (d : DoorId) (b : Bool) (s : State) : Drives s (exitChange d b s) := by
  unfold exitChange
  dsimp only
  split
  · split
    · exact settled_drives (by simp)
    · exact .of_basis (by simp)
  · exact .refl s

theorem releaseExpiry_drives (d : DoorId) (s : State) : Drives s (releaseExpiry d s) := by
  unfold releaseExpiry
  split
  · exact settled_drives (by simp)
  · exact .refl s

theorem heldExpiry_drives (d : DoorId) (s : State) : Drives s (heldExpiry d s) := by
  unfold heldExpiry
  split
  · exact settled_drives (by simp)
  · exact .refl s

theorem waitExpiry_drives (d : DoorId) (s : State) : Drives s (waitExpiry d s) := by
  unfold waitExpiry
  split
  · exact .refl s
  · exact .of_basis (by simp)

theorem pairExpiry_drives (d : DoorId) (s : State) : Drives s (pairExpiry d s) := by
  unfold pairExpiry
  split
  · exact .refl s
  · exact .of_basis (by simp)

theorem presentCredential_drives (p : Presentation) (s : State) : Drives s (presentCredential p s).2 :=
  settled_drives (u := (decidePresentation p s).after.setBroken p.door false) (by simp)

theorem zoneSweep_drives (x : Unit) (s : State) : Drives s (zoneSweep x s).2 := by
  unfold zoneSweep
  split
  · exact settled_drives rfl
  · exact .refl s

theorem setPosture_drives (p : Posture) (s : State) : Drives s (setPosture p s).2 := by
  unfold setPosture
  split
  · exact .refl s
  · split
    · exact .refl s
    · exact settled_drives (by simp [acceptPosture])

theorem forceOutput_drives (x : Fin 12 × Bool) (s : State) : Drives s (forceOutput x s).2 := by
  unfold forceOutput
  split
  · exact .refl s
  · exact settled_drives rfl

theorem releaseOutput_drives (l : Fin 12) (s : State) : Drives s (releaseOutput l s).2 :=
  settled_drives (u := s.setOutput l _) rfl

theorem senseChange_drives (l : Fin 12) (high : Bool) (s : State) : Drives s (senseChange l high s) := by
  unfold senseChange
  split
  · exact .refl s
  · dsimp only
    split
    · exact settled_drives rfl
    · exact .of_basis rfl

theorem mismatchExpiry_drives (l : Fin 12) (s : State) : Drives s (mismatchExpiry l s) := by
  unfold mismatchExpiry
  split
  · exact .refl s
  · exact settled_drives rfl

theorem silenceExpiry_drives (a : Nat) (s : State) : Drives s (silenceExpiry a s) := by
  unfold silenceExpiry
  split
  · exact .refl s
  · next t _ =>
    exact Steers.settled (.of_seq (State.setPeer_seq (s.reach t) a _))

theorem duressChange_drives (d : DuressInput) (b : Bool) (s : State) : Drives s (duressChange d b s) := by
  unfold duressChange
  split
  · exact settled_drives (trigger_basis s _)
  · exact .refl s

theorem tamperChange_drives (b : Bool) (s : State) : Drives s (tamperChange b s) := by
  unfold tamperChange
  split
  · exact settled_drives (trigger_basis s _)
  · exact .refl s

theorem nextAlarm_drives (x : Unit) (s : State) : Drives s (nextAlarm x s).2 := by
  unfold nextAlarm
  split
  · exact settled_drives (acknowledge_basis s _)
  · exact .of_basis rfl

theorem restoreAlarm_drives (x : Source) (s : State) : Drives s (restoreAlarm x s).2 := by
  unfold restoreAlarm
  iterate 4
    split
    · exact .refl s
  exact settled_drives (restoreSource_basis s x)

theorem maskAlarm_drives (x : Source × Bool) (s : State) : Drives s (maskAlarm x s).2 := by
  unfold maskAlarm
  split
  · exact .refl s
  · exact settled_drives rfl

theorem confirmRemote_drives (f : Frame) (s : State) : Drives s (confirmRemote f s).2 :=
  settled_drives (u := enqueue f s) (enqueue_basis s f)

/-! ## The zone bus -/

theorem beginFrame_drives (s : State) : Drives s (beginFrame s) := by
  unfold beginFrame
  split
  · exact .refl s
  · split
    · exact .of_basis rfl
    · exact .refl s

theorem loseArbitration_drives (s : State) : Drives s (loseArbitration s) := by
  unfold loseArbitration
  split
  · exact .refl s
  · exact settled_drives (by simp)

theorem bitError_drives (bits : List Bool) (s : State) : Drives s (bitError bits s) := by
  unfold bitError
  split
  · exact .refl s
  · exact settled_drives (by simp)

theorem quietExpiry_drives (s : State) : Drives s (quietExpiry s) := by
  unfold quietExpiry
  split
  · exact .refl s
  · exact settled_drives rfl

theorem completeFrame_drives (s : State) : Drives s (completeFrame s) := by
  unfold completeFrame
  split
  · exact .refl s
  · exact .of_basis (by simp)

theorem setStuck_drives (b : Bool) (s : State) : Drives s (setStuck b s) := by
  unfold setStuck
  split
  · exact settled_drives rfl
  · exact .refl s

theorem firstStatusExpiry_drives (s : State) : Drives s (firstStatusExpiry s) := by
  unfold firstStatusExpiry
  split
  · exact .refl s
  · exact settled_drives (by simp)

theorem statusExpiry_drives (s : State) : Drives s (statusExpiry s) := by
  unfold statusExpiry
  split
  · exact .refl s
  · exact (((Steers.of_basis (reach_basis s _)).trans (ownCheck_steers _)).trans
      (.of_basis (sendStatus_basis _))).settled

/-! ## The panel port -/

theorem readReply_drives (clocked before : Nat) (s : State) : Drives s (readReply clocked before s) := by
  have port (p : Port) : Drives s (s.setPort p) := .of_basis rfl
  unfold readReply
  split
  · exact .refl s
  · split
    · split <;> exact port _
    · exact port _

theorem unknownCode_drives (code : Nat) (rest : PanelRest) (s : State) : Drives s (unknownCode code rest s) := by
  have hp : ∀ u p, Drives s u → Drives s (u.setPort p) := fun u p d => d.before rfl rfl rfl
  unfold unknownCode
  split
  · exact commandFrame_induction hp hp (fun _ h => h) (fun _ h => h) (.refl s)
  · exact .refl s

theorem latchTimes_drives (x : Unit) (s : State) : Drives s (latchTimes x s).2 := by
  unfold latchTimes
  split
  · exact .refl s
  · exact .of_basis rfl

theorem readTimes_drives (x : Unit) (s : State) : Drives s (readTimes x s).2 := by
  unfold readTimes
  split
  · exact .of_basis rfl
  · exact .refl s

/-- The owner of a panel command that only reports. -/
theorem report_drives {α : Type} {act : α → State → Answer × State} (h : ∀ x u, (act x u).2 = u) (x : α) (u : State) :
    Drives u (act x u).2 := by
  rw [h]
  exact .refl u

/-! ## The Sequencer -/

theorem windowExpiry_drives (a : Nat) (l : Fin 4) (s : State) : Drives s (windowExpiry a l s) := by
  unfold windowExpiry
  split
  · exact .refl s
  · exact ((Steers.of_basis (reach_basis s _)).trans (dropDetection_steers a l _)).settled

theorem abortChange_drives (b : Bool) (s : State) : Drives s (abortChange b s) := by
  have moved : Steers s (abortInput b s) := by
    unfold abortInput
    split
    · split
      · exact abortJoin_steers _ s
      · exact abortLeave_steers _ s
    · exact .of_basis (by simp [abortCall])
    · exact .refl s
  unfold abortChange
  split
  · exact moved.settled
  · exact .refl s

theorem manrelChange_drives (b : Bool) (s : State) : Drives s (manrelChange b s) := by
  have pressed : Steers s (manualPress s) := by
    unfold manualPress
    split
    · exact (trigger_steers _ s).trans (manualRelease_steers _)
    · exact .of_basis (by simp)
    · exact trigger_steers _ s
  unfold manrelChange
  split
  · exact pressed.settled
  · exact .refl s

theorem abortStuckExpiry_drives (s : State) : Drives s (abortStuckExpiry s) := by
  unfold abortStuckExpiry
  split
  · exact .refl s
  · exact (((Steers.of_basis (reach_basis s _)).trans (.write _ _)).trans (trigger_steers _ _)).settled

theorem countdownExpiry_drives (s : State) : Drives s (countdownExpiry s) := by
  unfold countdownExpiry
  split
  · exact ((Steers.of_basis (reach_basis s _)).trans (enterReleasing_steers _)).settled
  · exact .refl s

/-- R65: the valve delay runs out in RELEASING alone. -/
theorem valveDelayExpiry_drives (s : State) : Drives s (valveDelayExpiry s) := by
  unfold valveDelayExpiry
  split
  · next t hs _ => exact ((Steers.of_basis (reach_basis s t)).trans (energiseValve_steers hs)).settled
  · exact .refl s

theorem valvePulseExpiry_drives (s : State) : Drives s (valvePulseExpiry s) := by
  unfold valvePulseExpiry
  split
  · exact ((Steers.of_basis (reach_basis s _)).trans (endValvePulse_steers _)).settled
  · exact .refl s

theorem flowChange_drives (b : Bool) (s : State) : Drives s (flowChange b s) := by
  unfold flowChange
  split
  · exact (confirmFlow_steers s).settled
  · exact .refl s

theorem flowWaitExpiry_drives (s : State) : Drives s (flowWaitExpiry s) := by
  unfold flowWaitExpiry
  split
  · exact .refl s
  · exact (((Steers.of_basis (reach_basis s _)).trans (.write _ _)).trans (trigger_steers _ _)).settled

theorem soakExpiry_drives (s : State) : Drives s (soakExpiry s) := by
  unfold soakExpiry
  split
  · next t hs _ =>
    have stopped : Steers s ((s.reach t).setSeq { s.seq with soak := none }) :=
      (Steers.of_basis (reach_basis s t)).trans (.write _ _)
    exact (stopped.trans (enterStage_steers _ (by simp [hs]))).settled
  · exact .refl s

theorem noticeExpiry_drives (s : State) : Drives s (noticeExpiry s) := by
  unfold noticeExpiry
  split
  · exact .refl s
  · exact ((Steers.of_basis (reach_basis s _)).trans (sendNotice_steers _)).settled

/-- R58: an address that joins moves no stage where no countdown runs. -/
theorem abortJoin_normal (a : Nat) {s : State} (h : s.seq.stage = .normal) : (abortJoin a s).seq.stage = .normal := by
  unfold abortJoin
  dsimp only
  split
  · exact h
  · split
    · rw [if_neg (by simp [h])]
      exact h
    · exact h

/-- R74: in NORMAL, what moves no stage leaves the silent sounder silent. -/
theorem Drives.trans_of_silent {s u v : State} (d : Drives s u) (hr : u.role = .release) (hn : u.seq.stage = .normal)
    (ho : SeqOnly u v) (k : Steers u v) (hv : v.seq.stage = .normal) : Drives s (settle v) where
  valve h := settle_valve (k.valve (d.valve h))
  sounds hs ht h := by
    have hvr : v.running = true := (settle_running v).symm.trans ht
    have e := d.sounds hs ((running_congr ho.startup).symm.trans hvr) h
    have f := (settle_sounds v hvr).congr k.cadence k.pattern k.phaseEnd
    have hp : (settle v).seq.pattern = u.seq.pattern := by
      rw [f.pattern, e.pattern, shownStage_of_release hr, hn, shownStage_of_release ((settle_handed v).role.trans
        (ho.role.trans hr)), (settle_onward (by rw [hv]; decide)).stage, hv]
    obtain ⟨hc, he⟩ := f.same hp
    refine ⟨f.pattern, ?_, ?_⟩ <;> rw [hp, hc, he]
    · exact e.same
    · rw [(settle_handed v).now, ho.now]
      exact e.starts

/-- R62, R70: after a reset the stage is NORMAL and has been settled; the own address that joins again moves no stage. -/
theorem resetAndRejoin_drives {s : State} (hr : s.role = .release) (h : s.seq.stage ≠ .releasing) :
    Drives s (resetAndRejoin s) := by
  have reset : Drives s (settle (resetSequence s)) := (resetSequence_steers h).settled
  have hrole : (settle (resetSequence s)).role = .release :=
    (settle_handed _).role.trans ((resetSequence_only s).role.trans hr)
  have hn : (settle (resetSequence s)).seq.stage = .normal := by
    have e : (resetSequence s).seq.stage = .normal := enterStage_stage _ _
    exact (settle_onward (by rw [e]; decide)).stage.trans e
  unfold resetAndRejoin rejoinAbort
  split
  · exact reset.trans_of_silent hrole hn (abortJoin_only _ _) (abortJoin_steers _ _) (abortJoin_normal _ hn)
  · exact reset

theorem suppressionReset_drives (x : Unit) (s : State) : Drives s (suppressionReset x s).2 := by
  unfold suppressionReset
  split
  · exact .refl s
  · next hr =>
    split
    · exact .refl s
    · next hn =>
      split
      · exact .refl s
      · exact resetAndRejoin_drives (not_not.mp hr) (fun k => hn (by rw [k]; rfl))

theorem suppressionIsolate_drives (on : Bool) (s : State) : Drives s (suppressionIsolate on s).2 := by
  have enters (st : Stage) (h : s.seq.stage ≠ .releasing) : Drives s (settle (enterStage st s)) :=
    (enterStage_steers st h).settled
  unfold suppressionIsolate isolateOn isolateOff
  split
  · exact .refl s
  · split
    · split
      case h_1 h => exact enters _ (by simp [h])
      case h_2 h => exact enters _ (by simp [h])
      all_goals exact .refl s
    · split
      case h_1 h =>
        split
        · exact .refl s
        · exact enters _ (by simp [h])
      all_goals exact .refl s

end Sys2Proof.Machine
end

section
/-! SUPPORT. The walk over every command: the valve (R52, R65) and the sounder (R74). -/

namespace Sys2Proof.Machine

/-- R52, R192: a reset leaves the valve off and the blocks stopped. -/
theorem resetKeeping_drives (cold : Bool) (s : State) : Drives s (resetKeeping cold s) where
  valve _ h := by cases h
  sounds _ ht := by cases ht

theorem exec_drives (c : Instr) (s : State) : c = .cadencePhaseExpiry ∨ ∃ t, exec c s = .next t ∧ Drives s t := by
  cases c with
  | powerOnReset => exact .inr ⟨_, rfl, resetKeeping_drives true s⟩
  | pinReset => exact .inr ⟨_, rfl, resetKeeping_drives _ s⟩
  | imageLoadComplete dt m => exact .inr ⟨_, rfl, elapse_drives (imageLoaded_drives m _)⟩
  | silenceTimerExpiry a => exact .inr ⟨_, rfl, silenceExpiry_drives a s⟩
  | manrelMade e b => exact .inr ⟨_, rfl, inputEvent_drives manrelChange_drives b e s⟩
  | releaseCallFrame dt bits => exact .inr ⟨_, rfl, receiveFrame_drives callOwner_owns s dt⟩
  | resetDetection dt rest => exact .inr ⟨_, rfl, panelCommand_drives resetDetection_drives s⟩
  | suppressionIsolate dt rest => exact .inr ⟨_, rfl, panelCommand_drives suppressionIsolate_drives s⟩
  | initExpiry => exact .inr ⟨_, rfl, initExpiry_drives s⟩
  | referenceCycle dt => exact .inr ⟨_, rfl, elapse_drives (referenceCycle_drives _)⟩
  | referenceGap dt => exact .inr ⟨_, rfl, elapse_drives (referenceGap_drives _)⟩
  | clockLimitExpiry => exact .inr ⟨_, rfl, clockLimitExpiry_drives s⟩
  | clockFallback dt => exact .inr ⟨_, rfl, elapse_drives (clockFallback_drives _)⟩
  | joinTimerExpiry => exact .inr ⟨_, rfl, joinTimerExpiry_drives s⟩
  | detectorRisingEdge dt l => exact .inr ⟨_, rfl, elapse_drives (risingEdge_drives l _)⟩
  | detectorFallingEdge dt l => exact .inr ⟨_, rfl, elapse_drives (fallingEdge_drives l _)⟩
  | longPulse l => exact .inr ⟨_, rfl, longPulse_drives l s⟩
  | stuckTimerExpiry l => exact .inr ⟨_, rfl, stuckTimerExpiry_drives l s⟩
  | openTimerExpiry l => exact .inr ⟨_, rfl, openTimerExpiry_drives l s⟩
  | readDetector dt rest => exact .inr ⟨_, rfl, panelCommand_drives (report_drives fun _ _ => rfl) s⟩
  | statusFrame dt bits => exact .inr ⟨_, rfl, receiveFrame_drives statusOwner_owns s dt⟩
  | queryFrame dt bits => exact .inr ⟨_, rfl, receiveFrame_drives queryOwner_owns s dt⟩
  | readPeer dt rest => exact .inr ⟨_, rfl, panelCommand_drives (report_drives fun _ _ => rfl) s⟩
  | detectFrame dt bits => exact .inr ⟨_, rfl, receiveFrame_drives detectOwner_owns s dt⟩
  | windowTimerExpiry a l => exact .inr ⟨_, rfl, windowExpiry_drives a l s⟩
  | abortInputChange e b => exact .inr ⟨_, rfl, inputEvent_drives abortChange_drives b e s⟩
  | abortStuckExpiry => exact .inr ⟨_, rfl, abortStuckExpiry_drives s⟩
  | countdownExpiry => exact .inr ⟨_, rfl, countdownExpiry_drives s⟩
  | valveDelayExpiry => exact .inr ⟨_, rfl, valveDelayExpiry_drives s⟩
  | valvePulseExpiry => exact .inr ⟨_, rfl, valvePulseExpiry_drives s⟩
  | flowMade e b => exact .inr ⟨_, rfl, inputEvent_drives flowChange_drives b e s⟩
  | flowWaitExpiry => exact .inr ⟨_, rfl, flowWaitExpiry_drives s⟩
  | soakTimerExpiry => exact .inr ⟨_, rfl, soakExpiry_drives s⟩
  | vsupChange dt b => exact .inr ⟨_, rfl, settled_drives (u := (s.elapse dt).setPins _) rfl⟩
  | noticeTimerExpiry => exact .inr ⟨_, rfl, noticeExpiry_drives s⟩
  | suppressionReset dt rest => exact .inr ⟨_, rfl, panelCommand_drives suppressionReset_drives s⟩
  | releaseNoticeFrame dt bits => exact .inr ⟨_, rfl, receiveFrame_drives noticeOwner_owns s dt⟩
  | cadencePhaseExpiry => exact .inl rfl
  | doorContactOpens e d => exact .inr ⟨_, rfl, inputEvent_drives (contactChange_drives d) true e s⟩
  | doorContactCloses e d => exact .inr ⟨_, rfl, inputEvent_drives (contactChange_drives d) false e s⟩
  | requestToExitPress e d b => exact .inr ⟨_, rfl, inputEvent_drives (exitChange_drives d) b e s⟩
  | releaseWindowExpiry d => exact .inr ⟨_, rfl, releaseExpiry_drives d s⟩
  | heldTimerExpiry d => exact .inr ⟨_, rfl, heldExpiry_drives d s⟩
  | pendingWaitExpiry d => exact .inr ⟨_, rfl, waitExpiry_drives d s⟩
  | presentCredential dt rest => exact .inr ⟨_, rfl, panelCommand_drives presentCredential_drives s⟩
  | pairWindowExpiry d => exact .inr ⟨_, rfl, pairExpiry_drives d s⟩
  | confirmRemote dt rest => exact .inr ⟨_, rfl, panelCommand_drives confirmRemote_drives s⟩
  | confirmFrame dt bits => exact .inr ⟨_, rfl, receiveFrame_drives confirmOwner_owns s dt⟩
  | zoneSweep dt rest => exact .inr ⟨_, rfl, panelCommand_drives zoneSweep_drives s⟩
  | readRoster dt rest => exact .inr ⟨_, rfl, panelCommand_drives (report_drives fun _ _ => rfl) s⟩
  | setPosture dt rest => exact .inr ⟨_, rfl, panelCommand_drives setPosture_drives s⟩
  | postureFrame dt bits => exact .inr ⟨_, rfl, receiveFrame_drives postureOwner_owns s dt⟩
  | forceOutput dt rest => exact .inr ⟨_, rfl, panelCommand_drives forceOutput_drives s⟩
  | releaseOutput dt rest => exact .inr ⟨_, rfl, panelCommand_drives releaseOutput_drives s⟩
  | readOutputs dt rest => exact .inr ⟨_, rfl, panelCommand_drives (report_drives fun _ _ => rfl) s⟩
  | senseInputChange dt l b => exact .inr ⟨_, rfl, elapse_drives (senseChange_drives l b _)⟩
  | mismatchTimerExpiry l => exact .inr ⟨_, rfl, mismatchExpiry_drives l s⟩
  | duressInputChange e d b => exact .inr ⟨_, rfl, inputEvent_drives (duressChange_drives d) b e s⟩
  | tamperInputChange e b => exact .inr ⟨_, rfl, inputEvent_drives tamperChange_drives b e s⟩
  | nextAlarm dt rest => exact .inr ⟨_, rfl, panelCommand_drives nextAlarm_drives s⟩
  | restoreAlarm dt rest => exact .inr ⟨_, rfl, panelCommand_drives restoreAlarm_drives s⟩
  | maskAlarm dt rest => exact .inr ⟨_, rfl, panelCommand_drives maskAlarm_drives s⟩
  | readSources dt rest => exact .inr ⟨_, rfl, panelCommand_drives (report_drives fun _ _ => rfl) s⟩
  | duressFrame dt bits => exact .inr ⟨_, rfl, receiveFrame_drives duressOwner_owns s dt⟩
  | readRemoteList dt rest =>
    exact .inr ⟨_, rfl, panelCommand_drives (act := readRemoteList) (fun _ _ => .of_basis rfl) s⟩
  | beginTransmission dt levels =>
    exact .inr ⟨_, rfl, elapse_drives ((beginFrame_drives _).after (hear_basis _ levels) (hear_running _ levels))⟩
  | arbitrationLoss dt => exact .inr ⟨_, rfl, elapse_drives (loseArbitration_drives _)⟩
  | ownBitError back => exact .inr ⟨_, rfl, elapse_drives (bitError_drives back.bits _)⟩
  | quietSpellExpiry => exact .inr ⟨_, rfl, quietExpiry_drives s⟩
  | transmissionComplete dt => exact .inr ⟨_, rfl, elapse_drives (completeFrame_drives _)⟩
  | busStuck dt => exact .inr ⟨_, rfl, elapse_drives (setStuck_drives true _)⟩
  | busStuckEnd dt => exact .inr ⟨_, rfl, elapse_drives (setStuck_drives false _)⟩
  | receiveDiscard dt bits => exact .inr ⟨_, rfl, elapse_drives (.of_basis (hear_basis _ bits))⟩
  | firstStatusDelayExpiry => exact .inr ⟨_, rfl, firstStatusExpiry_drives s⟩
  | statusTimerExpiry => exact .inr ⟨_, rfl, statusExpiry_drives s⟩
  | replyRead dt n b => exact .inr ⟨_, rfl, elapse_drives (readReply_drives n b _)⟩
  | unknownCommand dt k rest => exact .inr ⟨_, rfl, elapse_drives (unknownCode_drives k rest _)⟩
  | getStatus dt rest => exact .inr ⟨_, rfl, panelCommand_drives (act := getStatus) (fun _ _ => .of_basis rfl) s⟩
  | latchTimes dt rest => exact .inr ⟨_, rfl, panelCommand_drives latchTimes_drives s⟩
  | readTimes dt rest => exact .inr ⟨_, rfl, panelCommand_drives readTimes_drives s⟩

/-- R74: the sounder's own timer moves neither the stage nor the valve. -/
theorem cadenceExpiry_valve {s : State} (h : s.ValveSafe) : (cadenceExpiry s).ValveSafe := by
  unfold cadenceExpiry
  split
  · exact h
  · exact h

theorem exec_valve {c : Instr} {s t : State} (h : exec c s = .next t) (hs : s.ValveSafe) : t.ValveSafe := by
  rcases exec_drives c s with rfl | ⟨u, hu, d⟩
  · injection h with e
    exact e ▸ cadenceExpiry_valve hs
  · rw [hu] at h
    injection h with e
    exact e ▸ d.valve hs

/-- Settles O56, by the command that the step takes: one that waits, the station's next timer, or none. -/
theorem valveIsEnergisedInReleasingOnly : Obligations.ValveIsEnergisedInReleasingOnly := by
  intro s t hs h
  unfold step at h
  split at h
  · next c rest _ => exact exec_valve (s := { s with pending := rest }) h hs
  · split at h
    · exact exec_valve h hs
    · injection h with e
      exact e ▸ hs

/-- R74: at any event but the end of a phase the sounder follows the stage shown. -/
theorem exec_sounds {c : Instr} {s t : State} (h : exec c s = .next t) (hc : c ≠ .cadencePhaseExpiry)
    (hs : s.running = true) (ht : t.running = true) (hp : s.Tuned) : Sounds s t := by
  rcases exec_drives c s with rfl | ⟨u, hu, d⟩
  · exact absurd rfl hc
  · rw [hu] at h
    injection h with e
    exact e ▸ d.sounds hs (e ▸ ht) hp

end Sys2Proof.Machine
end

section
/-! SUPPORT. The station after reset (R52, R79, R122, R162, R166, R172). -/

namespace Sys2Proof.Machine

theorem reset_valveSafe : State.reset.ValveSafe := by decide

theorem reset_doorsSafe : State.reset.DoorsSafe := by decide

theorem reset_safe : State.reset.Safe := by
  refine ⟨reset_valveSafe, reset_doorsSafe, ?_, ?_, ?_, ?_, ?_, ?_⟩ <;> decide

/-- Settles O60: the power-up values are safe, and a station whose blocks do not run has nothing to follow. -/
theorem resetIsSafe : Obligations.ResetIsSafe :=
  ⟨reset_safe, resetKeeping_following true State.reset⟩

end Sys2Proof.Machine
end

section
/-! SUPPORT. The rules of the discharge (R57, R65 to R67, R69): what a notice tells, and what the valve's start does. -/

namespace Sys2Proof.Machine

/-! ## Notices -/

/-- R69: a notice says the area, the stage, what remains and the flow, and no more. -/
theorem noticeFrame_of_fields {s t : State} (hs : t.seq.stage = s.seq.stage) (hc : t.seq.countdown = s.seq.countdown)
    (hf : t.seq.frozen = s.seq.frozen) (hw : t.seq.flowConfirmed = s.seq.flowConfirmed) (hi : t.image = s.image)
    (hn : t.now = s.now) : noticeFrame t = noticeFrame s := by
  simp only [noticeFrame, State.ownRemaining, State.area, State.img, hs, hc, hf, hw, hi, hn]

theorem Tells.congr {s t : State} (h : Tells s) (hq : t.bus.queue = s.bus.queue) (hf : noticeFrame t = noticeFrame s) :
    Tells t := ⟨by rw [hq]; exact h.room, by rw [hq, hf]; exact h.waits⟩

theorem sendNotice_tells {s : State} (hp : places s.bus.queue ≤ 6) : Tells (sendNotice s) :=
  ⟨((sendNotice_told s).sent hp).1, sendNotice_notice hp⟩

/-- R69: with room for it, the notice of the state that an event leaves waits. -/
theorem Tells.noticeWaits {t : State} (h : Tells t) : NoticeWaits t := noticeWaits_of t h.waits

/-- R69: an event that tells what it leaves, through what follows from it. -/
theorem Onward.noticeWaits {s u t : State} (h : Onward u t) (hu : places s.bus.queue ≤ 6 → Tells u)
    (hq : s.bus.queue.length ≤ 3) : NoticeWaits t :=
  (h.tells (hu (places_le _ (by omega)))).noticeWaits

/-! ## The hand-offs that end no stage -/

/-- Where neither the area occupancy nor the stage has moved, INHIBITED ends no sooner than it did. -/
theorem State.NoStart.of_handed {s u : State} (n : s.NoStart) (h : Handed s u) (hs : u.seq.stage = s.seq.stage)
    (ho : u.seq.occupied = s.seq.occupied) : u.NoStart := by
  rwa [State.NoStart, hs, h.role, h.areaOccupied, ho]

/-! ## The valve -/

/-- R65, R66: the Sequencer as the valve starts, before flow is looked at. -/
def Sequencer.energised (q : Sequencer) (pulse wait : Nat) : Sequencer :=
  { q with valve := true, valveDelay := none, valvePulse := some pulse, flowWait := some wait, flowConfirmed := false }

/-- The valve has started, and DISCHARGE is raised; flow is looked at next. -/
def State.valveOpened (s : State) : State :=
  trigger .discharge (s.setSeq (s.seq.energised (s.now + s.img.pv * 1000) (s.now + s.img.tf * 1000000)))

theorem energiseValve_eq (s : State) :
    energiseValve s = if s.valveOpened.pins.flow then confirmFlow s.valveOpened else s.valveOpened := rfl

theorem valveOpened_only (s : State) : SeqOnly s s.valveOpened :=
  (setSeq_only s _).trans (trigger_only .discharge _ (by decide)).toSeqOnly

theorem valveOpened_seq (s : State) :
    s.valveOpened.seq = s.seq.energised (s.now + s.img.pv * 1000) (s.now + s.img.tf * 1000000) :=
  (trigger_only .discharge _ (by decide)).seq_eq

theorem valveOpened_bus (s : State) : s.valveOpened.bus = s.bus := trigger_bus .discharge _ (by decide) (by decide)

theorem confirmFlow_seq (s : State) : (confirmFlow s).seq = { s.seq with
    flowConfirmed := true, flowWait := none
    notice := if s.seq.stage.noticed then some (s.now + Config.noticeTime) else none } := sendNotice_seq _

theorem confirmFlow_tells {s : State} (hp : places s.bus.queue ≤ 6) : Tells (confirmFlow s) :=
  sendNotice_tells (s := s.setSeq _) hp

/-- R65, R66: the Sequencer once the valve has started and flow has been looked at. -/
theorem energiseValve_seq (s : State) : (energiseValve s).seq =
    { s.seq.energised (s.now + s.img.pv * 1000) (s.now + s.img.tf * 1000000) with
      flowConfirmed := s.pins.flow, flowWait := if s.pins.flow then none else some (s.now + s.img.tf * 1000000)
      notice := if s.pins.flow then (if s.seq.stage.noticed then some (s.now + Config.noticeTime) else none)
        else s.seq.notice } := by
  have hq := valveOpened_seq s
  rw [energiseValve_eq, (valveOpened_only s).pins]
  cases s.pins.flow with
  | false => exact hq
  | true =>
    refine (confirmFlow_seq _).trans ?_
    rw [hq, (valveOpened_only s).now]
    rfl

theorem energiseValve_raises (s : State) : ((energiseValve s).source .discharge).pending = true := by
  have hr : (s.valveOpened.source .discharge).pending = true := trigger_pending .discharge _ (by decide)
  rw [energiseValve_eq]
  split
  · exact (confirmFlow_only _).raisedStay _ (by decide) hr
  · exact hr

/-- R66, R69: flow that is found is told. -/
theorem energiseValve_finds {s : State} (hf : s.pins.flow = true) (hp : places s.bus.queue ≤ 6) :
    Tells (energiseValve s) := by
  rw [energiseValve_eq, (valveOpened_only s).pins, if_pos hf]
  exact confirmFlow_tells (by rwa [valveOpened_bus])

/-- R66: where no flow is found and none was confirmed, the notice that waits still says what the state is. -/
theorem energiseValve_tells {s : State} (hw : s.seq.flowConfirmed = false) (h : Tells s) : Tells (energiseValve s) := by
  cases hf : s.pins.flow with
  | true => exact energiseValve_finds hf h.room
  | false =>
    have ho := valveOpened_only s
    have hq := valveOpened_seq s
    rw [energiseValve_eq, ho.pins, hf, if_neg (by decide)]
    exact h.congr (by rw [valveOpened_bus]) (noticeFrame_of_fields (by rw [hq]; rfl) (by rw [hq]; rfl) (by rw [hq]; rfl)
      (by rw [hq, hw]; rfl) ho.image ho.now)

/-! ## RELEASING -/

/-- R65: RELEASING with a valve delay. -/
theorem enterReleasing_delays {s : State} (hd : s.img.dv ≠ 0) : enterReleasing s =
    (enterStage .releasing s).setSeq { (enterStage .releasing s).seq with valveDelay := some (s.now + s.img.dv * 1000) } := by
  have ho := enterStage_only .releasing s
  unfold enterReleasing
  rw [if_neg (by rw [ho.img]; exact hd), ho.now, ho.img]
  rfl

/-- R65: RELEASING without one. -/
theorem enterReleasing_fires {s : State} (hd : s.img.dv = 0) :
    enterReleasing s = energiseValve (enterStage .releasing s) := by
  unfold enterReleasing
  rw [if_pos (by rw [(enterStage_only _ s).img, hd])]

/-- R57, R65: RELEASING has nothing remaining and no notice timer; the list, the abort set and the soak stay. -/
theorem enterReleasing_fields (s : State) :
    (enterReleasing s).seq.stage = .releasing ∧ (enterReleasing s).seq.countdown = none ∧
      (enterReleasing s).seq.frozen = 0 ∧ (enterReleasing s).seq.notice = none ∧
      (enterReleasing s).seq.list = s.seq.list ∧ (enterReleasing s).seq.abortSet = s.seq.abortSet ∧
      (enterReleasing s).seq.soak = s.seq.soak := by
  by_cases hd : s.img.dv = 0
  · rw [enterReleasing_fires hd, energiseValve_seq, enterStage_seq]
    exact ⟨rfl, rfl, rfl, by simp [Stage.noticed], rfl, rfl, rfl⟩
  · rw [enterReleasing_delays hd, State.setSeq_seq, enterStage_seq]
    exact ⟨rfl, rfl, rfl, rfl, rfl, rfl, rfl⟩

/-- R65: the valve waits for Dv. -/
theorem enterReleasing_waits {s : State} (hd : s.img.dv ≠ 0) :
    (enterReleasing s).seq.valveDelay = some (s.now + s.img.dv * 1000) ∧
      (enterReleasing s).seq.valve = s.seq.valve ∧ (enterReleasing s).seq.valvePulse = s.seq.valvePulse := by
  rw [enterReleasing_delays hd, State.setSeq_seq, enterStage_seq]
  exact ⟨rfl, rfl, rfl⟩

/-- R65: a Dv of 0 energises at once. -/
theorem enterReleasing_energises {s : State} (hd : s.img.dv = 0) :
    (enterReleasing s).seq.valve = true ∧ (enterReleasing s).seq.valvePulse = some (s.now + s.img.pv * 1000) ∧
      ((enterReleasing s).source .discharge).pending = true := by
  have ho := enterStage_only .releasing s
  rw [enterReleasing_fires hd, energiseValve_seq, ho.now, ho.img]
  exact ⟨rfl, rfl, energiseValve_raises _⟩

/-- R69: RELEASING is told. -/
theorem enterReleasing_tells {s : State} (hw : s.seq.flowConfirmed = false) (hp : places s.bus.queue ≤ 6) :
    Tells (enterReleasing s) := by
  have entered : Tells (enterStage .releasing s) := enterStage_tells _ hp
  by_cases hd : s.img.dv = 0
  · rw [enterReleasing_fires hd]
    exact energiseValve_tells (by rw [enterStage_seq]; exact hw) entered
  · rw [enterReleasing_delays hd]
    exact entered.congr rfl (noticeFrame_of_fields rfl rfl rfl rfl rfl rfl)

end Sys2Proof.Machine
end

section
/-! SUPPORT. The discharge from the countdown to VENTED, and the abort set that stays filled (R57, R61, R65 to R67, R69). -/

namespace Sys2Proof.Machine

variable {s : State} {d : Nat}

/-- R57, R65: the countdown expires. -/
theorem exec_countdownExpiry (hs : s.seq.stage = .countdown) (hd : s.seq.countdown = some d) :
    exec .countdownExpiry s = .next (settle (enterReleasing (s.reach d))) := by
  show Host.Outcome.next (countdownExpiry s) = _
  unfold countdownExpiry
  rw [hs, hd]

theorem exec_valveDelayExpiry (hs : s.seq.stage = .releasing) (hd : s.seq.valveDelay = some d) :
    exec .valveDelayExpiry s = .next (settle (energiseValve (s.reach d))) := by
  show Host.Outcome.next (valveDelayExpiry s) = _
  unfold valveDelayExpiry
  rw [hs, hd]

theorem exec_valvePulseExpiry (hs : s.seq.stage = .releasing) (hd : s.seq.valvePulse = some d) :
    exec .valvePulseExpiry s = .next (settle (endValvePulse (s.reach d))) := by
  show Host.Outcome.next (valvePulseExpiry s) = _
  unfold valvePulseExpiry
  rw [hs, hd]

theorem exec_soakTimerExpiry (hs : s.seq.stage = .discharged) (hd : s.seq.soak = some d) :
    exec .soakTimerExpiry s =
      .next (settle (enterStage .vented ((s.reach d).setSeq { s.seq with soak := none }))) := by
  show Host.Outcome.next (soakExpiry s) = _
  unfold soakExpiry
  rw [hs, hd]

theorem exec_abortStuckExpiry (hd : s.seq.abortStuck = some d) : exec .abortStuckExpiry s =
    .next (settle (trigger .abortStuck ((s.reach d).setSeq { s.seq with abortStuck := none }))) := by
  show Host.Outcome.next (abortStuckExpiry s) = _
  unfold abortStuckExpiry
  rw [hd]

/-- R67: the Sequencer once the pulse has ended. -/
theorem endValvePulse_seq (s : State) : (endValvePulse s).seq = { s.seq with
    stage := .discharged, countdown := none, frozen := 0, notice := none
    valve := false, valvePulse := none, soak := some (s.now + s.img.ts * 1000000) } := enterStage_seq _ _

theorem endValvePulse_only (s : State) : SeqOnly s (endValvePulse s) := (setSeq_only s _).trans (enterStage_only _ _)

/-- An edge source that an event has raised stays raised. -/
theorem settle_raised {u : State} {x : Source} (hx : x.kind ≠ .level) (h : (u.source x).pending = true) :
    ((settle u).source x).pending = true := (settle_handed u).raisedStay x hx h

/-- R61, R66: a timer of the Sequencer stops and its source is raised, and nothing else of the Sequencer moves. -/
theorem raised_alone {u : State} {x : Source} (hx : x.kind ≠ .level) (n : u.NoStart) :
    ((settle (trigger x u)).source x).pending = true ∧ (settle (trigger x u)).seq.apart = u.seq.apart ∧
      Handed u (settle (trigger x u)) := by
  have ho := trigger_only x u hx
  have hn : (trigger x u).NoStart := n.of_handed ho.toHanded (by rw [ho.seq_eq]) (by rw [ho.seq_eq])
  refine ⟨settle_raised hx (trigger_pending x u hx), ?_, ho.toHanded.trans (settle_handed _)⟩
  rw [(settle_onward_of_noStart hn).apart, ho.seq_eq]

end Sys2Proof.Machine
end

section
/-! SUPPORT. The discharge, timer by timer (O23). -/

namespace Sys2Proof.Machine

/-- R57, R65, R69: what the expiry of the countdown leaves. -/
theorem countdown_expires {s : State} {d : Nat} (hs : s.seq.stage = .countdown) (hd : s.seq.countdown = some d) :
    ∃ t, exec .countdownExpiry s = .next t ∧ t.seq.stage = .releasing ∧ t.seq.countdown = none ∧ t.seq.frozen = 0 ∧
      t.seq.notice = none ∧ t.seq.list = s.seq.list ∧ t.seq.abortSet = s.seq.abortSet ∧ t.seq.soak = s.seq.soak ∧
      (s.img.dv ≠ 0 → t.seq.valveDelay = some (max s.now d + s.img.dv * 1000) ∧ t.seq.valve = s.seq.valve ∧
        t.seq.valvePulse = s.seq.valvePulse) ∧
      (s.img.dv = 0 → t.seq.valve = true ∧ t.seq.valvePulse = some (max s.now d + s.img.pv * 1000) ∧
        (t.source .discharge).pending = true) ∧
      (s.seq.flowConfirmed = false → s.bus.queue.length ≤ 3 → NoticeWaits t) ∧
      Handed (s.reach d) t := by
  obtain ⟨h1, h2, h3, h4, h5, h6, h7⟩ := enterReleasing_fields (s.reach d)
  have on : Onward (enterReleasing (s.reach d)) (settle (enterReleasing (s.reach d))) :=
    settle_onward (by rw [h1]; decide)
  refine ⟨_, exec_countdownExpiry hs hd, on.stage.trans h1,
    (congrArg Sequencer.countdown on.apart :).trans h2, (congrArg Sequencer.frozen on.apart :).trans h3,
    (congrArg Sequencer.notice on.apart :).trans h4, (congrArg Sequencer.list on.apart :).trans h5,
    (congrArg Sequencer.abortSet on.apart :).trans h6, (congrArg Sequencer.soak on.apart :).trans h7,
    fun hv => ?_, fun hv => ?_, fun hw => on.noticeWaits (s := s) (fun hp => enterReleasing_tells (s := s.reach d) hw hp),
    (enterReleasing_only _).toHanded.trans (settle_handed _)⟩
  · obtain ⟨k1, k2, k3⟩ := enterReleasing_waits (s := s.reach d) hv
    exact ⟨(congrArg Sequencer.valveDelay on.apart :).trans k1, (congrArg Sequencer.valve on.apart :).trans k2,
      (congrArg Sequencer.valvePulse on.apart :).trans k3⟩
  · obtain ⟨k1, k2, k3⟩ := enterReleasing_energises (s := s.reach d) hv
    exact ⟨(congrArg Sequencer.valve on.apart :).trans k1, (congrArg Sequencer.valvePulse on.apart :).trans k2,
      settle_raised (by decide) k3⟩

/-- R65, R66, R69: what the end of the valve delay leaves. -/
theorem valveDelay_expires {s : State} {d : Nat} (hs : s.seq.stage = .releasing) (hd : s.seq.valveDelay = some d) :
    ∃ t, exec .valveDelayExpiry s = .next t ∧ t.seq.stage = .releasing ∧ t.seq.valve = true ∧
      t.seq.valveDelay = none ∧ t.seq.valvePulse = some (max s.now d + s.img.pv * 1000) ∧
      (t.source .discharge).pending = true ∧ t.seq.flowConfirmed = s.pins.flow ∧
      t.seq.flowWait = (if s.pins.flow then none else some (max s.now d + s.img.tf * 1000000)) ∧
      (s.pins.flow = true → s.bus.queue.length ≤ 3 → NoticeWaits t) ∧
      t.seq.list = s.seq.list ∧ t.seq.abortSet = s.seq.abortSet ∧ Handed (s.reach d) t := by
  have hq := energiseValve_seq (s.reach d)
  have hst : (energiseValve (s.reach d)).seq.stage = .releasing := (energiseValve_stage _).trans hs
  have on : Onward (energiseValve (s.reach d)) (settle (energiseValve (s.reach d))) :=
    settle_onward (by rw [hst]; decide)
  have ha := on.apart.trans (congrArg Sequencer.apart hq)
  exact ⟨_, exec_valveDelayExpiry hs hd, on.stage.trans hst,
    (congrArg Sequencer.valve ha :),
    (congrArg Sequencer.valveDelay ha :),
    (congrArg Sequencer.valvePulse ha :),
    settle_raised (by decide) (energiseValve_raises _),
    (congrArg Sequencer.flowConfirmed ha :),
    (congrArg Sequencer.flowWait ha :),
    fun hf => on.noticeWaits (s := s) (fun hp => energiseValve_finds (s := s.reach d) hf hp),
    (congrArg Sequencer.list ha :),
    (congrArg Sequencer.abortSet ha :),
    (energiseValve_only _).toHanded.trans (settle_handed _)⟩

/-- R65, R67, R69: what the end of the valve pulse leaves. -/
theorem valvePulse_expires {s : State} {d : Nat} (hs : s.seq.stage = .releasing) (hd : s.seq.valvePulse = some d) :
    ∃ t, exec .valvePulseExpiry s = .next t ∧ t.seq.stage = .discharged ∧ t.seq.valve = false ∧
      t.seq.valvePulse = none ∧ t.seq.soak = some (max s.now d + s.img.ts * 1000000) ∧
      t.seq.flowWait = s.seq.flowWait ∧ t.seq.flowConfirmed = s.seq.flowConfirmed ∧
      (s.bus.queue.length ≤ 3 → NoticeWaits t) ∧
      t.seq.list = s.seq.list ∧ t.seq.abortSet = s.seq.abortSet ∧ Handed (s.reach d) t := by
  have hq := endValvePulse_seq (s.reach d)
  have hst : (endValvePulse (s.reach d)).seq.stage = .discharged := enterStage_stage _ _
  have on : Onward (endValvePulse (s.reach d)) (settle (endValvePulse (s.reach d))) :=
    settle_onward (by rw [hst]; decide)
  have ha := on.apart.trans (congrArg Sequencer.apart hq)
  exact ⟨_, exec_valvePulseExpiry hs hd, on.stage.trans hst,
    (congrArg Sequencer.valve ha :),
    (congrArg Sequencer.valvePulse ha :),
    (congrArg Sequencer.soak ha :),
    (congrArg Sequencer.flowWait ha :),
    (congrArg Sequencer.flowConfirmed ha :),
    on.noticeWaits (s := s) (fun hp => enterStage_tells (s := (s.reach d).setSeq _) _ hp),
    (congrArg Sequencer.list ha :),
    (congrArg Sequencer.abortSet ha :),
    (endValvePulse_only _).toHanded.trans (settle_handed _)⟩

/-- R67, R69: what the end of the soak leaves. -/
theorem soak_expires {s : State} {d : Nat} (hs : s.seq.stage = .discharged) (hd : s.seq.soak = some d) :
    ∃ t, exec .soakTimerExpiry s = .next t ∧ t.seq.stage = .vented ∧ t.seq.soak = none ∧
      t.seq.valve = s.seq.valve ∧ t.seq.list = s.seq.list ∧ t.seq.abortSet = s.seq.abortSet ∧
      (s.bus.queue.length ≤ 3 → NoticeWaits t) ∧ Handed (s.reach d) t := by
  have stopped : SeqOnly (s.reach d) ((s.reach d).setSeq { s.seq with soak := none }) := setSeq_only _ _
  have hq := enterStage_seq .vented ((s.reach d).setSeq { s.seq with soak := none })
  have hst := enterStage_stage .vented ((s.reach d).setSeq { s.seq with soak := none })
  have on : Onward (enterStage .vented ((s.reach d).setSeq { s.seq with soak := none })) (settle _) :=
    settle_onward (by rw [hst]; decide)
  have ha := on.apart.trans (congrArg Sequencer.apart hq)
  exact ⟨_, exec_soakTimerExpiry hs hd, on.stage.trans hst,
    (congrArg Sequencer.soak ha :),
    (congrArg Sequencer.valve ha :),
    (congrArg Sequencer.list ha :),
    (congrArg Sequencer.abortSet ha :),
    on.noticeWaits (s := s) (fun hp => enterStage_tells (s := (s.reach d).setSeq _) _ hp),
    (stopped.trans (enterStage_only _ _)).toHanded.trans (settle_handed _)⟩

/-- Settles O23, timer by timer: each event enters its stage, which no hand-off leaves, as it is not INHIBITED. -/
theorem dischargeRunsToVented : Obligations.DischargeRunsToVented := by
  refine ⟨fun s d => countdown_expires, fun s d hs => ⟨valveDelay_expires hs, valvePulse_expires hs⟩,
    fun s d => ⟨soak_expires, fun hd n => ?_⟩⟩
  have stopped : SeqOnly (s.reach d) ((s.reach d).setSeq { s.seq with abortStuck := none }) := setSeq_only _ _
  obtain ⟨hp, ha, hh⟩ := raised_alone (x := .abortStuck) (by decide)
    (State.NoStart.of_handed (s := s.reach d) n stopped.toHanded rfl rfl)
  exact ⟨_, exec_abortStuckExpiry hd, hp, ha, stopped.toHanded.trans hh⟩

end Sys2Proof.Machine
end

section
/-! SUPPORT. Flow, the valve circuit, the notices and the sounder's phases (R53, R66, R68, R69, R74). -/

namespace Sys2Proof.Machine

variable {s : State} {d : Nat}

/-! ## Inputs whose change is taken -/

/-- R53: the station as the change of a filtered input is taken: time has come to `f`, and the input has its new level. -/
def State.changed (s : State) (f : Nat) (i : Input) (level : Bool) : State := (s.reach f).setPins (s.pins.take i level)

theorem exec_flowMade {f : Nat} {made : Bool} (hf : s.pins.filter .flow = some f) (hl : s.pins.flow = !made) :
    exec (.flowMade .held made) s = .next (flowChange made (s.changed f .flow made)) :=
  congrArg Host.Outcome.next (inputEvent_held .flow made flowChange s f hf hl)

/-- R66: only flow that is made, while it is waited for, does anything. -/
theorem flowChange_of_not {made : Bool} {u : State} (h : made = false ∨ u.seq.flowWait = none) :
    flowChange made u = u := by
  refine if_neg ?_
  rintro ⟨hm, -, hw⟩
  rcases h with h | h
  · rw [h] at hm
    cases hm
  · rw [h] at hw
    cases hw

/-! ## Flow -/

/-- R66, R69: flow is made while it is waited for. -/
theorem flow_confirmed {f : Nat} (n : s.NoStart) (hr : s.running = true) (hf : s.pins.filter .flow = some f)
    (hl : s.pins.flow = false) (hw : s.seq.flowWait.isSome = true) :
    ∃ t, exec (.flowMade .held true) s = .next t ∧ t.seq.flowConfirmed = true ∧ t.seq.flowWait = none ∧
      t.seq.stage = s.seq.stage ∧ t.seq.valve = s.seq.valve ∧ (s.bus.queue.length ≤ 3 → NoticeWaits t) ∧
      Handed (s.changed f .flow true) t := by
  have ho := (confirmFlow_only (s.changed f .flow true)).toHanded
  have hq := confirmFlow_seq (s.changed f .flow true)
  have on : Onward (confirmFlow (s.changed f .flow true)) (settle (confirmFlow (s.changed f .flow true))) :=
    settle_onward_of_noStart (State.NoStart.of_handed (s := s.changed f .flow true) n ho (by rw [hq]) (by rw [hq]))
  have ha := on.apart.trans (congrArg Sequencer.apart hq)
  have taken : flowChange true (s.changed f .flow true) = settle (confirmFlow (s.changed f .flow true)) :=
    if_pos ⟨rfl, hr, hw⟩
  exact ⟨_, (exec_flowMade (made := true) hf hl).trans (congrArg _ taken), (congrArg Sequencer.flowConfirmed ha :),
    (congrArg Sequencer.flowWait ha :), (congrArg Sequencer.stage ha :), (congrArg Sequencer.valve ha :),
    on.noticeWaits (s := s) (fun hp => confirmFlow_tells (s := s.changed f .flow true) hp),
    ho.trans (settle_handed _)⟩

theorem exec_flowWaitExpiry (hd : s.seq.flowWait = some d) : exec .flowWaitExpiry s =
    .next (settle (trigger .releaseFailure ((s.reach d).setSeq { s.seq with flowWait := none }))) := by
  show Host.Outcome.next (flowWaitExpiry s) = _
  unfold flowWaitExpiry
  rw [hd]

/-- R66: the wait for flow runs out. -/
theorem flowWait_expires (hd : s.seq.flowWait = some d) (n : s.NoStart) :
    ∃ t, exec .flowWaitExpiry s = .next t ∧ (t.source .releaseFailure).pending = true ∧
      t.seq.apart = { s.seq with flowWait := none }.apart ∧ Handed (s.reach d) t := by
  have stopped : SeqOnly (s.reach d) ((s.reach d).setSeq { s.seq with flowWait := none }) := setSeq_only _ _
  obtain ⟨hp, ha, hh⟩ := raised_alone (x := .releaseFailure) (by decide)
    (State.NoStart.of_handed (s := s.reach d) n stopped.toHanded rfl rfl)
  exact ⟨_, exec_flowWaitExpiry hd, hp, ha, stopped.toHanded.trans hh⟩

/-! ## The valve circuit -/

/-- R154: a level source whose condition becomes true is pending, in-service or settled. -/
theorem SourceState.follow_made (n : Nat) {y : SourceState} (h : y.condition = false) :
    (y.follow true n).pending = true ∨ (y.follow true n).inService = true ∨ (y.follow true n).settled = true := by
  unfold SourceState.follow SourceState.take
  rw [if_neg (by rw [h]; decide), if_pos rfl]
  split
  · next k => simpa [or_assoc] using k
  · exact .inl rfl

/-- R68: the circuit's condition reads the role and the pin. -/
theorem vsup_changes (s : State) (dt : Nat) (isOpen : Bool) (hr : s.running = true) (n : s.NoStart) :
    ∃ t, exec (.vsupChange dt isOpen) s = .next t ∧ t.pins = { s.pins with vsupOpen := isOpen } ∧
      (t.source .releaseCircuit).condition = (s.role == .release && isOpen) ∧
      (s.role = .release → isOpen = true → (s.source .releaseCircuit).condition = false →
        (t.source .releaseCircuit).pending = true ∨ (t.source .releaseCircuit).inService = true ∨
          (t.source .releaseCircuit).settled = true) ∧
      t.seq.apart = s.seq.apart ∧ Handed ((s.elapse dt).setPins { s.pins with vsupOpen := isOpen }) t := by
  obtain ⟨u, hu⟩ : ∃ u, u = (s.elapse dt).setPins { s.pins with vsupOpen := isOpen } := ⟨_, rfl⟩
  have hrole : u.role = s.role := by rw [hu]; rfl
  have hpins : (settle u).pins = { s.pins with vsupOpen := isOpen } := (settle_handed u).pins.trans (by rw [hu]; rfl)
  have hlevel : (settle u).levelCondition .releaseCircuit = (s.role == .release && isOpen) := by
    show ((settle u).role == .release && (settle u).pins.vsupOpen) = _
    rw [(settle_handed u).role, hrole, hpins]
  have hsrc := (settle_after u).levels (by rw [hu]; exact hr) .releaseCircuit rfl (by decide)
  rw [hlevel] at hsrc
  refine ⟨settle u, by rw [hu]; rfl, hpins, by rw [hsrc, SourceState.follow_condition], fun h1 h2 h3 => ?_, ?_,
    hu ▸ settle_handed u⟩
  · rw [hsrc, h1, h2]
    exact SourceState.follow_made _ (by rw [hu]; exact h3)
  · exact ((settle_after u).seq (by rw [hu]; exact n)).trans (by rw [hu]; rfl)

/-- Settles O24: flow is taken or ignored by the wait, and the circuit is a level that the sequence does not read. -/
theorem flowAndValveCircuit : Obligations.FlowAndValveCircuit := by
  refine ⟨fun s f n hr hf hl => ⟨flow_confirmed n hr hf hl, fun hw => ?_⟩, fun s d => flowWait_expires,
    fun s f hf hl => ?_, vsup_changes⟩
  · exact (exec_flowMade (made := true) hf hl).trans (congrArg _ (flowChange_of_not (.inr hw)))
  · exact (exec_flowMade (made := false) hf hl).trans (congrArg _ (flowChange_of_not (.inl rfl)))

/-! ## Notices and the sounder's phases -/

theorem exec_noticeTimerExpiry (hd : s.seq.notice = some d) :
    exec .noticeTimerExpiry s = .next (settle (sendNotice (s.reach d))) := by
  show Host.Outcome.next (noticeExpiry s) = _
  unfold noticeExpiry
  rw [hd]

theorem noticed_iff (st : Stage) : st.noticed = true ↔ st = .countdown ∨ st = .held := by
  cases st <;> decide

/-- R69: the notice timer runs out. -/
theorem notice_expires (hd : s.seq.notice = some d) (n : s.NoStart) :
    ∃ t, exec .noticeTimerExpiry s = .next t ∧
      t.seq.apart = { s.seq with
        notice := if s.seq.stage = Stage.countdown ∨ s.seq.stage = Stage.held then some (max s.now d + 1000000)
          else none }.apart ∧
      (s.bus.queue.length ≤ 3 → NoticeWaits t) ∧ Handed (s.reach d) t := by
  have ho := (sendNotice_only (s.reach d)).toHanded
  have hq := sendNotice_seq (s.reach d)
  have on : Onward (sendNotice (s.reach d)) (settle (sendNotice (s.reach d))) :=
    settle_onward_of_noStart (State.NoStart.of_handed (s := s.reach d) n ho (by rw [hq]) (by rw [hq]))
  refine ⟨_, exec_noticeTimerExpiry hd, ?_, on.noticeWaits (s := s) (fun hp => sendNotice_tells (s := s.reach d) hp),
    ho.trans (settle_handed _)⟩
  rw [on.apart, hq]
  simp only [noticed_iff]
  rfl

/-- R74: a phase of the pattern ends. -/
theorem phase_ends (hd : s.seq.phaseEnd = some d) :
    ∃ t, exec .cadencePhaseExpiry s = .next t ∧
      (s.seq.cadence = .on → t.seq.cadence = .gap) ∧ (s.seq.cadence = .gap → t.seq.cadence = .on) ∧
      (s.seq.pattern = .slow → t.seq.phaseEnd = some (max s.now d + 1000000)) ∧
      (s.seq.pattern = .fast → t.seq.phaseEnd = some (max s.now d + 250000)) ∧
      t = (s.reach d).setSeq { s.seq with cadence := t.seq.cadence, phaseEnd := t.seq.phaseEnd } := by
  have he : cadenceExpiry s = (s.reach d).setSeq { s.seq with
      cadence := s.seq.cadence.next, phaseEnd := s.seq.pattern.phaseTime.map (max s.now d + ·) } := by
    unfold cadenceExpiry
    rw [hd]
    rfl
  refine ⟨_, congrArg Host.Outcome.next he, fun h => ?_, fun h => ?_, fun h => ?_, fun h => ?_, rfl⟩
  · exact congrArg Cadence.next h
  · exact congrArg Cadence.next h
  · exact congrArg (fun p => (Pattern.phaseTime p).map (max s.now d + ·)) h
  · exact congrArg (fun p => (Pattern.phaseTime p).map (max s.now d + ·)) h

/-- Settles O25: the two timers by what they do, and the sounder by the walk over every command. -/
theorem noticesAndCadence : Obligations.NoticesAndCadence :=
  ⟨fun _ _ => notice_expires, fun _ _ => phase_ends,
    fun _ _ _ h hc hs ht hp => ⟨exec_sounds h hc hs ht hp, beq_iff_eq⟩⟩

end Sys2Proof.Machine
end

section
/-! SUPPORT. What an abort and a manual release do at a release station, from any state that stands where the event found
the station (R58 to R60, R63). -/

namespace Sys2Proof.Machine

/-- `w` stands where `s` did: what the event has done so far moved nothing of the sequence, and left room for a notice. -/
structure Poised (s w : State) : Prop where
  apart : w.seq.apart = s.seq.apart
  img : w.img = s.img
  room : s.bus.queue.length ≤ 3 → places w.bus.queue ≤ 6

section
variable {s w : State} (p : Poised s w)
include p

theorem Poised.stage : w.seq.stage = s.seq.stage := (congrArg Sequencer.stage p.apart :)
theorem Poised.countdown : w.seq.countdown = s.seq.countdown := (congrArg Sequencer.countdown p.apart :)
theorem Poised.frozen : w.seq.frozen = s.seq.frozen := (congrArg Sequencer.frozen p.apart :)
theorem Poised.abortSet : w.seq.abortSet = s.seq.abortSet := (congrArg Sequencer.abortSet p.apart :)
theorem Poised.stands : Stands s w := ⟨p.stage, p.frozen⟩

theorem Poised.onward {t : State} (h : Onward w t) : t.seq.apart = s.seq.apart := h.apart.trans p.apart

end

/-! ## The abort set -/

/-- The state with one address in the abort set and the stuck timer running (R58, R61). -/
def State.firstJoined (s : State) (a : Nat) : State :=
  s.setSeq { s.seq with abortSet := [a], abortStuck := some (s.now + s.img.tab * 1000000) }

/-- R58, R59: the first address joins. -/
theorem abortJoin_first (a : Nat) {s : State} (h : s.seq.abortSet = []) : abortJoin a s =
    if s.seq.stage = .countdown then enterHeld s.ownRemaining (s.firstJoined a) else s.firstJoined a := by
  unfold abortJoin
  rw [if_neg (by simp [h, Config.abortSize]), if_pos h]
  rfl

/-- The abort set once an address has joined it (R58). -/
def joinedSet (a : Nat) (set : List Nat) : List Nat := if a ∈ set ∨ 4 ≤ set.length then set else set ++ [a]

/-- R58: a further address joins, where it is new and there is room. -/
theorem abortJoin_later (a : Nat) {s : State} (h : s.seq.abortSet ≠ []) :
    abortJoin a s = s.setSeq { s.seq with abortSet := joinedSet a s.seq.abortSet } := by
  unfold abortJoin joinedSet
  simp only [List.contains_iff_mem, Config.abortSize, if_neg h]
  split <;> rfl

theorem enterHeld_seq (r : Nat) (s : State) : (enterHeld r s).seq = { s.seq with
    stage := .held, countdown := none, frozen := r, notice := some (s.now + Config.noticeTime) } := sendNotice_seq _

theorem enterHeld_tells (r : Nat) {s : State} (hp : places s.bus.queue ≤ 6) : Tells (enterHeld r s) :=
  sendNotice_tells (s := s.setSeq _) hp

theorem ownRemaining_countdown {s : State} {d : Nat} (hs : s.seq.stage = .countdown) (hd : s.seq.countdown = some d) :
    s.ownRemaining = d - s.now := by
  unfold State.ownRemaining
  rw [hs, hd]
  rfl

/-- R58: the abort set, whatever the stage. -/
theorem abortJoin_abortSet (a : Nat) (s : State) : (abortJoin a s).seq.abortSet = joinedSet a s.seq.abortSet := by
  by_cases h : s.seq.abortSet = []
  · rw [abortJoin_first a h, h]
    split
    · rw [enterHeld_seq]
      rfl
    · rfl
  · rw [abortJoin_later a h]
    rfl

/-- R58, R61: the stuck timer starts with the first address. -/
theorem abortJoin_abortStuck {a : Nat} {s : State} (h : s.seq.abortSet = []) :
    (abortJoin a s).seq.abortStuck = some (s.now + s.img.tab * 1000000) := by
  rw [abortJoin_first a h]
  split
  · rw [enterHeld_seq]
    rfl
  · rfl

/-- R58, R59, R69: the first address has joined the abort set of `w`, and `t` is what follows. -/
theorem firstAbort_of {a : Nat} {s w t : State} (p : Poised s w) (hset : s.seq.abortSet = []) (hnow : t.now = w.now)
    (h : Onward (abortJoin a w) t) : FirstAbort a s t := by
  have hw : w.seq.abortSet = [] := p.abortSet.trans hset
  have hj := abortJoin_first a hw
  refine ⟨(congrArg Sequencer.abortSet h.apart :).trans ?_, (congrArg Sequencer.abortStuck h.apart :).trans ?_,
    fun d hs hd => ?_, fun hs => ?_⟩
  · exact (abortJoin_abortSet a w).trans (by rw [hw]; rfl)
  · exact (abortJoin_abortStuck hw).trans (by rw [hnow, p.img])
  · rw [if_pos (p.stage.trans hs), ownRemaining_countdown (p.stage.trans hs) (p.countdown.trans hd), ← hnow] at hj
    rw [hj] at h
    have ha := h.apart.trans (congrArg Sequencer.apart (enterHeld_seq _ _))
    exact ⟨(congrArg Sequencer.stage ha :), (congrArg Sequencer.countdown ha :), (congrArg Sequencer.frozen ha :),
      fun hq => (h.tells (enterHeld_tells (s := w.firstJoined a) _ (p.room hq))).noticeWaits⟩
  · rw [if_neg (by rwa [p.stage])] at hj
    rw [hj] at h
    exact ⟨h.stage.trans p.stage, (congrArg Sequencer.countdown h.apart :).trans p.countdown,
      (congrArg Sequencer.frozen h.apart :).trans p.frozen⟩

/-- R58: a further address moves the abort set alone. -/
theorem laterAbort_of {a : Nat} {s w t : State} (p : Poised s w) (hset : s.seq.abortSet ≠ [])
    (h : Onward (abortJoin a w) t) : t.seq.stage = s.seq.stage ∧ t.seq.abortStuck = s.seq.abortStuck ∧
      t.seq.abortSet = joinedSet a s.seq.abortSet := by
  have ha := h.apart
  rw [abortJoin_later a (by rwa [p.abortSet])] at ha
  exact ⟨(congrArg Sequencer.stage ha :).trans p.stage,
    (congrArg Sequencer.abortStuck ha :).trans (congrArg Sequencer.abortStuck p.apart :),
    (congrArg Sequencer.abortSet ha :).trans (congrArg (joinedSet a) p.abortSet)⟩

/-- R59: an address that joins leads to no INHIBITED. -/
theorem abortJoin_noStart (a : Nat) {s : State} (n : s.NoStart) : (abortJoin a s).NoStart := by
  have ho := (abortJoin_only a s).toHanded
  by_cases h : s.seq.abortSet = []
  · by_cases hs : s.seq.stage = .countdown
    · have hj := abortJoin_first a h
      rw [if_pos hs] at hj
      rw [hj]
      exact .inl (by simp [enterHeld_seq])
    · have hj := abortJoin_first a h
      rw [if_neg hs] at hj
      exact n.of_handed ho (by rw [hj]; rfl) (by rw [hj]; rfl)
  · have hj := abortJoin_later a h
    exact n.of_handed ho (by rw [hj]; rfl) (by rw [hj]; rfl)

theorem enterCountdown_not_inhibited (r : Nat) (s : State) : (enterCountdown r s).seq.stage ≠ .inhibited := by
  have h := enterCountdown_loudness r s
  intro hs
  rw [hs] at h
  exact absurd h (by decide)

/-- R60: an address that leaves leads to no INHIBITED. -/
theorem abortLeave_noStart (a : Nat) {s : State} (n : s.NoStart) : (abortLeave a s).NoStart := by
  unfold abortLeave
  dsimp only
  split
  · split
    · split
      · exact .inl (enterCountdown_not_inhibited _ _)
      · exact n
    · exact n
  · exact n

/-! ## Manual release -/

theorem startCountdown_not_inhibited (r : Nat) (s : State) : (startCountdown r s).seq.stage ≠ .inhibited := by
  have h := startCountdown_loudness r s
  intro hs
  rw [hs] at h
  exact absurd h (by decide)

/-- R63: a manual release leaves INHIBITED, and leads to it from no stage. -/
theorem manualRelease_not_inhibited (s : State) : (manualRelease s).seq.stage ≠ .inhibited := by
  unfold manualRelease
  split
  case h_1 => exact startCountdown_not_inhibited _ s
  case h_2 => exact startCountdown_not_inhibited _ s
  case h_3 => exact startCountdown_not_inhibited _ s
  case h_4 h =>
    split
    · exact enterCountdown_not_inhibited _ s
    · simp [h]
  case h_5 h =>
    split
    · simp [enterHeld_seq]
    · simp [h]
  all_goals next h => simp [h]

/-- R63: the stages from which a manual release starts a countdown. -/
theorem manualRelease_starts {s : State}
    (h : s.seq.stage = .normal ∨ s.seq.stage = .firstAlarm ∨ s.seq.stage = .inhibited) :
    manualRelease s = startCountdown (s.img.tman * 1000000) s := by
  unfold manualRelease
  rcases h with h | h | h <;> rw [h] <;> rfl

/-- R63: in COUNTDOWN what remains is shortened; nothing remaining expires. -/
theorem manualRelease_countdown {s : State} {d : Nat} (hs : s.seq.stage = .countdown) (hd : s.seq.countdown = some d) :
    manualRelease s = if s.img.tman * 1000000 < d - s.now ∨ d - s.now = 0 then
      enterCountdown (min (d - s.now) (s.img.tman * 1000000)) s else s := by
  unfold manualRelease
  rw [ownRemaining_countdown hs hd, hs]
  rfl

theorem manualRelease_held {s : State} (hs : s.seq.stage = .held) : manualRelease s =
    if s.img.tman * 1000000 < s.seq.frozen then enterHeld (s.img.tman * 1000000) s else s := by
  unfold manualRelease
  rw [hs]
  rfl

theorem manualRelease_none {s : State} (h : s.seq.stage = .isolated ∨ 6 ≤ s.seq.stage.ordinal) :
    manualRelease s = s := by
  unfold manualRelease
  cases hs : s.seq.stage <;> first | rfl | (exfalso; revert h; rw [hs]; decide)

theorem manualRelease_abortSet (s : State) :
    (manualRelease s).seq.abortSet = s.seq.abortSet ∧ (manualRelease s).seq.list = s.seq.list := by
  have key : Staged s (manualRelease s) := by
    unfold manualRelease
    split
    case h_1 => exact startCountdown_staged _ s
    case h_2 => exact startCountdown_staged _ s
    case h_3 => exact startCountdown_staged _ s
    case h_4 =>
      split
      · exact enterCountdown_staged _ s
      · exact .refl s
    case h_5 =>
      split
      · exact (Staged.setSeq s _).trans (sendNotice_staged _)
      · exact .refl s
    all_goals exact .refl s
  exact ⟨key.abortSet, key.list⟩

theorem startCountdown_zero {s : State} (h : s.seq.abortSet = []) :
    (startCountdown 0 s).seq.stage = .releasing ∧ (startCountdown 0 s).seq.countdown = none := by
  have he : startCountdown 0 s = enterReleasing s := by
    unfold startCountdown enterCountdown
    rw [if_pos h, if_pos rfl]
  obtain ⟨h1, h2, -⟩ := enterReleasing_fields s
  exact ⟨he ▸ h1, he ▸ h2⟩

/-- R63, R69: a manual release has been made in `w`, and `t` is what follows. -/
theorem manuallyReleased_of {s w t : State} (p : Poised s w) (hnow : t.now = w.now) (h : Onward (manualRelease w) t) :
    ManuallyReleased s t := by
  have tells (hw : Tells (manualRelease w)) : NoticeWaits t := (h.tells hw).noticeWaits
  have stage := h.stage
  have countdown : t.seq.countdown = (manualRelease w).seq.countdown := (congrArg Sequencer.countdown h.apart :)
  have frozen : t.seq.frozen = (manualRelease w).seq.frozen := (congrArg Sequencer.frozen h.apart :)
  refine ⟨fun hs => ?_, fun d hs hd => ?_, fun hs => ?_, fun hs => ?_⟩
  · rw [manualRelease_starts (by rwa [p.stage]), p.img] at *
    refine ⟨fun ha hn => ?_, fun ha hz => ?_, fun ha => ?_⟩
    · obtain ⟨h1, h2⟩ := startCountdown_runs (p.abortSet.trans ha) hn
      exact ⟨stage.trans h1, countdown.trans (by rw [h2, hnow]), fun hq => tells (startCountdown_tells hn (p.room hq))⟩
    · rw [hz] at stage countdown
      obtain ⟨h1, h2⟩ := startCountdown_zero (p.abortSet.trans ha)
      exact ⟨stage.trans h1, countdown.trans h2⟩
    · obtain ⟨h1, h2⟩ := startCountdown_holds (r := s.img.tman * 1000000) (by rwa [p.abortSet] : w.seq.abortSet ≠ [])
      refine ⟨stage.trans h1, frozen.trans h2, fun hq => tells ?_⟩
      unfold startCountdown
      rw [if_neg (by rwa [p.abortSet])]
      exact enterHeld_tells _ (p.room hq)
  · have hm := manualRelease_countdown (p.stage.trans hs) (p.countdown.trans hd)
    rw [p.img, ← hnow] at hm
    rw [hm] at stage countdown tells
    refine ⟨fun hn => ?_, fun hz => ?_⟩
    · split at stage
      · next hc =>
        rw [if_pos hc] at countdown tells
        obtain ⟨h1, h2, -, h4⟩ := enterCountdown_runs (s := w) hn
        exact ⟨stage.trans h1, countdown.trans (by rw [h2, hnow]), fun _ hq => tells (h4 (p.room hq))⟩
      · next hc =>
        rw [if_neg hc] at countdown
        refine ⟨stage.trans (p.stage.trans hs), countdown.trans ((p.countdown.trans hd).trans ?_), fun hlt => ?_⟩
        · congr 1
          omega
        · exact absurd (.inl hlt) hc
    · rw [hz, if_pos (by omega)] at stage
      exact stage.trans (enterCountdown_expires w)
  · have hm := manualRelease_held (p.stage.trans hs)
    rw [p.img, p.frozen] at hm
    rw [hm] at stage frozen tells
    split at stage
    · next hc =>
      rw [if_pos hc] at frozen tells
      rw [enterHeld_seq] at stage frozen
      exact ⟨stage, frozen.trans (min_eq_right hc.le).symm, fun _ hq => tells (enterHeld_tells _ (p.room hq))⟩
    · next hc =>
      rw [if_neg hc] at frozen
      exact ⟨stage.trans (p.stage.trans hs), frozen.trans (p.frozen.trans (by omega)), fun hlt => absurd hlt hc⟩
  · rw [manualRelease_none (by rwa [p.stage])] at h
    exact p.onward h

end Sys2Proof.Machine
end

section
/-! SUPPORT. The own ABORT input and MANREL, once their changes are taken (R53, R58 to R60, R62 to R64, R73). -/

namespace Sys2Proof.Machine

variable {s : State} {f : Nat}

/-! ## Calls of the release station -/

/-- R173: a call handed to a queue with room waits there, in its turn, and what follows leaves it. -/
theorem call_waits {u : State} {area call : Byte} (hq : u.bus.queue.length ≤ 3) :
    { frame := .releaseCall area call, order := u.bus.nextOrder : QueueEntry } ∈
      (settle (enqueue (.releaseCall area call) u)).bus.queue := by
  have hlen : u.bus.queue.length < 6 := by omega
  have hp : places u.bus.queue + 1 ≤ 6 := by
    have := places_le_length_add u.bus.queue
    omega
  have hroom := (enqueue_enters (.releaseCall area call) u rfl hp).1
  refine settle_stays _ (hroom.trans hp) _ ?_ (by decide : 1 ≠ 0) (by decide : 1 ≠ 6)
  rw [enqueue_placed _ u rfl hlen]
  exact (placeEntry_perm _ _).mem_iff.mpr List.mem_cons_self

/-! ## The ABORT input -/

theorem exec_abortInputChange {made : Bool} (hr : s.running = true) (hf : s.pins.filter .abort = some f)
    (hl : s.pins.abort = !made) : exec (.abortInputChange .held made) s =
      .next (settle (abortInput made (s.changed f .abort made))) := by
  have taken : abortChange made (s.changed f .abort made) = settle (abortInput made (s.changed f .abort made)) :=
    if_pos hr
  exact (congrArg Host.Outcome.next (inputEvent_held .abort made abortChange s f hf hl)).trans (congrArg _ taken)

theorem abortInput_release {made : Bool} {u : State} (h : u.role = .release) :
    abortInput made u = if made then abortJoin u.address u else abortLeave u.address u := by
  unfold abortInput
  rw [h]

theorem abortInput_member {made : Bool} {u : State} (h : u.role = .member) : abortInput made u = abortCall made u := by
  unfold abortInput
  rw [h]

/-- R73: elsewhere than at a release station the input calls the release station or does nothing. -/
theorem abortInput_only {made : Bool} {u : State} (h : u.role ≠ .release) : BusOnly u (abortInput made u) := by
  unfold abortInput
  split
  · next hr => exact absurd hr h
  · exact enqueue_only _ u
  · exact .refl u

/-- The change of an input moves nothing of the sequence. -/
theorem changed_poised (s : State) (f : Nat) (i : Input) (level : Bool) : Poised s (s.changed f i level) :=
  ⟨rfl, rfl, fun h => places_le _ (by exact h.trans (by decide))⟩

/-- R58: ABORT_HELD at a release station. -/
theorem levelCondition_abortHeld {u : State} (h : u.role = .release) :
    u.levelCondition .abortHeld = !u.seq.abortSet.isEmpty := by
  simp only [State.levelCondition, h]

/-- R73: ABORT_HELD at a member. -/
theorem levelCondition_abortHeld_member {u : State} (h : u.role = .member) :
    u.levelCondition .abortHeld = u.pins.abort := by
  simp only [State.levelCondition, h]

/-- R154: ABORT_HELD after an event takes its condition as it then is. -/
theorem settle_abortHeld {u : State} (hr : u.running = true) :
    (settle u).source .abortHeld =
      (u.source .abortHeld).follow ((settle u).levelCondition .abortHeld) u.presentTime :=
  (settle_after u).levels hr .abortHeld rfl (by decide)

/-- R29, R58: ABORT_HELD after an event at a release station. -/
theorem settle_abortHeld_release {u : State} (hr : u.running = true) (h : u.role = .release) :
    ((settle u).source .abortHeld).condition = !(settle u).seq.abortSet.isEmpty := by
  rw [settle_abortHeld hr, SourceState.follow_condition, levelCondition_abortHeld ((settle_handed u).role.trans h)]

/-- R73: ABORT_HELD after an event at a member. -/
theorem settle_abortHeld_member {u : State} (hr : u.running = true) (h : u.role = .member) :
    ((settle u).source .abortHeld).condition = u.pins.abort := by
  rw [settle_abortHeld hr, SourceState.follow_condition,
    levelCondition_abortHeld_member ((settle_handed u).role.trans h), (settle_handed u).pins]

/-- R58, R59, R62: the input is made at a release station. -/
theorem abort_made (hr : s.running = true) (h : s.role = .release) (hf : s.pins.filter .abort = some f)
    (hl : s.pins.abort = false) (n : s.NoStart) :
    ∃ t, exec (.abortInputChange .held true) s = .next t ∧ Handed (s.changed f .abort true) t ∧
      Onward (abortJoin s.address (s.changed f .abort true)) t ∧
      (t.source .abortHeld).condition = !t.seq.abortSet.isEmpty := by
  have ho := abortJoin_only s.address (s.changed f .abort true)
  have hi : abortInput true (s.changed f .abort true) = abortJoin s.address (s.changed f .abort true) :=
    abortInput_release h
  refine ⟨_, (exec_abortInputChange (made := true) hr hf hl).trans (by rw [hi]), ho.toHanded.trans (settle_handed _),
    settle_onward_of_noStart (abortJoin_noStart _ n), settle_abortHeld_release ?_ ?_⟩
  · exact (running_congr ho.startup).trans hr
  · exact ho.role.trans h

/-- R58, R60, R62: the input is broken at a release station. -/
theorem abort_broken (hr : s.running = true) (h : s.role = .release) (hf : s.pins.filter .abort = some f)
    (hl : s.pins.abort = true) (n : s.NoStart) :
    ∃ t, exec (.abortInputChange .held false) s = .next t ∧ Handed (s.changed f .abort false) t ∧
      Onward (abortLeave s.address (s.changed f .abort false)) t ∧
      (t.source .abortHeld).condition = !t.seq.abortSet.isEmpty := by
  have ho := abortLeave_only s.address (s.changed f .abort false)
  have hi : abortInput false (s.changed f .abort false) = abortLeave s.address (s.changed f .abort false) :=
    abortInput_release h
  refine ⟨_, (exec_abortInputChange (made := false) hr hf hl).trans (by rw [hi]), ho.toHanded.trans (settle_handed _),
    settle_onward_of_noStart (abortLeave_noStart _ n), settle_abortHeld_release ?_ ?_⟩
  · exact (running_congr ho.startup).trans hr
  · exact ho.role.trans h

/-- R73: the input at a station that is no release station. -/
theorem abort_calls {made : Bool} (hr : s.running = true) (h : s.role ≠ .release) (hf : s.pins.filter .abort = some f)
    (hl : s.pins.abort = !made) :
    ∃ t, exec (.abortInputChange .held made) s = .next t ∧ t.seq.apart = s.seq.apart ∧
      Handed (s.changed f .abort made) t ∧ (s.role = .member → (t.source .abortHeld).condition = made) ∧
      (s.role = .member → s.bus.queue.length ≤ 3 →
        { frame := .releaseCall (byteOf s.area) (if made then 1 else 2), order := s.bus.nextOrder : QueueEntry } ∈
          t.bus.queue) := by
  have hb := abortInput_only (made := made) (u := s.changed f .abort made) h
  refine ⟨_, exec_abortInputChange hr hf hl, ?_, hb.toHanded.trans (settle_handed _), fun hm => ?_, fun hm hq => ?_⟩
  · exact ((settle_after _).seq (.inr (.inl (by rw [hb.role]; exact h)))).trans (by rw [hb.seq_eq]; rfl)
  · rw [settle_abortHeld_member ((running_congr hb.startup).trans hr) (hb.role.trans hm), hb.pins]
    rfl
  · rw [abortInput_member (u := s.changed f .abort made) hm]
    exact call_waits (u := s.changed f .abort made) hq

/-- Settles O20, by the role and by whether the input is made: a release station's own set moves, and another's calls. -/
theorem abortInput_settled : Obligations.AbortInput := by
  refine ⟨fun s f made hr h hf hl n => ?_, fun s f made => abort_calls⟩
  have p := changed_poised s f .abort made
  cases made with
  | true =>
    obtain ⟨t, ht, hh, on, hc⟩ := abort_made hr h hf hl n
    exact ⟨t, ht, hh, fun _ hs => firstAbort_of p hs hh.now on, fun _ hs => laterAbort_of p hs on,
      fun hm => absurd hm (by decide), fun hm => absurd hm (by decide), hc⟩
  | false =>
    obtain ⟨t, ht, hh, on, hc⟩ := abort_broken hr h hf hl n
    exact ⟨t, ht, hh, fun hm => absurd hm (by decide), fun hm => absurd hm (by decide),
      fun _ hs => lastAbort_of (p.abortSet.trans hs) p.img p.stands hh.now p.room on,
      fun _ => (congrArg Sequencer.abortSet on.apart :).trans (abortLeave_fields _ _).2.2, hc⟩

/-! ## MANREL -/

theorem exec_manrelMade {made : Bool} (hf : s.pins.filter .manrel = some f) (hl : s.pins.manrel = !made) :
    exec (.manrelMade .held made) s = .next (manrelChange made (s.changed f .manrel made)) :=
  congrArg Host.Outcome.next (inputEvent_held .manrel made manrelChange s f hf hl)

theorem manualPress_release {u : State} (h : u.role = .release) :
    manualPress u = manualRelease (trigger .manualRelease u) := by
  unfold manualPress
  rw [h]

theorem manualPress_member {u : State} (h : u.role = .member) :
    manualPress u = enqueue (.releaseCall (byteOf u.area) 0) (trigger .manualRelease u) := by
  unfold manualPress
  rw [h]

/-- R64: what the press does beside raising MANUAL_RELEASE. -/
theorem manualPress_only (u : State) : SeqOnly (trigger .manualRelease u) (manualPress u) := by
  unfold manualPress
  split
  · exact manualRelease_only _
  · exact (enqueue_only _ _).toSeqOnly
  · exact .refl _

/-- R64: elsewhere than at a release station the press leaves the sequence alone. -/
theorem manualPress_seq {u : State} (h : u.role ≠ .release) : (manualPress u).seq = u.seq := by
  have raised := (trigger_only .manualRelease u (by decide)).seq_eq
  unfold manualPress
  split
  · next hr => exact absurd hr h
  · exact (enqueue_only _ _).seq_eq.trans raised
  · exact raised

/-- R63, R64: MANREL is made. -/
theorem manrel_made (hr : s.running = true) (hf : s.pins.filter .manrel = some f) (hl : s.pins.manrel = false) :
    ∃ t, exec (.manrelMade .held true) s = .next t ∧ Handed (s.changed f .manrel true) t ∧
      (t.source .manualRelease).pending = true ∧ (s.role = .release → ManuallyReleased s t) ∧
      (s.role ≠ .release → t.seq.apart = s.seq.apart) ∧
      (s.role = .member → s.bus.queue.length ≤ 3 →
        { frame := .releaseCall (byteOf s.area) 0, order := s.bus.nextOrder : QueueEntry } ∈ t.bus.queue) := by
  have hw := trigger_only .manualRelease (s.changed f .manrel true) (by decide)
  have hb := trigger_bus .manualRelease (s.changed f .manrel true) (by decide) (by decide)
  have hp := manualPress_only (s.changed f .manrel true)
  have hh : Handed (s.changed f .manrel true) (settle (manualPress (s.changed f .manrel true))) :=
    (hw.toHanded.trans hp.toHanded).trans (settle_handed _)
  have pressed : manrelChange true (s.changed f .manrel true) = settle (manualPress (s.changed f .manrel true)) :=
    if_pos ⟨rfl, hr⟩
  refine ⟨_, (exec_manrelMade (made := true) hf hl).trans (congrArg _ pressed), hh, ?_, fun h => ?_, fun h => ?_,
    fun h hq => ?_⟩
  · exact settle_raised (by decide) (hp.raisedStay _ (by decide) (trigger_pending _ _ (by decide)))
  · have p : Poised s (trigger .manualRelease (s.changed f .manrel true)) :=
      ⟨by rw [hw.seq_eq]; rfl, hw.img, fun hq => by rw [hb]; exact (changed_poised s f .manrel true).room hq⟩
    rw [manualPress_release (u := s.changed f .manrel true) h]
    exact manuallyReleased_of p ((settle_handed _).now.trans (manualRelease_only _).now)
      (settle_onward (manualRelease_not_inhibited _))
  · refine ((settle_after _).seq (.inr (.inl ?_))).trans (by rw [manualPress_seq (u := s.changed f .manrel true) h]; rfl)
    rw [hp.role, hw.role]
    exact h
  · rw [manualPress_member (u := s.changed f .manrel true) h]
    have e := call_waits (u := trigger .manualRelease (s.changed f .manrel true)) (area := byteOf s.area) (call := 0)
      (by rw [hb]; exact hq)
    rwa [hb] at e

/-- Settles O22: the press by role, and a breaking that nothing looks at. -/
theorem manualReleaseActsByStage : Obligations.ManualReleaseActsByStage :=
  ⟨fun _ _ => manrel_made, fun _ _ hf hl =>
    (exec_manrelMade (made := false) hf hl).trans (congrArg _ (if_neg (fun h => absurd h.1 (by decide))))⟩

end Sys2Proof.Machine
end

section
/-! SUPPORT. A RELEASE_CALL from the bus (R56, R58 to R60, R63). -/

namespace Sys2Proof.Machine

/-! ## What a call does, whatever the stage -/

theorem abortJoin_list (a : Nat) (s : State) : (abortJoin a s).seq.list = s.seq.list := by
  by_cases h : s.seq.abortSet = []
  · rw [abortJoin_first a h]
    split
    · rw [enterHeld_seq]
      rfl
    · rfl
  · rw [abortJoin_later a h]
    rfl

theorem actOnCall_list (a : Nat) (call : Byte) (s : State) : (actOnCall a call s).seq.list = s.seq.list := by
  unfold actOnCall
  split
  · exact (manualRelease_abortSet s).2
  · exact abortJoin_list a s
  · exact (abortLeave_fields a s).1
  · rfl

theorem actOnCall_other (a : Nat) {call : Byte} (h : 3 ≤ call.toNat) (s : State) : actOnCall a call s = s := by
  unfold actOnCall
  split
  case h_4 => rfl
  all_goals omega

/-! ## The hearing of the sender -/

/-- R63: the call is one of the own area, at its release station. -/
abbrev State.Takes (s : State) (area : Byte) : Prop := s.role = .release ∧ area.toNat = s.area

theorem callOwner_takes {a : Nat} {area call : Byte} {u : State} (h : u.Takes area) :
    callOwner a (.releaseCall area call) u = actOnCall a call (settle u) := if_pos h

theorem callOwner_ignores {a : Nat} {area call : Byte} {u : State} (h : ¬u.Takes area) :
    callOwner a (.releaseCall area call) u = u := if_neg h

/-- R28, R56: what the hearing changes ends no INHIBITED, whatever the Sequencer was handed before. -/
abbrev State.Holds (u : State) : Prop := u.seq.stage ≠ .inhibited ∨ u.role ≠ .release ∨ u.areaOccupied = true

theorem State.Holds.noStart {u : State} (h : u.Holds) : u.NoStart := h.imp_right fun k => k.imp_right .inl

theorem evalOccupancy_apart {u : State} (h : u.Holds) : (evalOccupancy u).seq.apart = u.seq.apart := by
  rw [evalOccupancy_of_noStart u h.noStart]
  rfl

section
variable {s : State} {c : FrameCall} {a : Nat} {f : Frame}

theorem reached_apart (h : (s.heard c a f).Holds) : (s.reached c a f).seq.apart = s.seq.apart :=
  (evalOccupancy_apart h).trans (by rw [(heard_seq s c a f).1])

theorem reached_holds (h : (s.heard c a f).Holds) : (s.reached c a f).Holds := by
  have hs : (s.reached c a f).seq.stage = (s.heard c a f).seq.stage :=
    (congrArg Sequencer.stage (evalOccupancy_apart h) :)
  rwa [State.Holds, hs, (reached_handed s c a f).role, (reached_handed s c a f).areaOccupied]

/-- R63: the station once the hearing of a call's sender has been settled; the call acts on it. -/
def State.hearing (s : State) (c : FrameCall) (a : Nat) (f : Frame) : State := settle (s.reached c a f)

theorem hearing_handed : Handed (s.reached c a f) (s.hearing c a f) := settle_handed _

/-- R24, R28: once the hearing has been settled, the sequence stands where it did. -/
theorem hearing_poised (h : (s.heard c a f).Holds) : Poised s (s.hearing c a f) where
  apart := (settle_onward_of_noStart (reached_holds h).noStart).apart.trans (reached_apart h)
  img := hearing_handed.img.trans (reached_img s c a f)
  room hq := (settle_sent _ (reached_places s c a f hq)).1

theorem hearing_noStart (h : (s.heard c a f).Holds) : (s.hearing c a f).NoStart := by
  have hs : (s.hearing c a f).seq.stage = (s.reached c a f).seq.stage :=
    (settle_onward_of_noStart (reached_holds h).noStart).stage
  refine State.Holds.noStart ?_
  rw [State.Holds, hs, hearing_handed.role, hearing_handed.areaOccupied]
  exact reached_holds h

theorem hearing_abortSet : (s.hearing c a f).seq.abortSet = s.seq.abortSet :=
  (settle_staged _).abortSet.trans (reached_abortSet s c a f)

theorem hearing_list : (s.hearing c a f).seq.list = s.seq.list := (settle_list _).1.trans (reached_list s c a f).1

/-! ## The call -/

/-- R63: the call and all that follows are hand-offs. -/
theorem call_handed (c : FrameCall) (a : Nat) (f : Frame) (call : Byte) :
    Handed (s.reached c a f) (settle (actOnCall a call (s.hearing c a f))) :=
  (hearing_handed.trans (actOnCall_only a call _).toHanded).trans (settle_handed _)

/-- R58, R59: ABORT_ON. -/
theorem hearing_joins {t : State} (e : t = settle (abortJoin a (s.hearing c a f))) :
    t.seq.abortSet = joinedSet a s.seq.abortSet ∧
      ((s.heard c a f).Holds → s.seq.abortSet = [] → FirstAbort a s t) ∧
      ((s.heard c a f).Holds → s.seq.abortSet ≠ [] → t.seq.stage = s.seq.stage) := by
  have on (k : (s.heard c a f).Holds) : Onward (abortJoin a (s.hearing c a f)) t :=
    e ▸ settle_onward_of_noStart (abortJoin_noStart a (hearing_noStart k))
  have hnow : t.now = (s.hearing c a f).now := by rw [e, (settle_handed _).now, (abortJoin_only _ _).now]
  refine ⟨?_, fun k hs => firstAbort_of (hearing_poised k) hs hnow (on k),
    fun k hs => (laterAbort_of (hearing_poised k) hs (on k)).1⟩
  rw [e, (settle_staged _).abortSet, abortJoin_abortSet, hearing_abortSet]

/-- R58, R60: ABORT_OFF. -/
theorem hearing_leaves {t : State} (e : t = settle (abortLeave a (s.hearing c a f))) :
    t.seq.abortSet = s.seq.abortSet.filter (· != a) ∧
      ((s.heard c a f).Holds → s.seq.abortSet = [a] → LastAbort s t) := by
  have hnow : t.now = (s.hearing c a f).now := by rw [e, (settle_handed _).now, (abortLeave_only _ _).now]
  refine ⟨?_, fun k hs => ?_⟩
  · rw [e, (settle_staged _).abortSet, (abortLeave_fields _ _).2.2, hearing_abortSet]
  · have p := hearing_poised k
    exact lastAbort_of (p.abortSet.trans hs) p.img p.stands hnow p.room
      (e ▸ settle_onward_of_noStart (abortLeave_noStart a (hearing_noStart k)))

/-- R63: MANUAL. -/
theorem hearing_releases {t : State} (e : t = settle (manualRelease (s.hearing c a f))) :
    t.seq.abortSet = s.seq.abortSet ∧ ((s.heard c a f).Holds → ManuallyReleased s t) := by
  have hnow : t.now = (s.hearing c a f).now := by rw [e, (settle_handed _).now, (manualRelease_only _).now]
  refine ⟨?_, fun k => manuallyReleased_of (hearing_poised k) hnow
    (e ▸ settle_onward (manualRelease_not_inhibited _))⟩
  rw [e, (settle_staged _).abortSet, (manualRelease_abortSet _).1, hearing_abortSet]

/-- R63: any other value. -/
theorem hearing_ignores {t : State} (e : t = settle (s.hearing c a f)) (k : (s.heard c a f).Holds) :
    t.seq.apart = s.seq.apart :=
  e ▸ (hearing_poised k).onward (settle_onward_of_noStart (hearing_noStart k))

/-- What hand-offs from a frame's hearing leave beside of the sequence. -/
theorem reached_aside {t : State} (h : Handed (s.reached c a f) t) :
    t.roster = s.roster ∧ t.port = s.port ∧ t.pins = s.pins := by
  obtain ⟨hroster, hport, -⟩ := reached_rest s c a f h
  exact ⟨hroster, hport, ((reached_handed s c a f).trans h).pins.trans (heard_rest s c a f).2.2.1⟩

/-- R56: the area is as occupied after the event as the hearing made it. -/
theorem heard_holds {t : State} (h : Handed (s.reached c a f) t)
    (k : s.seq.stage ≠ .inhibited ∨ s.role ≠ .release ∨ t.areaOccupied = true) : (s.heard c a f).Holds := by
  rwa [h.areaOccupied, (reached_handed s c a f).areaOccupied, ← heard_role s c a f, ← (heard_seq s c a f).1] at k

end

section
variable {s : State} {dt a : Nat} {bits : List Bool} {area call : Byte}

/-- R63: a call that is taken acts on the settled hearing, and is settled itself. -/
theorem exec_call_takes (h : Reaches { kind := 1, dt := dt, bits := bits } s a (.releaseCall area call))
    (own : s.Takes area) : exec (.releaseCallFrame dt bits) s = .next (settle (actOnCall a call
      (s.hearing { kind := 1, dt := dt, bits := bits } a (.releaseCall area call)))) := by
  obtain ⟨hr, ha⟩ := own
  rw [State.hearing, ← callOwner_takes ⟨(reached_role ..).trans hr, ha.trans (reached_area ..).symm⟩]
  exact congrArg Host.Outcome.next (receiveFrame_reaches h callOwner)

theorem exec_call_ignores (h : Reaches { kind := 1, dt := dt, bits := bits } s a (.releaseCall area call))
    (own : ¬s.Takes area) : exec (.releaseCallFrame dt bits) s =
      .next (s.hearing { kind := 1, dt := dt, bits := bits } a (.releaseCall area call)) := by
  have hn : ¬(s.reached { kind := 1, dt := dt, bits := bits } a (.releaseCall area call)).Takes area := by
    rwa [State.Takes, reached_role, reached_area]
  rw [State.hearing, ← callOwner_ignores hn]
  exact congrArg Host.Outcome.next (receiveFrame_reaches h callOwner)

end

/-- Settles O21: the hearing is settled first, and where that ends no INHIBITED the call finds the sequence as it was. -/
theorem callsActOnTheSequence : Obligations.CallsActOnTheSequence := by
  intro s dt a bits area call h
  by_cases own : s.Takes area
  · have hh := call_handed (s := s) { kind := 1, dt := dt, bits := bits } a (.releaseCall area call) call
    refine ⟨_, exec_call_takes h own, fun _ h1 => ?_, fun _ h2 => ?_, fun _ h0 => ?_, fun k still => ?_, ?_,
      reached_aside hh⟩
    · obtain ⟨k1, k2, k3⟩ := hearing_joins (congrArg (fun x => settle (actOnCall a x _)) h1)
      exact ⟨k1, fun still => k2 (heard_holds hh (still.imp_right .inr)),
        fun still => k3 (heard_holds hh (still.imp_right .inr))⟩
    · obtain ⟨k1, k2⟩ := hearing_leaves (congrArg (fun x => settle (actOnCall a x _)) h2)
      exact ⟨k1, fun still => k2 (heard_holds hh (still.imp_right .inr))⟩
    · obtain ⟨k1, k2⟩ := hearing_releases (congrArg (fun x => settle (actOnCall a x _)) h0)
      exact ⟨k1, fun still => k2 (heard_holds hh (still.imp_right .inr))⟩
    · have h3 : 3 ≤ call.toNat := k.resolve_left (fun hn => hn own)
      exact hearing_ignores (congrArg settle (actOnCall_other a h3 _)) (heard_holds hh (still.imp_right .inr))
    · rw [(settle_list _).1, actOnCall_list, hearing_list]
  · exact ⟨_, exec_call_ignores h own, fun k => absurd k own, fun k => absurd k own, fun k => absurd k own,
      fun _ still => (hearing_poised (heard_holds hearing_handed (still.imp_right .inr))).apart, hearing_list,
      reached_aside hearing_handed⟩

end Sys2Proof.Machine
end

section
/-! SUPPORT. A RELEASE_NOTICE from the bus and the mirror of a member (R72, R76). -/

namespace Sys2Proof.Machine

/-- The mirror that a notice gives (R72). -/
def noticedMirror (st : Stage) (remaining now : Nat) (flow : Bool) : Mirror :=
  { stage := st, remaining := remaining * 1000000, setAt := now, flow := flow, lastNotice := some now }

/-- R37, R72: the release station of a member is the first of its area. -/
theorem releaseStation_eq_some {s : State} {a : Nat} :
    s.releaseStation = some a ↔ s.role = .member ∧ s.img.members.head? = some a := by
  rw [← beq_iff_eq, releaseStation_iff, decide_eq_true_iff]

/-- R77: ordinals above 8 are no stage's. -/
theorem ordinal_le_of_stage {n : Nat} {st : Stage} (h : Stage.ofNat? n = some st) : n ≤ 8 := by
  unfold Stage.ofNat? at h
  split at h
  case h_10 => cases h
  all_goals decide

/-- R72: the notice is one of the area's release station, about the own area, with a stage. -/
abbrev State.Mirrors (s : State) (a : Nat) (area ordinal : BitVec 4) (st : Stage) : Prop :=
  (s.releaseStation = some a ∧ area.toNat = s.area) ∧ Stage.ofNat? ordinal.toNat = some st

section
variable {s u : State} {dt a : Nat} {bits : List Bool} {area ordinal : BitVec 4} {remaining : Byte} {flow : Bool}

theorem noticeOwner_mirrors {st : Stage} (h : u.Mirrors a area ordinal st) :
    noticeOwner a (.releaseNotice area ordinal remaining flow) u =
      setMirror (noticedMirror st remaining.toNat u.now flow) u := by
  obtain ⟨ha, hs⟩ := h
  unfold noticeOwner
  dsimp only
  rw [if_pos ha, hs]
  rfl

theorem noticeOwner_ignores (h : ∀ st, ¬u.Mirrors a area ordinal st) :
    noticeOwner a (.releaseNotice area ordinal remaining flow) u = u := by
  unfold noticeOwner
  dsimp only
  split
  · next ha =>
    split
    · next st hs => exact absurd ⟨ha, hs⟩ (h st)
    · rfl
  · rfl

/-- R72: a notice writes the mirror, and of the Sequencer nothing else. -/
theorem noticeOwner_seq (a : Nat) (f : Frame) (u : State) :
    (noticeOwner a f u).seq = { u.seq with mirror := (noticeOwner a f u).seq.mirror } := by
  unfold noticeOwner
  split
  case h_1 =>
    split
    · split
      · rw [(setMirror_sets _ u).1]
      · rfl
    · rfl
  all_goals rfl

theorem noticeOwner_only (a : Nat) (f : Frame) (u : State) : SeqOnly u (noticeOwner a f u) := by
  unfold noticeOwner
  split
  case h_1 =>
    split
    · split
      · exact setMirror_only _ u
      · exact .refl u
    · exact .refl u
  all_goals exact .refl u

theorem exec_notice {f : Frame} (h : Reaches { kind := 0, dt := dt, bits := bits } s a f) :
    exec (.releaseNoticeFrame dt bits) s =
      .next (settle (noticeOwner a f (s.reached { kind := 0, dt := dt, bits := bits } a f))) :=
  congrArg Host.Outcome.next (receiveFrame_reaches h noticeOwner)

theorem reached_releaseStation (s : State) (c : FrameCall) (a : Nat) (f : Frame) :
    (s.reached c a f).releaseStation = s.releaseStation := by
  unfold State.releaseStation
  rw [reached_role, reached_img]

/-- R72: the hearing leaves what a notice is judged by as it was. -/
theorem reached_mirrors {c : FrameCall} {f : Frame} {st : Stage} :
    (s.reached c a f).Mirrors a area ordinal st ↔ s.Mirrors a area ordinal st := by
  rw [State.Mirrors, reached_releaseStation, reached_area]

theorem reached_mirror (s : State) (c : FrameCall) (a : Nat) (f : Frame) :
    (s.reached c a f).seq.mirror = s.seq.mirror :=
  (evalOccupancy_staged _).mirror.trans (by rw [(heard_seq s c a f).1])

end

/-- Settles O27: the owner of the notice writes the mirror, and no hand-off does. -/
theorem noticeMovesTheMirror : Obligations.NoticeMovesTheMirror := by
  intro s dt a bits area ordinal remaining flow h
  obtain ⟨c, hc⟩ : ∃ c : FrameCall, c = { kind := 0, dt := dt, bits := bits } := ⟨_, rfl⟩
  obtain ⟨f, hf⟩ : ∃ f : Frame, f = .releaseNotice area ordinal remaining flow := ⟨_, rfl⟩
  obtain ⟨u, hu⟩ : ∃ u, u = s.reached c a f := ⟨_, rfl⟩
  have he := exec_notice h
  rw [← hc, ← hf, ← hu] at he
  have ho := noticeOwner_only a f u
  have hq := noticeOwner_seq a f u
  have hh : Handed u (settle (noticeOwner a f u)) := ho.toHanded.trans (settle_handed _)
  have hmirror : (settle (noticeOwner a f u)).seq.mirror = (noticeOwner a f u).seq.mirror := (settle_staged _).mirror
  have hnow : u.now = s.now + dt := by rw [hu, reached_now, hc]
  refine ⟨_, he, fun st hr hm ha hs => ?_, fun hn => ?_, fun k => ?_, ?_, ?_⟩
  · have takes : u.Mirrors a area ordinal st := by
      rw [hu, reached_mirrors]
      exact ⟨⟨releaseStation_eq_some.mpr ⟨hr, hm⟩, ha⟩, hs⟩
    rw [hmirror]
    rw [hf, noticeOwner_mirrors takes]
    obtain ⟨h1, h2⟩ := setMirror_sets (noticedMirror st remaining.toNat u.now flow) u
    refine ⟨?_, fun hlow hhigh => settle_raised (by decide) (h2 ?_ hhigh)⟩
    · rw [h1, hnow]
      rfl
    · rwa [hu, reached_mirror]
  · have ignored (st : Stage) : ¬u.Mirrors a area ordinal st := by
      rw [hu, reached_mirrors]
      rintro ⟨⟨hrel, ha⟩, hs⟩
      obtain ⟨hr, hm⟩ := releaseStation_eq_some.mp hrel
      rcases hn with hn | hn | hn | hn
      · exact hn hr
      · exact hn hm
      · exact hn ha
      · exact absurd (ordinal_le_of_stage hs) (by omega)
    rw [hmirror, hf, noticeOwner_ignores ignored, hu, reached_mirror]
  · have heard : (s.heard c a f).Holds := heard_holds (by rwa [← hu]) k
    have holds : u.Holds := hu ▸ reached_holds heard
    have n : (noticeOwner a f u).NoStart := holds.noStart.of_handed ho.toHanded (by rw [hq]) (by rw [hq])
    rw [(settle_onward_of_noStart n).stage, hq, hu]
    exact (congrArg Sequencer.stage (reached_apart heard) :)
  · rw [(settle_list _).1, hq, hu]
    exact (reached_list s c a f).1
  · rw [hu] at hh
    obtain ⟨hroster, hport, -⟩ := reached_rest s c a f hh
    rw [hu]
    exact ⟨hroster, hport⟩

end Sys2Proof.Machine
end

section
/-! SUPPORT. SUPPRESSION_RESET and SUPPRESSION_ISOLATE (R58, R62, R69 to R71, R154). -/

namespace Sys2Proof.Machine

/-! ## The panel commands -/

/-- R187, R188: SUPPRESSION_RESET at an idle port. -/
theorem exec_suppressionReset {s : State} (h : s.AtPanel) {dt before : Nat} {a : Answer} {u : State}
    (ho : suppressionReset () (s.taken dt 14 ⟨[0], before⟩) = (a, u))
    (hu : u.port = (s.taken dt 14 ⟨[0], before⟩).port) :
    exec (.suppressionReset dt ⟨[0], before⟩) s =
      .next (u.setPort (s.answered [0] 14 a.result.code a.flags a.data)) := by
  have k := panelCommand_idle (code := 14) (len := 0) (dt := dt) (before := before) (bytes := [])
    (parse := noOperands) (act := suppressionReset) (x := ()) h rfl (by decide) rfl
    ((congrArg (fun y => y.2.port) ho).trans hu)
  refine congrArg Host.Outcome.next (k.trans ?_)
  have ho' : suppressionReset () (s.taken dt 14 ⟨byteOf 0 :: [], before⟩) = (a, u) := ho
  rw [ho']
  rfl

theorem onOffOperand_byte (s : State) (on : Bool) : onOffOperand s [byteOf on.toNat] = some on := by
  cases on <;> rfl

/-- R187, R188: SUPPRESSION_ISOLATE at an idle port. -/
theorem exec_suppressionIsolate {s : State} (h : s.AtPanel) {dt before : Nat} {on : Bool} {a : Answer} {u : State}
    (ho : suppressionIsolate on (s.taken dt 15 ⟨[1, byteOf on.toNat], before⟩) = (a, u))
    (hu : u.port = (s.taken dt 15 ⟨[1, byteOf on.toNat], before⟩).port) :
    exec (.suppressionIsolate dt ⟨[1, byteOf on.toNat], before⟩) s =
      .next (u.setPort (s.answered [1, byteOf on.toNat] 15 a.result.code a.flags a.data)) := by
  have k := panelCommand_idle (code := 15) (len := 1) (dt := dt) (before := before) (bytes := [byteOf on.toNat])
    (parse := onOffOperand) (act := suppressionIsolate) (x := on) h rfl (by decide) (onOffOperand_byte _ on)
    ((congrArg (fun y => y.2.port) ho).trans hu)
  refine congrArg Host.Outcome.next (k.trans ?_)
  have ho' : suppressionIsolate on (s.taken dt 15 ⟨byteOf 1 :: [byteOf on.toNat], before⟩) = (a, u) := ho
  rw [ho']
  rfl

/-! ## SUPPRESSION_RESET -/

theorem mem_allLines (l : Fin 4) : l ∈ allLines := by fin_cases l <;> decide

/-- R70: an own line, or an announced line of a LIVE member, is in ALARM. -/
theorem detectionActive_iff (s : State) : s.detectionActive = true ↔ (∃ l, (s.line l).stage = .alarm) ∨
    ∃ m ∈ s.img.members, (s.peer m).presence = .live ∧ (s.peer m).said.alarmMask ≠ 0 := by
  simp [State.detectionActive, List.any_eq_true, mem_allLines]

theorem resetRefused_iff (st : Stage) :
    st.resetRefused = true ↔ st = .isolated ∨ st = .releasing ∨ st = .discharged := by
  cases st <;> decide

theorem suppressionReset_elsewhere {s : State} (h : s.role ≠ .release) :
    suppressionReset () s = (Answer.plain .notReleaseStation, s) := if_pos h

theorem suppressionReset_refused {s : State} (h : s.role = .release) (hs : s.seq.stage.resetRefused = true) :
    suppressionReset () s = (Answer.plain .wrongState, s) := by
  unfold suppressionReset
  rw [if_neg (not_not.mpr h), if_pos hs]

theorem suppressionReset_active {s : State} (h : s.role = .release) (hs : s.seq.stage.resetRefused = false)
    (ha : s.detectionActive = true) : suppressionReset () s = (Answer.plain .detectionActive, s) := by
  unfold suppressionReset
  rw [if_neg (not_not.mpr h), hs, if_neg (by decide), if_pos ha]

theorem suppressionReset_accepted {s : State} (h : s.role = .release) (hs : s.seq.stage.resetRefused = false)
    (ha : s.detectionActive = false) : suppressionReset () s = (Answer.done [], resetAndRejoin s) := by
  unfold suppressionReset
  rw [if_neg (not_not.mpr h), hs, if_neg (by decide), ha, if_neg (by decide)]

/-! ## What an accepted reset leaves -/

/-- R70: the Sequencer once it has been reset, before the own ABORT input is looked at. -/
theorem resetSequence_seq (s : State) : (resetSequence s).seq = { s.seq with
    stage := .normal, countdown := none, frozen := 0, notice := none
    list := [], latch := false, abortSet := [], abortStuck := none, soak := none, flowWait := none
    flowConfirmed := false } := enterStage_seq _ _

theorem resetSequence_onward (s : State) : Onward (resetSequence s) (settle (resetSequence s)) :=
  settle_onward (by rw [resetSequence_seq]; exact (by decide : Stage.normal ≠ .inhibited))

theorem resetSequence_tells {s : State} (hp : places s.bus.queue ≤ 6) : Tells (resetSequence s) :=
  enterStage_tells (s := s.setSeq _) _ hp

/-- R58, R62: the own address joins the set that a reset has emptied; the stage is NORMAL still. -/
theorem abortJoin_of_reset {a : Nat} {s : State} (hs : s.seq.stage = .normal) (he : s.seq.abortSet = []) :
    abortJoin a s = s.firstJoined a := by
  rw [abortJoin_first a he, if_neg (by rw [hs]; decide)]

/-- R69: a notice does not say the abort set. -/
theorem firstJoined_tells {s : State} (a : Nat) (h : Tells s) : Tells (s.firstJoined a) :=
  h.congr rfl (noticeFrame_of_fields rfl rfl rfl rfl rfl rfl)

theorem rejoinAbort_made {s : State} (h : s.pins.abort = true) (hs : s.seq.stage = .normal) (he : s.seq.abortSet = []) :
    rejoinAbort s = settle (s.firstJoined s.address) := by
  unfold rejoinAbort
  rw [if_pos h, abortJoin_of_reset hs he]

theorem rejoinAbort_broken {s : State} (h : s.pins.abort = false) : rejoinAbort s = s := by
  unfold rejoinAbort
  rw [h, if_neg (by decide)]

theorem firstJoined_onward {a : Nat} {s : State} (hs : s.seq.stage = .normal) :
    Onward (s.firstJoined a) (settle (s.firstJoined a)) :=
  settle_onward (by show s.seq.stage ≠ _; rw [hs]; decide)

section
variable (s : State)

theorem settle_resetSequence_stage : (settle (resetSequence s)).seq.stage = .normal :=
  (resetSequence_onward s).stage.trans (enterStage_stage _ _)

theorem settle_resetSequence_abortSet : (settle (resetSequence s)).seq.abortSet = [] :=
  (settle_staged _).abortSet.trans (by rw [resetSequence_seq])

theorem settle_resetSequence_handed : Handed s (settle (resetSequence s)) :=
  (resetSequence_only s).toHanded.trans (settle_handed _)

/-- R58, R61, R70: the Sequencer after an accepted reset. -/
theorem resetAndRejoin_apart : (resetAndRejoin s).seq.apart = { (resetSequence s).seq with
    abortSet := if s.pins.abort then [s.address] else []
    abortStuck := if s.pins.abort then some (s.now + s.img.tab * 1000000) else none }.apart := by
  have hh := settle_resetSequence_handed s
  have ha := (resetSequence_onward s).apart
  unfold resetAndRejoin
  cases hb : s.pins.abort with
  | false =>
    rw [rejoinAbort_broken (hh.pins ▸ hb), ha, resetSequence_seq]
    rfl
  | true =>
    have hs := settle_resetSequence_stage s
    rw [rejoinAbort_made (hh.pins ▸ hb) hs (settle_resetSequence_abortSet s), (firstJoined_onward hs).apart,
      State.firstJoined, hh.now, hh.img, hh.address]
    exact congrArg (fun q : Sequencer => { q with
      abortSet := [s.address], abortStuck := some (s.now + s.img.tab * 1000000) }) ha

/-- R69: a reset is told. -/
theorem resetAndRejoin_tells (hp : places s.bus.queue ≤ 6) : Tells (resetAndRejoin s) := by
  have told : Tells (settle (resetSequence s)) := (resetSequence_onward s).tells (resetSequence_tells hp)
  have hs := settle_resetSequence_stage s
  unfold resetAndRejoin
  cases hb : (settle (resetSequence s)).pins.abort with
  | false => rwa [rejoinAbort_broken hb]
  | true =>
    rw [rejoinAbort_made hb hs (settle_resetSequence_abortSet s)]
    exact (firstJoined_onward hs).tells (firstJoined_tells _ told)

end

/-- R62, R154: a level source whose condition ends and is made again at once. -/
theorem SourceState.follow_twice {y : SourceState} (n : Nat) (h : y.condition = true) :
    (y.pending = true → y.inService = false → y.settled = false →
      (y.follow false n).follow true n = { y with raised := n }) ∧
    (y.pending = false → y.inService = true → (y.follow false n).follow true n = y) ∧
    (y.pending = false → y.inService = false →
      (y.follow false n).follow true n = { y with pending := true, settled := false, raised := n }) := by
  obtain ⟨c, p, i, t, r, m⟩ := y
  cases h
  refine ⟨fun hp hi ht => ?_, fun hp hi => ?_, fun hp hi => ?_⟩ <;>
    simp_all [SourceState.follow, SourceState.take]

/-- R58, R62, R154: ABORT_HELD after a reset under a made ABORT input: the emptied set ends it, and the own address raises
it anew. -/
theorem resetAndRejoin_abortHeld {s : State} (hr : s.running = true) (h : s.role = .release) (hb : s.pins.abort = true) :
    (resetAndRejoin s).source .abortHeld =
      ((s.source .abortHeld).follow false s.presentTime).follow true s.presentTime := by
  have ho := resetSequence_only s
  have hh := settle_resetSequence_handed s
  obtain ⟨y, hy⟩ : ∃ y, settle (resetSequence s) = y := ⟨_, rfl⟩
  have he : y.seq.abortSet = [] := hy ▸ settle_resetSequence_abortSet s
  have hn : y.seq.stage = .normal := hy ▸ settle_resetSequence_stage s
  have ends : y.source .abortHeld = (s.source .abortHeld).follow false s.presentTime := by
    rw [← hy, settle_abortHeld ((running_congr ho.startup).trans hr), hy,
      levelCondition_abortHeld (hy ▸ hh.role.trans h), he, ho.levelStay .abortHeld rfl, ho.toHanded.presentTime]
    rfl
  rw [hy] at hh
  have raised := settle_abortHeld (u := y.firstJoined y.address) ((running_congr hh.startup).trans hr)
  have hrole : (settle (y.firstJoined y.address)).role = .release := (settle_handed _).role.trans (hh.role.trans h)
  rw [levelCondition_abortHeld hrole, (settle_staged _).abortSet] at raised
  unfold resetAndRejoin
  rw [hy, rejoinAbort_made (hh.pins ▸ hb) hn he, raised, ← hh.presentTime]
  exact congrArg (fun x => SourceState.follow true y.presentTime x) (ends.trans (by rw [hh.presentTime]))

end Sys2Proof.Machine
end

section
/-! SUPPORT. SUPPRESSION_ISOLATE by argument and stage (R71), and the two commands of the Sequencer (O26). -/

namespace Sys2Proof.Machine

/-! ## SUPPRESSION_ISOLATE -/

/-- R71: both groups stand in the list. -/
theorem coincidencePresent_groups (list : List Detection) :
    coincidencePresent list = true ↔ (∃ e ∈ list, e.group = .g1) ∧ ∃ e ∈ list, e.group = .g2 := by
  simp [coincidencePresent, groupPresent]

theorem suppressionIsolate_elsewhere (on : Bool) {s : State} (h : s.role ≠ .release) :
    suppressionIsolate on s = (Answer.plain .notReleaseStation, s) := if_pos h

section
variable {s : State} (h : s.role = .release)
include h

theorem suppressionIsolate_release (on : Bool) : suppressionIsolate on s = if on then isolateOn s else isolateOff s :=
  if_neg (not_not.mpr h)

/-- R71: NORMAL and FIRST_ALARM are isolated; they are not isolated already. -/
theorem suppressionIsolate_idle (on : Bool) (hs : s.seq.stage = .normal ∨ s.seq.stage = .firstAlarm) :
    suppressionIsolate on s = (Answer.done [], if on then settle (enterStage .isolated s) else s) := by
  rw [suppressionIsolate_release h]
  unfold isolateOn isolateOff
  cases on <;> rcases hs with hs | hs <;> rw [hs] <;> rfl

/-- R71: ISOLATED is isolated already. -/
theorem suppressionIsolate_on (hs : s.seq.stage = .isolated) : suppressionIsolate true s = (Answer.done [], s) := by
  rw [suppressionIsolate_release h, if_pos rfl]
  unfold isolateOn
  rw [hs]

/-- R71: ISOLATED ends to the stage that the list gives, unless both groups stand in it. -/
theorem suppressionIsolate_off (hs : s.seq.stage = .isolated) : suppressionIsolate false s =
    if coincidencePresent s.seq.list then (Answer.plain .detectionActive, s)
    else (Answer.done [], settle (enterStage (if s.seq.list = [] then .normal else .firstAlarm) s)) := by
  rw [suppressionIsolate_release h, if_neg (by decide)]
  unfold isolateOff
  rw [hs]

/-- R71: from INHIBITED on the sequence is not isolated, and not taken out of isolation. -/
theorem suppressionIsolate_wrong (on : Bool) (hs : 3 ≤ s.seq.stage.ordinal) :
    suppressionIsolate on s = (Answer.plain .wrongState, s) := by
  rw [suppressionIsolate_release h]
  unfold isolateOn isolateOff
  cases hst : s.seq.stage
  case normal | isolated | firstAlarm => exact absurd hs (by rw [hst]; decide)
  all_goals cases on <;> rfl

end

/-- R71: the three kinds of stages that the rule tells apart. -/
theorem stage_kinds (st : Stage) : (st = .normal ∨ st = .firstAlarm) ∨ st = .isolated ∨ 3 ≤ st.ordinal := by
  cases st <;> decide

/-- R69, R71: a stage that is entered at an idle port is told. -/
theorem isolate_enters (st : Stage) (hst : st ≠ .inhibited) (s : State) :
    (settle (enterStage st s)).seq.stage = st ∧ (settle (enterStage st s)).seq.list = s.seq.list ∧
      (s.bus.queue.length ≤ 3 → NoticeWaits (settle (enterStage st s))) := by
  have on : Onward (enterStage st s) (settle (enterStage st s)) := settle_onward (by rwa [enterStage_stage])
  exact ⟨on.stage.trans (enterStage_stage st s), (settle_list _).1.trans (by rw [enterStage_seq]),
    on.noticeWaits (s := s) (fun hp => enterStage_tells st hp)⟩

/-! ## The two commands -/

/-- R70: what an accepted SUPPRESSION_RESET leaves; `s` is the station before it and `dt` the time since. -/
theorem reset_accepted {s : State} (h : s.AtPanel) (hr : s.role = .release) (hs : s.seq.stage.resetRefused = false)
    (ha : s.detectionActive = false) (dt before : Nat) :
    ∃ v : State, v = s.taken dt 14 ⟨[0], before⟩ ∧ exec (.suppressionReset dt ⟨[0], before⟩) s =
      .next ((resetAndRejoin v).setPort (s.answered [0] 14 0 0 [])) := by
  refine ⟨_, rfl, ?_⟩
  exact exec_suppressionReset h (suppressionReset_accepted (s := s.taken dt 14 ⟨[0], before⟩) hr hs ha)
    (resetAndRejoin_handed _).port

/-- R70: the port shows neither in the Sequencer nor in what a notice says. -/
theorem NoticeWaits.setPort {t : State} (h : NoticeWaits t) (p : Port) : NoticeWaits (t.setPort p) := h

/-- R70: SUPPRESSION_RESET at a release station that may take it. -/
theorem reset_clears {s : State} (h : s.AtPanel) (hr : s.role = .release) (hs : s.seq.stage.resetRefused = false)
    (ha : s.detectionActive = false) (dt before : Nat) :
    ∃ t, exec (.suppressionReset dt ⟨[0], before⟩) s = .next t ∧
      t.port.reply = some [14, 0, byteOf (128 * s.port.overrun.toNat), 0] ∧
      t.seq.stage = .normal ∧ t.seq.list = [] ∧ t.seq.latch = false ∧ t.seq.countdown = none ∧ t.seq.frozen = 0 ∧
      t.seq.soak = none ∧ t.seq.flowWait = none ∧ t.seq.notice = none ∧ t.seq.flowConfirmed = false ∧
      t.seq.abortSet = (if s.pins.abort then [s.address] else []) ∧
      t.seq.abortStuck = (if s.pins.abort then some (s.now + dt + s.img.tab * 1000000) else none) ∧
      (let x := s.source .abortHeld
       s.pins.abort = true → x.condition = true →
         (x.pending = true → x.inService = false → x.settled = false →
           t.source .abortHeld = { x with raised := s.seconds (s.now + dt) }) ∧
         (x.pending = false → x.inService = true → t.source .abortHeld = x) ∧
         (x.pending = false → x.inService = false →
           t.source .abortHeld = { x with pending := true, settled := false, raised := s.seconds (s.now + dt) })) ∧
      (s.bus.queue.length ≤ 3 → NoticeWaits t) ∧
      (∀ l, (t.line l).apart = (s.line l).apart) ∧ t.peers = s.peers ∧ t.roster = s.roster ∧
      t.posture.view = s.posture.view ∧ t.pins = s.pins := by
  obtain ⟨v, hv, he⟩ := reset_accepted h hr hs ha dt before
  have hq := (resetAndRejoin_apart v).trans (congrArg (fun q : Sequencer => { q with
    abortSet := if v.pins.abort then [v.address] else []
    abortStuck := if v.pins.abort then some (v.now + v.img.tab * 1000000) else none }.apart) (resetSequence_seq v))
  have hh := resetAndRejoin_handed v
  refine ⟨_, he, rfl, (congrArg Sequencer.stage hq :), (congrArg Sequencer.list hq :), (congrArg Sequencer.latch hq :),
    (congrArg Sequencer.countdown hq :), (congrArg Sequencer.frozen hq :), (congrArg Sequencer.soak hq :),
    (congrArg Sequencer.flowWait hq :), (congrArg Sequencer.notice hq :), (congrArg Sequencer.flowConfirmed hq :),
    ?_, ?_, ?_, fun hp => ?_, fun l => ?_, ?_, ?_, ?_, ?_⟩
  · exact (congrArg Sequencer.abortSet hq :).trans (by rw [hv]; rfl)
  · exact (congrArg Sequencer.abortStuck hq :).trans (by rw [hv]; rfl)
  · intro x hb hc
    have e : ((resetAndRejoin v).setPort (s.answered [0] 14 0 0 [])).source .abortHeld =
        (x.follow false (s.seconds (s.now + dt))).follow true (s.seconds (s.now + dt)) := by
      refine (resetAndRejoin_abortHeld ?_ ?_ ?_).trans ?_ <;> rw [hv]
      · exact h.1
      · exact hr
      · exact hb
      · rfl
    rw [e]
    exact SourceState.follow_twice _ hc
  · exact (resetAndRejoin_tells v (by rw [hv]; exact places_le _ (by exact hp.trans (by decide)))).noticeWaits
  · exact (hh.lines l).trans (by rw [hv]; rfl)
  · exact hh.peers.trans (by rw [hv]; rfl)
  · exact hh.roster.trans (by rw [hv]; rfl)
  · exact hh.view.trans (by rw [hv]; rfl)
  · exact hh.pins.trans (by rw [hv]; rfl)

/-- R70: what the rule looks at before it accepts. -/
theorem resetRefused_of_ne {st : Stage} (h1 : st ≠ .isolated) (h2 : st ≠ .releasing) (h3 : st ≠ .discharged) :
    st.resetRefused = false := by
  rw [← Bool.not_eq_true, resetRefused_iff]
  rintro (k | k | k)
  · exact h1 k
  · exact h2 k
  · exact h3 k

/-- R70: SUPPRESSION_RESET by the order of its rule. -/
theorem reset_refuses {s : State} (h : s.AtPanel) (hr : s.role = .release) (dt before : Nat) :
    (s.seq.stage.resetRefused = true → ∃ t, exec (.suppressionReset dt ⟨[0], before⟩) s = .next t ∧
      t.port.reply = some [14, 22, byteOf (128 * s.port.overrun.toNat), 0] ∧ { t with now := s.now, port := s.port } = s) ∧
    (s.seq.stage.resetRefused = false → s.detectionActive = true →
      ∃ t, exec (.suppressionReset dt ⟨[0], before⟩) s = .next t ∧
        t.port.reply = some [14, 21, byteOf (128 * s.port.overrun.toNat), 0] ∧
        { t with now := s.now, port := s.port } = s) := by
  have same {r : Result} (e : suppressionReset () (s.taken dt 14 ⟨[0], before⟩) =
      (Answer.plain r, s.taken dt 14 ⟨[0], before⟩)) := exec_suppressionReset h e rfl
  exact ⟨fun hs => ⟨_, same (suppressionReset_refused hr hs), rfl, rfl⟩,
    fun hs ha => ⟨_, same (suppressionReset_active hr hs ha), rfl, rfl⟩⟩

section
variable {s : State} (h : s.AtPanel) (hr : s.role = .release) (dt before : Nat)
include h hr

/-- R71: SUPPRESSION_ISOLATE in NORMAL and FIRST_ALARM. -/
theorem isolate_idle (on : Bool) (hs : s.seq.stage = .normal ∨ s.seq.stage = .firstAlarm) :
    ∃ t, exec (.suppressionIsolate dt ⟨[1, byteOf on.toNat], before⟩) s = .next t ∧
      t.port.reply = some [15, 0, byteOf (128 * s.port.overrun.toNat), 0] ∧
      (on = true → t.seq.stage = .isolated ∧ t.seq.list = s.seq.list ∧ (s.bus.queue.length ≤ 3 → NoticeWaits t)) ∧
      (on = false → { t with now := s.now, port := s.port } = s) := by
  have e := suppressionIsolate_idle (s := s.taken dt 15 ⟨[1, byteOf on.toNat], before⟩) hr on hs
  cases on with
  | false => exact ⟨_, exec_suppressionIsolate h e rfl, rfl, fun k => absurd k (by decide), fun _ => rfl⟩
  | true =>
    have m := isolate_enters .isolated (by decide) (s.taken dt 15 ⟨[1, byteOf true.toNat], before⟩)
    exact ⟨_, exec_suppressionIsolate h e ((enterStage_only _ _).toHanded.trans (settle_handed _)).port, rfl,
      fun _ => m, fun k => absurd k (by decide)⟩

/-- R71: SUPPRESSION_ISOLATE in ISOLATED. -/
theorem isolate_isolated (on : Bool) (hs : s.seq.stage = .isolated) :
    ∃ t, exec (.suppressionIsolate dt ⟨[1, byteOf on.toNat], before⟩) s = .next t ∧
      let answered : Byte → Prop := fun code => t.port.reply = some [15, code, byteOf (128 * s.port.overrun.toNat), 0]
      let unchanged : Prop := { t with now := s.now, port := s.port } = s
      let both := (∃ e ∈ s.seq.list, e.group = .g1) ∧ ∃ e ∈ s.seq.list, e.group = .g2
      (on = true → answered 0 ∧ unchanged) ∧ (on = false → both → answered 21 ∧ unchanged) ∧
      (on = false → ¬both → answered 0 ∧ t.seq.list = s.seq.list ∧ (s.bus.queue.length ≤ 3 → NoticeWaits t) ∧
        t.seq.stage = if s.seq.list = [] then .normal else .firstAlarm) := by
  cases on with
  | true =>
    exact ⟨_, exec_suppressionIsolate h (suppressionIsolate_on (s := s.taken dt 15 _) hr hs) rfl, fun _ => ⟨rfl, rfl⟩,
      fun k => absurd k (by decide), fun k => absurd k (by decide)⟩
  | false =>
    have e := suppressionIsolate_off (s := s.taken dt 15 ⟨[1, byteOf false.toNat], before⟩) hr hs
    by_cases hb : coincidencePresent s.seq.list = true
    · exact ⟨_, exec_suppressionIsolate h (e.trans (if_pos hb)) rfl, fun k => absurd k (by decide),
        fun _ _ => ⟨rfl, rfl⟩, fun _ k => absurd ((coincidencePresent_groups _).mp hb) k⟩
    · obtain ⟨hstage, hlist, told⟩ := isolate_enters (if s.seq.list = [] then .normal else .firstAlarm)
        (by split <;> decide) (s.taken dt 15 ⟨[1, byteOf false.toNat], before⟩)
      exact ⟨_, exec_suppressionIsolate h (e.trans (if_neg hb))
          ((enterStage_only _ _).toHanded.trans (settle_handed _)).port,
        fun k => absurd k (by decide), fun _ k => absurd ((coincidencePresent_groups _).mpr k) hb,
        fun _ _ => ⟨rfl, hlist, told, hstage⟩⟩

/-- R71: SUPPRESSION_ISOLATE from INHIBITED on. -/
theorem isolate_wrong (on : Bool) (hs : 3 ≤ s.seq.stage.ordinal) :
    ∃ t, exec (.suppressionIsolate dt ⟨[1, byteOf on.toNat], before⟩) s = .next t ∧
      t.port.reply = some [15, 22, byteOf (128 * s.port.overrun.toNat), 0] ∧
      { t with now := s.now, port := s.port } = s :=
  ⟨_, exec_suppressionIsolate h (suppressionIsolate_wrong (s := s.taken dt 15 _) hr on hs) rfl, rfl, rfl⟩

end

/-- Settles O26: each command by the order of its rule, its answer and what it leaves. -/
theorem suppressionCommands : Obligations.SuppressionCommands := by
  refine ⟨fun s dt before hp hc hi => ?_, fun s dt before on hp hc hi hr => ?_, fun s dt before on h hr => ?_⟩
  · have h := atPanel_of hp hc hi
    by_cases hr : s.role = .release
    · obtain ⟨wrong, active⟩ := reset_refuses h hr dt before
      cases hs : s.seq.stage.resetRefused
      · have hn : ¬(s.seq.stage = .isolated ∨ s.seq.stage = .releasing ∨ s.seq.stage = .discharged) := by
          rw [← resetRefused_iff, hs]
          decide
        cases ha : s.detectionActive
        · have hf : ¬s.detectionActive = true := by rw [ha]; decide
          obtain ⟨t, ht, k⟩ := reset_clears h hr hs ha dt before
          exact ⟨t, ht, fun e => absurd hr e, fun _ e => absurd e hn,
            fun _ _ _ _ e => absurd ((detectionActive_iff s).mpr e) hf, fun _ _ _ _ _ => k⟩
        · obtain ⟨t, ht, k⟩ := active hs ha
          exact ⟨t, ht, fun e => absurd hr e, fun _ e => absurd e hn, fun _ _ _ _ _ => k,
            fun _ _ _ _ e => absurd ((detectionActive_iff s).mp ha) e⟩
      · have hst := (resetRefused_iff _).mp hs
        obtain ⟨t, ht, k⟩ := wrong hs
        refine ⟨t, ht, fun e => absurd hr e, fun _ _ => k, fun _ h1 h2 h3 => ?_, fun _ h1 h2 h3 => ?_⟩ <;>
          simp [h1, h2, h3] at hst
    · exact ⟨_, exec_suppressionReset h (suppressionReset_elsewhere hr) rfl, fun _ => ⟨rfl, rfl⟩, fun k => absurd k hr,
        fun k => absurd k hr, fun k => absurd k hr⟩
  · have h := atPanel_of hp hc hi
    rcases stage_kinds s.seq.stage with hs | hs | hs
    · have hn : s.seq.stage ≠ .isolated ∧ ¬3 ≤ s.seq.stage.ordinal := by rcases hs with k | k <;> rw [k] <;> decide
      obtain ⟨t, ht, k⟩ := isolate_idle h hr dt before on hs
      exact ⟨t, ht, fun _ => k, fun e => absurd e hn.1, fun e => absurd e hn.2⟩
    · have hn : ¬(s.seq.stage = .normal ∨ s.seq.stage = .firstAlarm) ∧ ¬3 ≤ s.seq.stage.ordinal := by
        rw [hs]
        decide
      obtain ⟨t, ht, k⟩ := isolate_isolated h hr dt before on hs
      exact ⟨t, ht, fun e => absurd e hn.1, fun _ => k, fun e => absurd e hn.2⟩
    · have hn : ¬(s.seq.stage = .normal ∨ s.seq.stage = .firstAlarm) ∧ s.seq.stage ≠ .isolated := by
        cases hst : s.seq.stage
        case normal | isolated | firstAlarm => exact absurd hs (by rw [hst]; decide)
        all_goals decide
      obtain ⟨t, ht, k⟩ := isolate_wrong h hr dt before on hs
      exact ⟨t, ht, fun e => absurd e hn.1, fun e => absurd e hn.2, fun _ => k⟩
  · exact exec_suppressionIsolate h (suppressionIsolate_elsewhere on hr) rfl

end Sys2Proof.Machine
end

section
/-! SUPPORT. Lockout at the doors: the interlock test, what a settling hands on, and where the area stage has passed between
ordinals 2 and 3 (R75, R92, R93, R112). -/

namespace Sys2Proof.Machine

/-! ## The interlock test -/

/-- R92: a pending request that the test may grant. -/
theorem eligible_iff (s : State) (d : DoorId) : eligible s d = true ↔ ∃ r, (s.door d).request = some r ∧
    (s.door d).state = .secure ∧ ((s.door (partner d)).state = .secure ∨ (s.door (partner d)).absent = true) := by
  simp [eligible, Option.isSome_iff_exists, and_assoc]

theorem stepsBehind_of_request {s : State} {d : DoorId} {r : PendingRequest} (h : (s.door d).request = some r) :
    stepsBehind s d = (s.doors.counter - r.order).toNat := by
  unfold stepsBehind
  rw [h]

/-- R83, R91: the request that is granted empties its slot and releases its door; the partner stays. -/
theorem grantRequest_door {s : State} {d : DoorId} {r : PendingRequest} (h : (s.door d).request = some r) :
    (grantRequest d s).door d =
        { s.door d with request := none, lastPending := .granted }.releasedUnder r.credit s.now s.img.tr ∧
      (grantRequest d s).door (partner d) = s.door (partner d) := by
  have hp : partner d ≠ d := by cases d <;> decide
  unfold grantRequest releaseDoor
  rw [h]
  refine ⟨?_, ?_⟩
  · simp only [State.setDoor_door, if_true, Door.releasedUnder, Config.sec, State.setDoor_now, State.img,
      State.setDoor_image]
  · simp only [State.setDoor_door, if_neg hp]

/-- R92: of the eligible requests the one that lies further behind the counter is granted. -/
theorem interlockTest_grants {s : State} {d : DoorId} {r : PendingRequest} (he : eligible s d = true)
    (hr : (s.door d).request = some r)
    (hq : ∀ q, eligible s (partner d) = true → (s.door (partner d)).request = some q →
      (s.doors.counter - q.order).toNat < (s.doors.counter - r.order).toNat) :
    interlockTest s = grantRequest d s := by
  have behind (hp : eligible s (partner d) = true) : stepsBehind s (partner d) < stepsBehind s d := by
    obtain ⟨q, hs, -⟩ := (eligible_iff s (partner d)).mp hp
    rw [stepsBehind_of_request hs, stepsBehind_of_request hr]
    exact hq q hp hs
  unfold interlockTest
  cases d with
  | a =>
    rw [if_pos he, if_neg]
    rintro ⟨hb, hlt⟩
    exact absurd hlt (Nat.lt_asymm (behind hb))
  | b =>
    split
    · next ha => rw [if_pos ⟨he, behind ha⟩]
    · rfl

theorem interlockTest_none {s : State} (h : ∀ d, eligible s d = false) : interlockTest s = s := by
  unfold interlockTest
  rw [h .a, h .b]
  rfl

/-- R79, R91, R92: what the interlock test leaves. -/
theorem interlockTest_interlocked (s : State) : Interlocked s.door s.doors.counter s.now s.img.tr (interlockTest s) := by
  refine ⟨fun hn d => ?_, fun d r hd hq => ?_⟩
  · rw [interlockTest_none fun e => ?_]
    rw [← Bool.not_eq_true, eligible_iff]
    rintro ⟨r, hr⟩
    exact hn e r hr
  · have he : eligible s d = true := (eligible_iff s d).mpr ⟨r, hd⟩
    rw [interlockTest_grants he hd.1 fun q hp hs => hq q ?_]
    · exact grantRequest_door hd.1
    · obtain ⟨x, hx, hrest⟩ := (eligible_iff s (partner d)).mp hp
      exact ⟨hs, hrest⟩

/-! ## Lockout on -/

/-- R93: the doors as lockout finds them, before the interlock test. -/
def State.lockedDoors (s : State) : State := s.setDoors { s.doors with a := s.doors.a.lockOut, b := s.doors.b.lockOut }

theorem lockedDoors_door (s : State) (d : DoorId) : s.lockedDoors.door d = (s.door d).lockOut := by cases d <;> rfl

theorem lockoutOn_eq (s : State) : lockoutOn s =
    if s.doors.a.releasedForEntry || s.doors.b.releasedForEntry then interlockTest s.lockedDoors
    else s.lockedDoors := rfl

/-- R93: the door once a pending ENTRY is gone. -/
theorem discardEntryRequest_eq (x : Door) : x.discardEntryRequest =
    if x.request.any (fun r => r.credit.kind == .entry) then { x with request := none, lastPending := .lockout } else x := by
  unfold Door.discardEntryRequest
  cases x.request with
  | none => rfl
  | some r => simp

/-- R93: what lockout does to a door. -/
theorem lockOut_eq (x : Door) : x.lockOut =
    if x.state == .released && x.credit.any (fun c => c.kind == .entry) then
      { (if x.request.any (fun r => r.credit.kind == .entry) then { x with request := none, lastPending := .lockout }
          else x) with
        state := .secure, strike := false, window := none, heldTimer := none, credit := none, lockout := true }
    else { (if x.request.any (fun r => r.credit.kind == .entry) then
        { x with request := none, lastPending := .lockout } else x) with lockout := true } := by
  unfold Door.lockOut Door.releasedForEntry Door.secured
  rw [discardEntryRequest_eq]

/-! ## What a settling hands on -/

/-- R75, R93: the doors after a settling are those that lockout left. -/
theorem settle_doors {u : State} (hr : u.running = true) : (settle u).doors = (settleLockout (evalOccupancy u)).doors := by
  unfold settle
  rw [if_pos hr, (settleLoop_rest _ _).2, (settleCadence_only _).doors_eq]

theorem lockoutStage_of_shown (s : State) : s.lockoutStage = decide (3 ≤ s.shownStage.ordinal) := by
  rw [← shownStage_eq]
  rfl

/-- R75: a settling leaves the area stage on its side of lockout. -/
theorem settle_lockoutStage {u : State} (hr : u.running = true) : (settle u).lockoutStage = u.lockoutStage := by
  rw [lockoutStage_of_shown, settle_shown hr, ← lockoutStage_of_shown, evalOccupancy_lockoutStage]

theorem settle_lamp {u : State} (hr : u.running = true) : (settle u).lamp = u.lockoutStage := by
  unfold State.lamp
  rw [settle_running, hr, settle_lockoutStage hr, Bool.true_and]

theorem door_of_doors {s t : State} (h : t.doors = s.doors) (d : DoorId) : t.door d = s.door d := by
  unfold State.door
  rw [h]

section
variable {u : State} (hr : u.running = true)
include hr

/-- R93: lockout turns on. -/
theorem settle_locks (hl : u.lockoutStage = true) (ha : u.doors.a.lockout = false) :
    (settle u).doors = (lockoutOn (evalOccupancy u)).doors := by
  rw [settle_doors hr]
  unfold settleLockout
  rw [evalOccupancy_lockoutStage, (evalOccupancy_only u).doors_eq, hl, ha, if_neg (by decide), if_pos rfl,
    (breakReservations_rest _).2.1]

/-- R112: lockout that turns on breaks every reservation. -/
theorem settle_breaks (hl : u.lockoutStage = true) (ha : u.doors.a.lockout = false) (d : DoorId) :
    (settle u).reservation d = none := by
  have hb : Broke (settleLockout (evalOccupancy u)) (settle u) := by
    unfold settle
    rw [if_pos hr]
    exact (Broke.of_entry (settleCadence_only _).entry_eq).trans (settleLoop_broke _ _)
  have hn : (settleLockout (evalOccupancy u)).reservation d = none := by
    unfold settleLockout
    rw [evalOccupancy_lockoutStage, (evalOccupancy_only u).doors_eq, hl, ha, if_neg (by decide), if_pos rfl]
    exact breakReservations_none _ d
  rcases hb d with ⟨k, -⟩ | ⟨k, -, -⟩
  · rw [k, hn]
  · exact k

/-- R75, R93: lockout turns off, and nothing is restored. -/
theorem settle_unlocks (hl : u.lockoutStage = false) (ha : u.doors.a.lockout = true) (d : DoorId) :
    (settle u).door d = { u.door d with lockout := false } := by
  have h : (settle u).doors = (lockoutOff (evalOccupancy u)).doors := by
    rw [settle_doors hr]
    unfold settleLockout
    rw [evalOccupancy_lockoutStage, (evalOccupancy_only u).doors_eq, hl, ha, if_neg (by decide), if_neg (by decide)]
  rw [door_of_doors h]
  cases d <;> simp [lockoutOff, State.door, (evalOccupancy_only u).doors_eq]

/-- R75, R92, R93, R112: the area stage has reached ordinal 3 with lockout off. -/
theorem lockedOut_of {s : State} (hl : u.lockoutStage = true) (ha : s.doors.a.lockout = false) (hd : u.doors = s.doors)
    (he : u.entry = s.entry) (hi : u.img = s.img) : LockedOut s (settle u) := by
  have hres (e : DoorId) : u.reservation e = s.reservation e := by cases e <;> simp [State.reservation, he]
  have hua : u.doors.a.lockout = false := by rw [hd]; exact ha
  have eo := evalOccupancy_only u
  have hdoors : (evalOccupancy u).doors = s.doors := eo.doors_eq.trans hd
  have locked (d : DoorId) : (evalOccupancy u).lockedDoors.door d = (s.door d).lockOut := by
    rw [lockedDoors_door, door_of_doors hdoors]
  have hset := settle_locks hr hl hua
  rw [lockoutOn_eq, hdoors] at hset
  refine ⟨(settle_lamp hr).trans hl, fun d => ?_, fun hn d => ?_, fun hw => ?_, settle_breaks hr hl hua, fun e hs => ?_⟩
  · rw [door_of_doors (settle_locks hr hl hua)]
    exact lockoutOn_lockout _ d
  · have hno : (s.doors.a.releasedForEntry || s.doors.b.releasedForEntry) = false := by
      rw [Bool.or_eq_false_iff]
      exact ⟨hn .a, hn .b⟩
    rw [hno, if_neg (by decide)] at hset
    rw [door_of_doors hset, locked, lockOut_eq]
  · have hyes : (s.doors.a.releasedForEntry || s.doors.b.releasedForEntry) = true := by
      obtain ⟨d, hd⟩ := hw
      rw [Bool.or_eq_true_iff]
      cases d
      · exact .inl hd
      · exact .inr hd
    rw [hyes, if_pos rfl] at hset
    have test := interlockTest_interlocked (evalOccupancy u).lockedDoors
    have hfun : (evalOccupancy u).lockedDoors.door = fun d => (s.door d).lockOut := funext locked
    have hcounter : (evalOccupancy u).lockedDoors.doors.counter = s.doors.counter :=
      (congrArg DoorCtl.counter hdoors : (evalOccupancy u).doors.counter = s.doors.counter)
    have hnow : (evalOccupancy u).lockedDoors.now = (settle u).now := eo.now.trans (settle_handed u).now.symm
    have himg : (evalOccupancy u).lockedDoors.img.tr = s.img.tr := congrArg Image.tr (eo.img.trans hi)
    rw [hfun, hcounter, hnow, himg] at test
    simp only [lockOut_eq] at test
    exact ⟨fun h d => (door_of_doors hset d).trans (test.1 h d), fun d r h q => by
      rw [door_of_doors hset, door_of_doors hset]
      exact test.2 d r h q⟩
  · have hn := settle_breaks hr hl hua e
    have hpair : (settle u).reservation e ≠ u.reservation e := by
      rw [hn, hres]
      exact fun k => by rw [← k] at hs; cases hs
    refine ⟨?_, (settle_after u).posture.broke ⟨e, hpair⟩⟩
    rcases (settle_after u).reservations e with ⟨k, -⟩ | ⟨-, k, -⟩
    · exact absurd k hpair
    · exact k

/-- R75, R93: the area stage has fallen below ordinal 3 with lockout on. -/
theorem lockoutEnded_of {s : State} (hl : u.lockoutStage = false) (ha : s.doors.a.lockout = true)
    (hd : u.doors = s.doors) : LockoutEnded s (settle u) := by
  refine ⟨(settle_lamp hr).trans hl, fun d => ?_⟩
  rw [settle_unlocks hr hl (by rw [hd]; exact ha), door_of_doors hd]

end

/-! ## The three ways over the boundary -/

/-- R31, R72: neither the hearing of a frame nor the mirror reaches the doors and the entry. -/
theorem noticeOwner_reached (s : State) (c : FrameCall) (a : Nat) (f : Frame) :
    (noticeOwner a f (s.reached c a f)).doors = s.doors ∧ (noticeOwner a f (s.reached c a f)).entry = s.entry ∧
      (noticeOwner a f (s.reached c a f)).startup = s.startup := by
  have owner := noticeOwner_only a f (s.reached c a f)
  have area := evalOccupancy_only (s.heard c a f)
  obtain ⟨-, -, -, hstartup, hentry, -⟩ := heard_rest s c a f
  have hdoors : (s.heard c a f).doors = s.doors := by simp [State.heard]
  exact ⟨(owner.doors_eq.trans area.doors_eq).trans hdoors, (owner.entry_eq.trans area.entry_eq).trans hentry,
    (owner.startup.trans area.startup).trans hstartup⟩

/-- R72, R75: a member's area stage once a notice has moved its mirror. -/
theorem setMirror_lockoutStage {m : Mirror} {u : State} (h : u.role = .member) :
    (setMirror m u).lockoutStage = decide (3 ≤ m.stage.ordinal) := by
  rw [lockoutStage_of_shown]
  unfold State.shownStage
  rw [(setMirror_only m u).role, h, if_neg (by decide), if_pos rfl, (setMirror_sets m u).1]

/-- R72, R75: a notice at a member passes the boundary or stays on its side. -/
theorem notice_lockout {s : State} {dt a : Nat} {bits : List Bool} {area ordinal : BitVec 4} {remaining : Byte} {flow : Bool}
    {st : Stage} (h : Reaches { kind := 0, dt := dt, bits := bits } s a (.releaseNotice area ordinal remaining flow))
    (hr : s.role = .member) (hm : s.img.members.head? = some a) (ha : area.toNat = s.area)
    (hs : Stage.ofNat? ordinal.toNat = some st) :
    ∃ t, exec (.releaseNoticeFrame dt bits) s = .next t ∧
      (3 ≤ st.ordinal → s.doors.a.lockout = false → LockedOut s t) ∧
      (st.ordinal < 3 → s.doors.a.lockout = true → LockoutEnded s t) ∧
      (s.doors.a.lockout = decide (3 ≤ st.ordinal) → t.doors = s.doors) ∧
      t.roster = s.roster ∧ t.port = s.port := by
  have he := exec_notice h
  have hrun := running_of_receiving h.1
  generalize ({ kind := 0, dt := dt, bits := bits } : FrameCall) = c at he h
  generalize hf : Frame.releaseNotice area ordinal remaining flow = f at he h
  have hu := reached_role s c a f
  have hi := reached_img s c a f
  have takes : (s.reached c a f).Mirrors a area ordinal st :=
    reached_mirrors.mpr ⟨⟨releaseStation_eq_some.mpr ⟨hr, hm⟩, ha⟩, hs⟩
  have owner := noticeOwner_only a f (s.reached c a f)
  have hstage : (noticeOwner a f (s.reached c a f)).lockoutStage = decide (3 ≤ st.ordinal) := by
    rw [← hf] at takes hu ⊢
    rw [noticeOwner_mirrors takes]
    exact setMirror_lockoutStage (hu.trans hr)
  obtain ⟨hdoors, hentry, hstartup⟩ := noticeOwner_reached s c a f
  have running := (running_congr hstartup).trans hrun
  obtain ⟨hroster, hport, -⟩ := reached_rest s c a f (owner.toHanded.trans (settle_handed _))
  refine ⟨_, he, fun ho hl => ?_, fun ho hl => ?_, fun hl => ?_, hroster, hport⟩
  · exact lockedOut_of running (by rw [hstage, decide_eq_true ho]) hl hdoors hentry (owner.img.trans hi)
  · exact lockoutEnded_of running (by rw [hstage, decide_eq_false (by omega)]) hl hdoors
  · exact ((settle_after _).doors (by rw [hstage, hdoors, hl])).trans hdoors

/-- R63, R75: a manual release that starts the countdown passes the boundary, unless lockout holds already. -/
theorem manrel_lockout {s : State} {f : Nat} (hr : s.running = true) (h : s.role = .release)
    (hf : s.pins.filter .manrel = some f) (hl : s.pins.manrel = false)
    (hs : s.seq.stage = .normal ∨ s.seq.stage = .firstAlarm) :
    ∃ t, exec (.manrelMade .held true) s = .next t ∧
      (s.doors.a.lockout = false → LockedOut s t) ∧ (s.doors.a.lockout = true → t.doors = s.doors) ∧
      t.roster = s.roster ∧ t.port = s.port := by
  have raised := trigger_only .manualRelease (s.changed f .manrel true) (by decide)
  have pressed := manualPress_only (s.changed f .manrel true)
  have owner : SeqOnly (s.changed f .manrel true) (manualPress (s.changed f .manrel true)) :=
    raised.toSeqOnly.trans pressed
  have hchange : manrelChange true (s.changed f .manrel true) = settle (manualPress (s.changed f .manrel true)) :=
    if_pos ⟨rfl, hr⟩
  have hstage : (manualPress (s.changed f .manrel true)).lockoutStage = true := by
    rw [lockoutStage_release _ (owner.role.trans h), manualPress_release (u := s.changed f .manrel true) h,
      manualRelease_starts (by rw [raised.seq_eq]; exact hs.imp id .inl)]
    exact decide_eq_true (startCountdown_stage _ _)
  have running := (running_congr owner.startup).trans hr
  have handed := owner.toHanded.trans (settle_handed _)
  refine ⟨_, (exec_manrelMade (made := true) hf hl).trans (congrArg _ hchange), fun ha => ?_, fun ha => ?_,
    handed.roster, handed.port⟩
  · exact lockedOut_of running hstage ha owner.doors_eq owner.entry_eq owner.img
  · exact ((settle_after _).doors (by rw [hstage, owner.doors_eq]; exact ha.symm)).trans owner.doors_eq

theorem resetSequence_stage (s : State) : (resetSequence s).seq.stage = .normal := enterStage_stage _ _

/-- R70: below ordinal 3 with lockout off, the address that joins anew reaches no door. -/
theorem rejoinAbort_doors {s : State} (hr : s.running = true) (hs : s.seq.stage = .normal) (he : s.seq.abortSet = [])
    (hl : s.lockoutStage = false) (ha : s.doors.a.lockout = false) :
    (rejoinAbort s).doors = s.doors ∧ (rejoinAbort s).lamp = false := by
  cases hp : s.pins.abort
  · rw [rejoinAbort_broken hp]
    exact ⟨rfl, by rw [State.lamp, hr, hl]; rfl⟩
  · rw [rejoinAbort_made hp hs he]
    have hj : (s.firstJoined s.address).lockoutStage = false := hl
    exact ⟨(settle_after (s.firstJoined s.address)).doors (hj.trans ha.symm),
      (settle_lamp (u := s.firstJoined s.address) hr).trans hj⟩

/-- R70, R75, R93: an accepted SUPPRESSION_RESET ends lockout, and leaves doors that are not locked out. -/
theorem resetAndRejoin_doors {s : State} (hr : s.running = true) (h : s.role = .release) :
    (s.doors.a.lockout = true → LockoutEnded s (resetAndRejoin s)) ∧
      (s.doors.a.lockout = false → (resetAndRejoin s).doors = s.doors) := by
  have owner := resetSequence_only s
  have hstage : (resetSequence s).lockoutStage = false := by
    rw [lockoutStage_release _ (owner.role.trans h), resetSequence_stage]
    rfl
  have running := (running_congr owner.startup).trans hr
  have rejoined (ha : (settle (resetSequence s)).doors.a.lockout = false) :=
    rejoinAbort_doors ((settle_running _).trans running) (settle_resetSequence_stage s) (settle_resetSequence_abortSet s)
      ((settle_lockoutStage running).trans hstage) ha
  constructor <;> intro ha
  · obtain ⟨-, ended⟩ := lockoutEnded_of running hstage ha owner.doors_eq
    obtain ⟨hdoors, hlamp⟩ := rejoined (congrArg Door.lockout (ended .a))
    exact ⟨hlamp, fun d => (door_of_doors hdoors d).trans (ended d)⟩
  · have kept : (settle (resetSequence s)).doors = s.doors :=
      ((settle_after _).doors (by rw [hstage, owner.doors_eq, ha])).trans owner.doors_eq
    exact (rejoined (by rw [kept]; exact ha)).1.trans kept

/-- R70: neither an own line nor a LIVE peer shows a detection. -/
theorem detectionActive_eq_false {s : State} (hl : ∀ l, (s.line l).stage ≠ .alarm)
    (hp : ∀ m ∈ s.img.members, (s.peer m).presence = .live → (s.peer m).said.alarmMask = 0) :
    s.detectionActive = false := by
  rw [← Bool.not_eq_true, detectionActive_iff]
  rintro (⟨l, h⟩ | ⟨m, hm, hlive, h⟩)
  · exact hl l h
  · exact h (hp m hm hlive)

/-- Settles O34, by the three ways over the boundary: a notice, a manual release and a reset. -/
theorem lockoutAtTheDoors : Obligations.LockoutAtTheDoors := by
  refine ⟨fun s dt a bits area ordinal remaining flow st => notice_lockout, fun s f => manrel_lockout,
    fun s dt before h hr h1 h2 h3 hl hp => ?_⟩
  obtain ⟨v, hv, he⟩ := reset_accepted h hr (resetRefused_of_ne h1 h2 h3) (detectionActive_eq_false hl hp) dt before
  have hdoors : v.doors = s.doors := by rw [hv]; rfl
  obtain ⟨ended, kept⟩ := resetAndRejoin_doors (s := v) (by rw [hv]; exact h.1) (by rw [hv]; exact hr)
  refine ⟨_, he, fun ha => ?_, fun ha => ?_, ?_⟩
  · obtain ⟨hlamp, hd⟩ := ended (by rw [hdoors]; exact ha)
    exact ⟨hlamp, fun d => (hd d).trans (by rw [door_of_doors hdoors])⟩
  · exact (kept (by rw [hdoors]; exact ha)).trans hdoors
  · exact (resetAndRejoin_handed v).roster.trans (by rw [hv]; rfl)

end Sys2Proof.Machine
end

section
/-! SUPPORT. What keeps both doors safe (R79, R83, R84, R88, R93): the writes that reach no door, the door machine, the
interlock, lockout and the credits. -/

namespace Sys2Proof.Machine

/-! ## One door -/

/-- What R79 to R93 promise of one door. -/
def Door.Guarded (x : Door) : Prop := x.StrikeSafe ∧ x.LockoutSafe

theorem doorsSafe_iff (s : State) : s.DoorsSafe ↔ ∀ d, (s.door d).Guarded := by
  constructor
  · rintro ⟨sa, sb, la, lb⟩ (_ | _)
    · exact ⟨sa, la⟩
    · exact ⟨sb, lb⟩
  · exact fun h => ⟨(h .a).1, (h .b).1, (h .a).2, (h .b).2⟩

namespace Door.Guarded

variable {x : Door} (h : x.Guarded)
include h

/-- The strike, the state, the credit, the request and the lockout are as they were. -/
theorem congr {y : Door} (hk : y.strike = x.strike := by rfl) (hs : y.state = x.state := by rfl)
    (hc : y.credit = x.credit := by rfl) (hr : y.request = x.request := by rfl)
    (hl : y.lockout = x.lockout := by rfl) : y.Guarded := by
  unfold Door.Guarded Door.StrikeSafe Door.LockoutSafe Door.releasedForEntry
  rw [hk, hs, hc, hr, hl]
  exact h

/-- R84 to R88: a door in another state than RELEASED with its strike off. -/
theorem relocked {y : Door} (hs : y.state ≠ .released) (hk : y.strike = false) (hr : y.request = x.request := by rfl)
    (hl : y.lockout = x.lockout := by rfl) : y.Guarded := by
  refine ⟨⟨fun k => absurd (hk.symm.trans k) nofun, fun k => absurd k hs⟩, fun hy => ⟨?_, fun r k => ?_⟩⟩
  · unfold Door.releasedForEntry
    rw [beq_eq_false_iff_ne.mpr hs, Bool.false_and]
  · exact (h.2 (hl ▸ hy)).2 r (hr ▸ k)

theorem secured : x.secured.Guarded := h.relocked (y := x.secured) nofun rfl

/-- R91: a pending request that leaves its slot. -/
theorem emptied (o : PendingOutcome) : { x with request := none, lastPending := o }.Guarded :=
  ⟨h.1, fun hl => ⟨(h.2 hl).1, fun _ k => nomatch k⟩⟩

/-- R83, R93: a release under a credit, which is not one for entry where the door is locked out. -/
theorem released {c : Credit} {now tr : Nat} (hc : x.lockout = true → c.kind ≠ .entry) :
    (x.releasedUnder c now tr).Guarded := by
  refine ⟨⟨fun _ => rfl, fun _ => rfl⟩, fun hl => ⟨?_, (h.2 hl).2⟩⟩
  simpa [Door.releasedForEntry, Door.releasedUnder] using hc hl

/-- R93: a pending ENTRY goes, and nothing else. -/
theorem discarded : x.discardEntryRequest.Guarded := by
  rw [discardEntryRequest_eq]
  split
  · exact h.emptied _
  · exact h

omit h in
theorem discardEntryRequest_kind {r : PendingRequest} (hr : x.discardEntryRequest.request = some r) :
    r.credit.kind ≠ .entry := by
  rw [discardEntryRequest_eq] at hr
  split at hr
  · cases hr
  · next hn => simpa [hr] using hn

/-- R93: a door that lockout has reached. -/
theorem lockedOut : x.lockOut.Guarded := by
  have ⟨strike, _⟩ := h.discarded
  unfold Door.lockOut
  split
  · exact ⟨h.discarded.secured.1, fun _ => ⟨rfl, fun _ => discardEntryRequest_kind⟩⟩
  · next hn =>
    have same : x.discardEntryRequest.releasedForEntry = x.releasedForEntry := by
      rw [discardEntryRequest_eq]
      split <;> rfl
    exact ⟨strike, fun _ => ⟨same.trans (Bool.not_eq_true _ ▸ hn), fun _ => discardEntryRequest_kind⟩⟩

theorem unlocked : { x with lockout := false }.Guarded := ⟨h.1, fun hl => nomatch hl⟩

end Door.Guarded

/-! ## What reaches no door -/

section
variable (s : State)

@[simp] theorem enqueue_doors (f : Frame) : (enqueue f s).doors = s.doors := (enqueue_only f s).doors_eq

@[simp] theorem raise_doors (x : Source) : (raise x s).doors = s.doors := by
  unfold raise
  split <;> rfl

@[simp] theorem trigger_doors (x : Source) : (trigger x s).doors = s.doors := by
  unfold trigger
  split <;> simp

@[simp] theorem askStatus_doors : (askStatus s).doors = s.doors := (askStatus_only s).doors_eq

@[simp] theorem sendStatus_doors : (sendStatus s).doors = s.doors := by simp [sendStatus]

@[simp] theorem returnFrame_doors (e : QueueEntry) : (returnFrame e s).doors = s.doors := by
  unfold returnFrame
  split
  · rfl
  · exact (overrunIf_only _ _).doors_eq

@[simp] theorem abandonFrame_doors : (abandonFrame s).doors = s.doors := by
  unfold abandonFrame
  split <;> rfl

@[simp] theorem breakAt_doors (d : DoorId) : (breakAt d s).doors = s.doors := by
  unfold breakAt
  split <;> simp

@[simp] theorem breakReservations_doors : (breakReservations s).doors = s.doors := (breakReservations_rest s).2.1

@[simp] theorem setDoubt_doors (c : DoubtCause) : (setDoubt c s).doors = s.doors := (setDoubt_rest c s).1

@[simp] theorem admitHolder_doors (time : Nat) (h : Holder) : (admitHolder time s h).doors = s.doors := by
  unfold admitHolder
  split
  · rfl
  · split <;> simp

@[simp] theorem rosterEntry_doors (holders : List Holder) : (rosterEntry holders s).doors = s.doors := by
  unfold rosterEntry
  generalize s.presentTime = time
  induction holders generalizing s with
  | nil => rfl
  | cons h hs ih => exact (ih _).trans (admitHolder_doors s time h)

@[simp] theorem identifiedExit_doors (id : Nat) : (identifiedExit id s).doors = s.doors := by
  unfold identifiedExit
  split
  · simp
  · dsimp only
    split <;> simp

@[simp] theorem anonymousExit_doors : (anonymousExit s).doors = s.doors := by
  unfold anonymousExit
  split <;> simp

@[simp] theorem consummate_doors (d : DoorId) : (consummate d s).doors = s.doors := by
  unfold consummate
  split
  · split
    · simp
    · split <;> simp
    · simp
  · rfl
  · rfl

@[simp] theorem notePassback_doors (hit : Bool) : (notePassback hit s).doors = s.doors := by
  unfold notePassback
  split <;> simp

@[simp] theorem adoptPosture_doors (a : Nat) (p : Posture) (e : Byte) : (adoptPosture a p e s).doors = s.doors := by
  unfold adoptPosture
  split <;> simp

@[simp] theorem rotate_doors (x : Source) : (rotate x s).doors = s.doors := by
  unfold rotate
  split <;> rfl

@[simp] theorem acknowledge_doors (x : Source) : (acknowledge x s).doors = s.doors := by
  unfold acknowledge
  split <;> simp

@[simp] theorem restoreSource_doors (x : Source) : (restoreSource x s).doors = s.doors := by
  unfold restoreSource
  dsimp only
  split <;> simp

end

/-! ## What keeps the doors safe -/

/-- An operation keeps both doors safe. -/
structure Guards (s t : State) : Prop where
  safe : s.DoorsSafe → t.DoorsSafe

namespace Guards

theorem of_doors {s t : State} (h : t.doors = s.doors) : Guards s t := ⟨fun k => by rwa [State.DoorsSafe, h]⟩

theorem refl (s : State) : Guards s s := ⟨id⟩

theorem trans {s t u : State} (h : Guards s t) (k : Guards t u) : Guards s u := ⟨fun a => k.safe (h.safe a)⟩

theorem foldl {α : Type} {f : State → α → State} (h : ∀ s x, Guards s (f s x)) (xs : List α) (s : State) :
    Guards s (xs.foldl f s) := by
  induction xs generalizing s with
  | nil => exact .refl s
  | cons x xs ih => exact (h s x).trans (ih _)

theorem of_each {s t : State} (h : ∀ d, (s.door d).Guarded → (t.door d).Guarded) : Guards s t :=
  ⟨fun k => (doorsSafe_iff t).mpr fun d => h d ((doorsSafe_iff s).mp k d)⟩

/-- One door is written. -/
theorem setDoor {s : State} {d : DoorId} {x : Door} (h : (s.door d).Guarded → x.Guarded) : Guards s (s.setDoor d x) :=
  .of_each fun e k => by
    rw [State.setDoor_door]
    split
    · next he => exact h (he ▸ k)
    · exact k

end Guards

theorem SeqOnly.guards {s t : State} (h : SeqOnly s t) : Guards s t := .of_doors h.doors_eq

/-! ## The door machine -/

theorem releaseDoor_eq (d : DoorId) (c : Credit) (s : State) :
    releaseDoor d c s = s.setDoor d ((s.door d).releasedUnder c s.now s.img.tr) := rfl

/-- R93: under lockout no door is released for entry. -/
theorem releaseDoor_guards {d : DoorId} {c : Credit} {s : State} (h : (s.door d).lockout = true → c.kind ≠ .entry) :
    Guards s (releaseDoor d c s) := by
  rw [releaseDoor_eq]
  exact .setDoor fun k => k.released h

/-- R91, R93: no request that lockout has left waiting is one for entry. -/
theorem grantRequest_guards (d : DoorId) (s : State) : Guards s (grantRequest d s) := by
  unfold grantRequest
  split
  · exact .refl s
  · next r hr =>
    refine ⟨fun k => (Guards.trans (.setDoor fun g => g.emptied _) (releaseDoor_guards fun hl => ?_)).safe k⟩
    rw [State.setDoor_door, if_pos rfl] at hl
    exact (((doorsSafe_iff s).mp k d).2 hl).2 r hr

theorem interlockTest_guards (s : State) : Guards s (interlockTest s) := by
  unfold interlockTest
  split
  · split
    · exact grantRequest_guards .b s
    · exact grantRequest_guards .a s
  · split
    · exact grantRequest_guards .b s
    · exact .refl s

theorem secureDoor_guards (d : DoorId) (s : State) : Guards s (secureDoor d s) :=
  Guards.trans (.setDoor fun g => g.secured) (interlockTest_guards _)

theorem enterHeldOpen_doors (d : DoorId) (s : State) : (enterHeldOpen d s).doors = (s.setDoor d { s.door d with
    state := .heldOpen, strike := false, window := none, heldTimer := none }).doors := by
  simp [enterHeldOpen]

theorem forceDoor_doors (d : DoorId) (s : State) :
    (forceDoor d s).doors = (s.setDoor d { s.door d with state := .forced, contactOpen := true }).doors := by
  simp [forceDoor]

theorem enterHeldOpen_guards (d : DoorId) (s : State) : Guards s (enterHeldOpen d s) := by
  refine Guards.trans (.setDoor fun g => ?_) (.of_doors (enterHeldOpen_doors d s))
  exact g.relocked nofun rfl

/-- R87: a SECURE door's strike is off. -/
theorem forceDoor_guards {d : DoorId} {s : State} (hs : (s.door d).state = .secure) : Guards s (forceDoor d s) := by
  refine Guards.trans (.setDoor fun g => ?_) (.of_doors (forceDoor_doors d s))
  refine g.relocked nofun (Bool.eq_false_iff.mpr fun hk => ?_)
  exact absurd (hs.symm.trans (g.1.mp hk)) nofun

theorem openContact_guards (d : DoorId) (s : State) : Guards s (openContact d s) := by
  unfold openContact
  split
  case h_1 => exact .setDoor fun g => g.relocked nofun rfl
  case h_2 hs => exact forceDoor_guards hs
  all_goals exact .setDoor fun g => g.congr

theorem closeContact_guards (d : DoorId) (s : State) : Guards s (closeContact d s) := by
  unfold closeContact
  split
  · exact Guards.trans (.of_doors (by simp)) (secureDoor_guards d _)
  · exact Guards.trans (.of_doors (by simp)) (secureDoor_guards d _)
  · exact secureDoor_guards d s
  · exact .refl s
  · exact .refl s

theorem pressExit_guards (d : DoorId) (s : State) : Guards s (pressExit d s) := by
  unfold pressExit
  split
  · exact releaseDoor_guards fun _ => by decide
  all_goals exact .refl s

/-! ## Lockout and credits -/

theorem lockoutOn_guards (s : State) : Guards s (lockoutOn s) := by
  have locked : Guards s s.lockedDoors := .of_each fun d g => by
    rw [lockedDoors_door]
    exact g.lockedOut
  rw [lockoutOn_eq]
  split
  · exact locked.trans (interlockTest_guards _)
  · exact locked

theorem lockoutOff_guards (s : State) : Guards s (lockoutOff s) :=
  .of_each fun d g => by cases d <;> exact g.unlocked

/-- R75, R93: of what follows from an event only lockout reaches the doors. -/
theorem settle_guards (s : State) : Guards s (settle s) := by
  have lockout (u : State) : Guards u (settleLockout u) := by
    unfold settleLockout
    split
    · exact .refl u
    · split
      · exact (lockoutOn_guards u).trans (.of_doors (by simp))
      · exact lockoutOff_guards u
  cases hr : s.running
  · rw [settle_of_stopped s hr]
    exact .refl s
  · exact ((evalOccupancy_only s).guards.trans (lockout _)).trans (.of_doors (settle_doors hr))

/-- An event that is settled. -/
theorem Guards.settled {s u : State} (h : Guards s u) : Guards s (settle u) := h.trans (settle_guards u)

/-- An event that reaches no door itself, settled. -/
theorem settled_guards {s u : State} (h : u.doors = s.doors) : Guards s (settle u) := (Guards.of_doors h).settled

theorem pendCredit_guards {d : DoorId} {c : Credit} {s : State} (h : (s.door d).lockout = true → c.kind ≠ .entry) :
    Guards s (pendCredit d c s) := by
  have counted : Guards s (s.setDoors { s.doors with counter := s.doors.counter + 1 }) :=
    .of_each fun e g => by cases e <;> exact g
  refine counted.trans (.setDoor fun g => ⟨g.1, fun hl => ⟨(g.2 hl).1, fun r hr => ?_⟩⟩)
  injection hr with e
  rw [← e]
  refine h ?_
  cases d <;> exact hl

/-- R90, R93: a door under lockout takes no ENTRY credit. -/
theorem handCredit_guards (d : DoorId) (c : Credit) (s : State) : Guards s (handCredit d c s).2 := by
  unfold handCredit
  split
  · exact .refl s
  · split
    · exact .refl s
    · next hn =>
      have free (hl : (s.door d).lockout = true) : c.kind ≠ .entry := fun k => hn ⟨k, hl⟩
      split
      · exact releaseDoor_guards free
      · exact pendCredit_guards free

theorem completeConfirm_guards (d : DoorId) (s : State) : Guards s (completeConfirm d s) := by
  unfold completeConfirm
  split
  · exact .refl s
  · refine Guards.trans ?_ (.of_doors (notePassback_doors _ _))
    exact Guards.trans (.of_doors (State.setReservation_doors s d none)) (handCredit_guards _ _ _)

theorem takeConfirm_guards (d : DoorId) (tag : Byte) (holder cls : Nat) (s : State) :
    Guards s (takeConfirm d tag holder cls s) := by
  have recorded (o : PairOutcome) (u : State) : Guards u (recordOutcome o u) := .of_doors (by simp [recordOutcome])
  unfold takeConfirm
  split
  · exact (completeConfirm_guards d s).trans (recorded _ _)
  · exact recorded _ s

theorem grantEntry_guards (p : Presentation) (holders : List Holder) (result : Result) (tag : Nat) (hit : Bool)
    (s : State) : Guards s (grantEntry p holders result tag hit s).after := by
  have h := handCredit_guards p.door (newCredit .entry holders) s
  unfold grantEntry
  generalize handCredit p.door (newCredit .entry holders) s = answer at h ⊢
  split
  · exact .refl s
  · exact .refl s
  · exact h.trans (.of_doors (notePassback_doors _ hit))
  · exact h.trans (.of_doors (notePassback_doors _ hit))

theorem presentInside_guards (p : Presentation) (s : State) : Guards s (presentInside p s).after := by
  have h := handCredit_guards p.door (newCredit .egress [plainHolder p.id p.cls]) s
  unfold presentInside
  generalize handCredit p.door (newCredit .egress [plainHolder p.id p.cls]) s = answer at h ⊢
  split
  · exact .refl s
  · exact .refl s
  · exact h
  · exact h

theorem presentOutside_guards (p : Presentation) (s : State) : Guards s (presentOutside p s).after := by
  have paired (hit : Bool) : Guards s (presentPaired p hit s).after := by
    unfold presentPaired
    split
    · exact .of_doors (by simp [reserve])
    · split
      · exact .refl s
      · exact Guards.trans (.of_doors (by simp)) (grantEntry_guards _ _ _ _ _ _)
  have escorted (hit : Bool) : Guards s (presentEscorted p hit s).after := by
    unfold presentEscorted
    split
    · exact grantEntry_guards _ _ _ _ _ s
    · split
      · exact grantEntry_guards _ _ _ _ _ s
      · exact .refl s
  unfold presentOutside
  iterate 7
    split
    · exact .refl s
  unfold modeStep
  split
  · exact grantEntry_guards _ _ _ _ _ s
  · exact grantEntry_guards _ _ _ _ _ s
  · exact escorted _
  · exact paired _
  · exact paired _
  · exact .refl s

theorem presentCredential_guards (p : Presentation) (s : State) : Guards s (presentCredential p s).2 := by
  have decided : Guards s (decidePresentation p s).after := by
    unfold decidePresentation
    split
    · exact presentInside_guards p s
    · exact presentOutside_guards p s
  exact (decided.trans (.of_doors (by simp))).settled

end Sys2Proof.Machine
end

section
/-! SUPPORT. Every command keeps both doors safe (R79, R83, R84, R88, R93): frames and filtered inputs, and the commands by
their block. -/

namespace Sys2Proof.Machine

/-! ## Commands by their kind -/

theorem elapse_guards {s t : State} {dt : Nat} (h : Guards (s.elapse dt) t) : Guards s t := ⟨h.safe⟩

theorem panelCommand_guards {α : Type} {code len : Nat} {parse : State → List Byte → Option α}
    {act : α → State → Answer × State} {dt : Nat} {rest : PanelRest} (hact : ∀ x u, Guards u (act x u).2) (s : State) :
    Guards s (panelCommand code len parse act dt rest s) :=
  ⟨panelCommand_induction (P := State.DoorsSafe) (Q := State.DoorsSafe) (fun _ _ h => h) (fun _ _ h => h) (fun _ h => h)
    fun x u => (hact x u).safe⟩

theorem receiveFrame_guards {kind : Nat} {owner : Nat → Frame → State → State} {bits : List Bool}
    (howner : ∀ a f u, Guards u (owner a f u)) (s : State) (dt : Nat) :
    Guards s (receiveFrame kind owner bits (s.elapse dt)) := by
  have heard : Guards s ((s.elapse dt).hear bits) := .of_doors (by simp)
  have delivered (a : Nat) (f : Frame) (u : State) : Guards u (deliver a f owner u) := by
    unfold deliver
    split
    · exact settled_guards rfl
    · refine Guards.settled (Guards.trans ?_ (howner a f _))
      exact Guards.trans (.of_doors (State.setPeer_doors u a _)) (evalOccupancy_only _).guards
  unfold receiveFrame
  split
  · split
    · split
      · exact heard.trans (delivered _ _ _)
      · exact heard
    · exact heard
  · exact heard

theorem inputEvent_guards {i : Input} {act : Bool → State → State} (hact : ∀ b u, Guards u (act b u)) (level : Bool)
    (e : InputEvent) (s : State) : Guards s (inputEvent i level act e s) := by
  have pins (u : State) (p : Pins) : Guards u (u.setPins p) := .of_doors rfl
  have taken (u : State) : Guards u (takeInput i act u) := (pins u _).trans (hact _ _)
  unfold inputEvent
  split
  · next dt =>
    refine elapse_guards (dt := dt) ?_
    unfold pinMoves
    split
    · exact .refl _
    · split
      · split
        · exact pins _ _
        · unfold pinReturns
          split
          · exact (taken _).trans (pins _ _)
          · exact pins _ _
      · exact pins _ _
  · split
    · split
      · exact .refl s
      · exact Guards.trans (.of_doors (State.reach_doors s _)) (taken _)
    · exact .refl s

/-! ## Start-up -/

theorem initExpiry_guards (s : State) : Guards s (initExpiry s) := by
  unfold initExpiry
  split
  · exact .of_doors rfl
  · exact .refl s

theorem referenceCycle_guards (s : State) : Guards s (referenceCycle s) := by
  unfold referenceCycle
  split
  · split
    · exact settled_guards rfl
    · exact .of_doors rfl
  · exact .refl s

theorem referenceGap_guards (s : State) : Guards s (referenceGap s) := by
  unfold referenceGap
  split
  · exact .of_doors rfl
  · exact .refl s

theorem clockLimitExpiry_guards (s : State) : Guards s (clockLimitExpiry s) := by
  unfold clockLimitExpiry
  split
  · exact settled_guards rfl
  · exact .refl s

theorem clockFallback_guards (s : State) : Guards s (clockFallback s) := by
  unfold clockFallback
  split
  · exact settled_guards rfl
  · exact .refl s

theorem joinTimerExpiry_guards (s : State) : Guards s (joinTimerExpiry s) := by
  have joined (u : State) : Guards u (enterRun u) := by
    have begun (x : Startup) (b : Bus) : Guards u ((u.setStartup x).setBus b) := .of_doors rfl
    unfold enterRun
    dsimp only
    split
    · exact (begun _ _).trans (sendNotice_only _).guards
    · exact begun _ _
  unfold joinTimerExpiry
  split
  · next t _ _ =>
    have asked : Guards s (enqueue .query (s.reach t)) := .of_doors (enqueue_doors (s.reach t) .query)
    exact (asked.trans (joined _)).settled
  · exact .refl s

/-- R80, R81: a door found open as LOAD ends is HELD_OPEN, with its strike off. -/
theorem startDoors_guards (s : State) : Guards s (startDoors s) := by
  have door (d : DoorId) (o m : Bool) (u : State) : Guards u (startDoor d o m u) := by
    have taken : Guards u (u.setDoor d { u.door d with contactOpen := o, rex := m }) := .setDoor fun g => g.congr
    unfold startDoor
    split
    · exact .refl u
    · dsimp only
      split
      · exact taken.trans (enterHeldOpen_guards d _)
      · exact taken
  unfold startDoors
  exact (Guards.trans (.setDoor fun g => g.congr) (door _ _ _ _)).trans (door _ _ _ _)

theorem abortInput_guards (made : Bool) (s : State) : Guards s (abortInput made s) := by
  unfold abortInput
  split
  · split
    · exact (abortJoin_only _ s).guards
    · exact (abortLeave_only _ s).guards
  · exact .of_doors (enqueue_doors _ _)
  · exact .refl s

theorem startInputs_guards (s : State) : Guards s (startInputs s) := by
  have found (b : Bool) (x : Source) (u : State) : Guards u (if b then trigger x u else u) := by
    split
    · exact .of_doors (trigger_doors u x)
    · exact .refl u
  have abort : Guards s (if s.pins.abort then abortInput true s else s) := by
    split
    · exact abortInput_guards true s
    · exact .refl s
  unfold startInputs
  exact (((abort.trans (found _ _ _)).trans (found _ _ _)).trans (found _ _ _)).trans (found _ _ _)

theorem endLoad_guards (i : Image) (s : State) : Guards s (endLoad i s) := by
  have lines : Guards s (startLines (keepImage i s)) := .of_doors rfl
  have outputs (u : State) : Guards u (startOutputs u) :=
    Guards.foldl (f := startOutput) (fun _ _ => .of_doors rfl) _ u
  have clock (u : State) : Guards u (enterClock u) := by
    unfold enterClock
    split <;> exact .of_doors rfl
  unfold endLoad
  exact ((((lines.trans (startDoors_guards _)).trans (startInputs_guards _)).trans (outputs _)).trans (clock _)).settled

theorem imageLoaded_guards (m : Vector Byte 96) (s : State) : Guards s (imageLoaded m s) := by
  unfold imageLoaded
  split
  case h_1 =>
    split
    · exact endLoad_guards _ s
    · exact .of_doors rfl
  all_goals exact .refl s

/-! ## Detector lines -/

theorem putLine_guards (l : Fin 4) (x : Line) (s : State) : Guards s (putLine l x s) :=
  Guards.trans (.of_doors (State.setLine_doors s l x)) (putLine_only l x s).guards

theorem risingEdge_guards (l : Fin 4) (s : State) : Guards s (risingEdge l s) := by
  unfold risingEdge
  split
  · exact .refl s
  · split <;> exact .of_doors rfl

theorem fallingEdge_guards (l : Fin 4) (s : State) : Guards s (fallingEdge l s) := by
  have pins : Guards s (setDet l false s) := .of_doors rfl
  unfold fallingEdge
  split
  · split
    · exact (pins.trans (putLine_guards l _ _)).settled
    · exact .of_doors rfl
  · exact .refl s

theorem longPulse_guards (l : Fin 4) (s : State) : Guards s (longPulse l s) := by
  unfold longPulse
  split
  · exact .refl s
  · exact (Guards.trans (.of_doors (State.reach_doors s _)) (putLine_guards l _ _)).settled

theorem stuckTimerExpiry_guards (l : Fin 4) (s : State) : Guards s (stuckTimerExpiry l s) := by
  unfold stuckTimerExpiry
  split
  · exact .refl s
  · split
    · exact settled_guards rfl
    · exact .of_doors rfl

theorem openTimerExpiry_guards (l : Fin 4) (s : State) : Guards s (openTimerExpiry l s) := by
  unfold openTimerExpiry
  split
  · exact .refl s
  · split
    · exact .of_doors rfl
    · exact settled_guards rfl

theorem resetDetection_guards (x : Option (Fin 4)) (s : State) : Guards s (resetDetection x s).2 := by
  have line (u : State) (l : Fin 4) : Guards u (resetLine u l) := by
    unfold resetLine
    split
    · exact Guards.trans (.of_doors (State.setLine_doors u l _)) (resetAccepted_only l u).guards
    · exact .refl u
  rcases resetDetection_cases x s with h | ⟨ls, h⟩ <;> rw [h]
  · exact .refl s
  · exact (Guards.foldl line ls s).settled

/-! ## The owners of frames -/

theorem addRemote_guards (a : Nat) (k : RemoteKind) (s : State) : Guards s (addRemote a k s) := by
  have evicted : Guards s (evictOldest s) := settled_guards rfl
  unfold addRemote
  split
  · exact .refl s
  · split
    · exact .of_doors rfl
    · exact evicted.trans (.of_doors rfl)

theorem removeRemote_guards (a : Nat) (k : RemoteKind) (s : State) : Guards s (removeRemote a k s) := .of_doors rfl

theorem statusOwner_guards (a : Nat) (f : Frame) (s : State) : Guards s (statusOwner a f s) := by
  have duress (c : Announcement) (u : State) : Guards u (recoverDuress a c u) := by
    unfold recoverDuress
    split
    · exact addRemote_guards a _ u
    · exact removeRemote_guards a _ u
  have firstAlarm (c : Announcement) (u : State) : Guards u (recoverFirstAlarm a c u) := by
    unfold recoverFirstAlarm
    split
    · exact removeRemote_guards a _ u
    · split
      · exact addRemote_guards a _ u
      · exact .refl u
  cases f
  case status c =>
    have lists : Guards s (settle (recoverFirstAlarm a c (settle (recoverDuress a c (settle (recoverDetections a c s)))))) :=
      ((((recoverDetections_only a c s).guards.settled).trans (duress c _)).settled.trans (firstAlarm c _)).settled
    have view := (lists.trans (recoverAbort_only a c _).guards).settled
    exact ((view.trans (.of_doors (adoptPosture_doors _ a c.posture c.epoch))).settled).trans
      (mirrorStatus_only a c _).guards
  all_goals exact .refl s

theorem queryOwner_guards (a : Nat) (f : Frame) (s : State) : Guards s (queryOwner a f s) := by
  unfold queryOwner
  split
  · exact .of_doors (askStatus_doors s)
  · exact .refl s

theorem callOwner_guards (a : Nat) (f : Frame) (s : State) : Guards s (callOwner a f s) := by
  unfold callOwner
  split
  case h_1 =>
    split
    · exact (settle_guards s).trans (actOnCall_only a _ _).guards
    · exact .refl s
  all_goals exact .refl s

theorem duressOwner_guards (a : Nat) (f : Frame) (s : State) : Guards s (duressOwner a f s) := by
  unfold duressOwner
  split
  case h_1 =>
    split
    · split
      · exact addRemote_guards a _ s
      · exact removeRemote_guards a _ s
    · exact .refl s
  all_goals exact .refl s

theorem confirmOwner_guards (a : Nat) (f : Frame) (s : State) : Guards s (confirmOwner a f s) := by
  unfold confirmOwner
  split
  case h_1 =>
    split
    · split
      · exact takeConfirm_guards _ _ _ _ s
      · exact .refl s
    · exact .refl s
  all_goals exact .refl s

theorem postureOwner_guards (a : Nat) (f : Frame) (s : State) : Guards s (postureOwner a f s) := by
  unfold postureOwner
  split
  case h_1 =>
    split
    · split
      · exact .of_doors (adoptPosture_doors s a _ _)
      · exact .refl s
    · exact .refl s
  all_goals exact .refl s

theorem silenceExpiry_guards (a : Nat) (s : State) : Guards s (silenceExpiry a s) := by
  unfold silenceExpiry
  split
  · exact .refl s
  · exact settled_guards (State.setPeer_doors _ a _)

/-! ## The Sequencer -/

theorem windowExpiry_guards (a : Nat) (l : Fin 4) (s : State) : Guards s (windowExpiry a l s) := by
  unfold windowExpiry
  split
  · exact .refl s
  · exact settled_guards (dropDetection_only a l _).doors_eq

theorem abortChange_guards (b : Bool) (s : State) : Guards s (abortChange b s) := by
  unfold abortChange
  split
  · exact (abortInput_guards b s).settled
  · exact .refl s

theorem manrelChange_guards (b : Bool) (s : State) : Guards s (manrelChange b s) := by
  unfold manrelChange
  split
  · exact settled_guards ((manualPress_only s).doors_eq.trans (trigger_doors s _))
  · exact .refl s

theorem abortStuckExpiry_guards (s : State) : Guards s (abortStuckExpiry s) := by
  unfold abortStuckExpiry
  split
  · exact .refl s
  · exact settled_guards (trigger_doors _ _)

theorem countdownExpiry_guards (s : State) : Guards s (countdownExpiry s) := by
  unfold countdownExpiry
  split
  · exact settled_guards (enterReleasing_only _).doors_eq
  · exact .refl s

theorem valveDelayExpiry_guards (s : State) : Guards s (valveDelayExpiry s) := by
  unfold valveDelayExpiry
  split
  · exact settled_guards (energiseValve_only _).doors_eq
  · exact .refl s

theorem valvePulseExpiry_guards (s : State) : Guards s (valvePulseExpiry s) := by
  unfold valvePulseExpiry
  split
  · exact settled_guards (endValvePulse_only _).doors_eq
  · exact .refl s

theorem flowChange_guards (b : Bool) (s : State) : Guards s (flowChange b s) := by
  unfold flowChange
  split
  · exact (confirmFlow_only s).guards.settled
  · exact .refl s

theorem flowWaitExpiry_guards (s : State) : Guards s (flowWaitExpiry s) := by
  unfold flowWaitExpiry
  split
  · exact .refl s
  · exact settled_guards (trigger_doors _ _)

theorem soakExpiry_guards (s : State) : Guards s (soakExpiry s) := by
  unfold soakExpiry
  split
  · exact settled_guards (enterStage_only _ _).doors_eq
  · exact .refl s

theorem noticeExpiry_guards (s : State) : Guards s (noticeExpiry s) := by
  unfold noticeExpiry
  split
  · exact .refl s
  · exact settled_guards (sendNotice_only _).doors_eq

theorem cadenceExpiry_guards (s : State) : Guards s (cadenceExpiry s) := by
  unfold cadenceExpiry
  split <;> exact .of_doors rfl

theorem suppressionReset_guards (x : Unit) (s : State) : Guards s (suppressionReset x s).2 := by
  have rejoined (u : State) : Guards u (rejoinAbort u) := by
    unfold rejoinAbort
    split
    · exact (abortJoin_only _ u).guards.settled
    · exact .refl u
  unfold suppressionReset
  iterate 3
    split
    · exact .refl s
  exact ((resetSequence_only s).guards.settled).trans (rejoined _)

theorem suppressionIsolate_guards (on : Bool) (s : State) : Guards s (suppressionIsolate on s).2 := by
  rcases suppressionIsolate_cases on s with h | ⟨st, h⟩ <;> rw [h]
  · exact .refl s
  · exact (enterStage_only st s).guards.settled

end Sys2Proof.Machine
end

section
/-! SUPPORT. Every command keeps both doors safe: the blocks beside the Sequencer, and the walk over every command (O57). -/

namespace Sys2Proof.Machine

/-! ## Doors, entry, roster, posture and outputs -/

theorem contactChange_guards (d : DoorId) (b : Bool) (s : State) : Guards s (contactChange d b s) := by
  have closed : Guards s (s.setDoor d { s.door d with contactOpen := false }) := .setDoor fun g => g.congr
  unfold contactChange
  split
  · split
    · exact (openContact_guards d s).settled
    · exact (closed.trans (closeContact_guards d _)).settled
  · exact .refl s

theorem exitChange_guards (d : DoorId) (b : Bool) (s : State) : Guards s (exitChange d b s) := by
  have taken : Guards s (s.setDoor d { s.door d with rex := b }) := .setDoor fun g => g.congr
  unfold exitChange
  dsimp only
  split
  · split
    · exact (taken.trans (pressExit_guards d _)).settled
    · exact taken
  · exact .refl s

theorem releaseExpiry_guards (d : DoorId) (s : State) : Guards s (releaseExpiry d s) := by
  unfold releaseExpiry
  split
  · exact (Guards.trans (.of_doors (State.reach_doors s _)) (secureDoor_guards d _)).settled
  · exact .refl s

theorem heldExpiry_guards (d : DoorId) (s : State) : Guards s (heldExpiry d s) := by
  unfold heldExpiry
  split
  · exact (Guards.trans (.of_doors (State.reach_doors s _)) (enterHeldOpen_guards d _)).settled
  · exact .refl s

theorem waitExpiry_guards (d : DoorId) (s : State) : Guards s (waitExpiry d s) := by
  have expired (t : Nat) :
      Guards (s.reach t) ((s.reach t).setDoor d { s.door d with request := none, lastPending := .expired }) :=
    .setDoor fun g => Door.Guarded.emptied (x := s.door d) (by cases d <;> exact g) _
  unfold waitExpiry
  split
  · exact .refl s
  · exact Guards.trans (.of_doors (State.reach_doors s _)) (expired _)

theorem pairExpiry_guards (d : DoorId) (s : State) : Guards s (pairExpiry d s) := by
  unfold pairExpiry
  split
  · exact .refl s
  · exact .of_doors (breakAt_doors _ d)

theorem zoneSweep_guards (x : Unit) (s : State) : Guards s (zoneSweep x s).2 := by
  unfold zoneSweep
  split
  · exact settled_guards rfl
  · exact .refl s

theorem setPosture_guards (p : Posture) (s : State) : Guards s (setPosture p s).2 := by
  unfold setPosture
  iterate 2
    split
    · exact .refl s
  exact settled_guards (by simp [acceptPosture])

theorem forceOutput_guards (x : Fin 12 × Bool) (s : State) : Guards s (forceOutput x s).2 := by
  unfold forceOutput
  split
  · exact .refl s
  · exact settled_guards rfl

theorem releaseOutput_guards (l : Fin 12) (s : State) : Guards s (releaseOutput l s).2 :=
  settled_guards (State.setOutput_doors s l _)

theorem senseChange_guards (l : Fin 12) (high : Bool) (s : State) : Guards s (senseChange l high s) := by
  unfold senseChange
  split
  · exact .refl s
  · dsimp only
    split
    · exact settled_guards rfl
    · exact .of_doors rfl

theorem mismatchExpiry_guards (l : Fin 12) (s : State) : Guards s (mismatchExpiry l s) := by
  unfold mismatchExpiry
  split
  · exact .refl s
  · exact settled_guards rfl

/-! ## Alarms -/

theorem duressChange_guards (d : DuressInput) (b : Bool) (s : State) : Guards s (duressChange d b s) := by
  unfold duressChange
  split
  · exact settled_guards (trigger_doors s _)
  · exact .refl s

theorem tamperChange_guards (b : Bool) (s : State) : Guards s (tamperChange b s) := by
  unfold tamperChange
  split
  · exact settled_guards (trigger_doors s _)
  · exact .refl s

theorem nextAlarm_guards (x : Unit) (s : State) : Guards s (nextAlarm x s).2 := by
  unfold nextAlarm
  split
  · exact settled_guards (acknowledge_doors s _)
  · exact .of_doors rfl

theorem restoreAlarm_guards (x : Source) (s : State) : Guards s (restoreAlarm x s).2 := by
  unfold restoreAlarm
  iterate 4
    split
    · exact .refl s
  exact settled_guards (restoreSource_doors s x)

theorem maskAlarm_guards (x : Source × Bool) (s : State) : Guards s (maskAlarm x s).2 := by
  unfold maskAlarm
  split
  · exact .refl s
  · exact settled_guards rfl

theorem confirmRemote_guards (f : Frame) (s : State) : Guards s (confirmRemote f s).2 :=
  settled_guards (enqueue_doors s f)

/-! ## The zone bus and the panel port -/

theorem beginFrame_guards (s : State) : Guards s (beginFrame s) := by
  unfold beginFrame
  split
  · exact .refl s
  · split
    · exact .of_doors rfl
    · exact .refl s

theorem loseArbitration_guards (s : State) : Guards s (loseArbitration s) := by
  unfold loseArbitration
  split
  · exact .refl s
  · exact settled_guards (returnFrame_doors _ _)

theorem bitError_guards (bits : List Bool) (s : State) : Guards s (bitError bits s) := by
  unfold bitError
  split
  · exact .refl s
  · exact settled_guards (by simp)

theorem quietExpiry_guards (s : State) : Guards s (quietExpiry s) := by
  unfold quietExpiry
  split
  · exact .refl s
  · exact settled_guards rfl

theorem completeFrame_guards (s : State) : Guards s (completeFrame s) := by
  unfold completeFrame
  split
  · exact .refl s
  · exact .of_doors (State.hear_doors s _)

theorem setStuck_guards (b : Bool) (s : State) : Guards s (setStuck b s) := by
  unfold setStuck
  split
  · exact settled_guards rfl
  · exact .refl s

theorem firstStatusExpiry_guards (s : State) : Guards s (firstStatusExpiry s) := by
  unfold firstStatusExpiry
  split
  · exact .refl s
  · exact settled_guards (sendStatus_doors _)

theorem statusExpiry_guards (s : State) : Guards s (statusExpiry s) := by
  have line (u : State) (l : Fin 4) : Guards u (ownCheckLine u l) := by
    unfold ownCheckLine
    split
    · exact (detect_only _ _ _ _ u).guards
    · exact .refl u
  unfold statusExpiry
  split
  · exact .refl s
  · next t _ =>
    have checked : Guards s (ownCheck (s.reach t)) :=
      Guards.trans (.of_doors (State.reach_doors s t)) (Guards.foldl line allLines _)
    exact (checked.trans (.of_doors (sendStatus_doors _))).settled

theorem readReply_guards (clocked before : Nat) (s : State) : Guards s (readReply clocked before s) := by
  have port (p : Port) : Guards s (s.setPort p) := .of_doors rfl
  unfold readReply
  split
  · exact .refl s
  · split
    · split <;> exact port _
    · exact port _

theorem unknownCode_guards (code : Nat) (rest : PanelRest) (s : State) : Guards s (unknownCode code rest s) := by
  unfold unknownCode
  split
  · exact ⟨commandFrame_induction (P := State.DoorsSafe) (Q := State.DoorsSafe) (fun _ _ h => h) (fun _ _ h => h)
      (fun _ h => h) fun _ h => h⟩
  · exact .refl s

theorem latchTimes_guards (x : Unit) (s : State) : Guards s (latchTimes x s).2 := by
  unfold latchTimes
  split
  · exact .refl s
  · exact .of_doors rfl

theorem readTimes_guards (x : Unit) (s : State) : Guards s (readTimes x s).2 := by
  unfold readTimes
  split
  · exact .of_doors rfl
  · exact .refl s

/-- The owner of a panel command that only reports. -/
theorem report_guards {α : Type} {act : α → State → Answer × State} (h : ∀ x u, (act x u).2 = u) (x : α) (u : State) :
    Guards u (act x u).2 := by
  rw [h]
  exact .refl u

/-! ## Every command -/

/-- R79: after a reset both doors are as at power-up. -/
theorem resetKeeping_guards (cold : Bool) (s : State) : Guards s (resetKeeping cold s) := ⟨fun _ => reset_doorsSafe⟩

theorem exec_guards (c : Instr) (s : State) : ∃ t, exec c s = .next t ∧ Guards s t := by
  cases c with
  | powerOnReset => exact ⟨_, rfl, resetKeeping_guards true s⟩
  | pinReset => exact ⟨_, rfl, resetKeeping_guards _ s⟩
  | imageLoadComplete dt m => exact ⟨_, rfl, elapse_guards (imageLoaded_guards m _)⟩
  | silenceTimerExpiry a => exact ⟨_, rfl, silenceExpiry_guards a s⟩
  | manrelMade e b => exact ⟨_, rfl, inputEvent_guards manrelChange_guards b e s⟩
  | releaseCallFrame dt bits => exact ⟨_, rfl, receiveFrame_guards callOwner_guards s dt⟩
  | resetDetection dt rest => exact ⟨_, rfl, panelCommand_guards resetDetection_guards s⟩
  | suppressionIsolate dt rest => exact ⟨_, rfl, panelCommand_guards suppressionIsolate_guards s⟩
  | initExpiry => exact ⟨_, rfl, initExpiry_guards s⟩
  | referenceCycle dt => exact ⟨_, rfl, elapse_guards (referenceCycle_guards _)⟩
  | referenceGap dt => exact ⟨_, rfl, elapse_guards (referenceGap_guards _)⟩
  | clockLimitExpiry => exact ⟨_, rfl, clockLimitExpiry_guards s⟩
  | clockFallback dt => exact ⟨_, rfl, elapse_guards (clockFallback_guards _)⟩
  | joinTimerExpiry => exact ⟨_, rfl, joinTimerExpiry_guards s⟩
  | detectorRisingEdge dt l => exact ⟨_, rfl, elapse_guards (risingEdge_guards l _)⟩
  | detectorFallingEdge dt l => exact ⟨_, rfl, elapse_guards (fallingEdge_guards l _)⟩
  | longPulse l => exact ⟨_, rfl, longPulse_guards l s⟩
  | stuckTimerExpiry l => exact ⟨_, rfl, stuckTimerExpiry_guards l s⟩
  | openTimerExpiry l => exact ⟨_, rfl, openTimerExpiry_guards l s⟩
  | readDetector dt rest => exact ⟨_, rfl, panelCommand_guards (report_guards fun _ _ => rfl) s⟩
  | statusFrame dt bits => exact ⟨_, rfl, receiveFrame_guards statusOwner_guards s dt⟩
  | queryFrame dt bits => exact ⟨_, rfl, receiveFrame_guards queryOwner_guards s dt⟩
  | readPeer dt rest => exact ⟨_, rfl, panelCommand_guards (report_guards fun _ _ => rfl) s⟩
  | detectFrame dt bits => exact ⟨_, rfl, receiveFrame_guards (fun a f u => (detectOwner_only a f u).guards) s dt⟩
  | windowTimerExpiry a l => exact ⟨_, rfl, windowExpiry_guards a l s⟩
  | abortInputChange e b => exact ⟨_, rfl, inputEvent_guards abortChange_guards b e s⟩
  | abortStuckExpiry => exact ⟨_, rfl, abortStuckExpiry_guards s⟩
  | countdownExpiry => exact ⟨_, rfl, countdownExpiry_guards s⟩
  | valveDelayExpiry => exact ⟨_, rfl, valveDelayExpiry_guards s⟩
  | valvePulseExpiry => exact ⟨_, rfl, valvePulseExpiry_guards s⟩
  | flowMade e b => exact ⟨_, rfl, inputEvent_guards flowChange_guards b e s⟩
  | flowWaitExpiry => exact ⟨_, rfl, flowWaitExpiry_guards s⟩
  | soakTimerExpiry => exact ⟨_, rfl, soakExpiry_guards s⟩
  | vsupChange dt b => exact ⟨_, rfl, settled_guards (u := (s.elapse dt).setPins _) rfl⟩
  | noticeTimerExpiry => exact ⟨_, rfl, noticeExpiry_guards s⟩
  | suppressionReset dt rest => exact ⟨_, rfl, panelCommand_guards suppressionReset_guards s⟩
  | releaseNoticeFrame dt bits => exact ⟨_, rfl, receiveFrame_guards (fun a f u => (noticeOwner_only a f u).guards) s dt⟩
  | cadencePhaseExpiry => exact ⟨_, rfl, cadenceExpiry_guards s⟩
  | doorContactOpens e d => exact ⟨_, rfl, inputEvent_guards (contactChange_guards d) true e s⟩
  | doorContactCloses e d => exact ⟨_, rfl, inputEvent_guards (contactChange_guards d) false e s⟩
  | requestToExitPress e d b => exact ⟨_, rfl, inputEvent_guards (exitChange_guards d) b e s⟩
  | releaseWindowExpiry d => exact ⟨_, rfl, releaseExpiry_guards d s⟩
  | heldTimerExpiry d => exact ⟨_, rfl, heldExpiry_guards d s⟩
  | pendingWaitExpiry d => exact ⟨_, rfl, waitExpiry_guards d s⟩
  | presentCredential dt rest => exact ⟨_, rfl, panelCommand_guards presentCredential_guards s⟩
  | pairWindowExpiry d => exact ⟨_, rfl, pairExpiry_guards d s⟩
  | confirmRemote dt rest => exact ⟨_, rfl, panelCommand_guards confirmRemote_guards s⟩
  | confirmFrame dt bits => exact ⟨_, rfl, receiveFrame_guards confirmOwner_guards s dt⟩
  | zoneSweep dt rest => exact ⟨_, rfl, panelCommand_guards zoneSweep_guards s⟩
  | readRoster dt rest => exact ⟨_, rfl, panelCommand_guards (report_guards fun _ _ => rfl) s⟩
  | setPosture dt rest => exact ⟨_, rfl, panelCommand_guards setPosture_guards s⟩
  | postureFrame dt bits => exact ⟨_, rfl, receiveFrame_guards postureOwner_guards s dt⟩
  | forceOutput dt rest => exact ⟨_, rfl, panelCommand_guards forceOutput_guards s⟩
  | releaseOutput dt rest => exact ⟨_, rfl, panelCommand_guards releaseOutput_guards s⟩
  | readOutputs dt rest => exact ⟨_, rfl, panelCommand_guards (report_guards fun _ _ => rfl) s⟩
  | senseInputChange dt l b => exact ⟨_, rfl, elapse_guards (senseChange_guards l b _)⟩
  | mismatchTimerExpiry l => exact ⟨_, rfl, mismatchExpiry_guards l s⟩
  | duressInputChange e d b => exact ⟨_, rfl, inputEvent_guards (duressChange_guards d) b e s⟩
  | tamperInputChange e b => exact ⟨_, rfl, inputEvent_guards tamperChange_guards b e s⟩
  | nextAlarm dt rest => exact ⟨_, rfl, panelCommand_guards nextAlarm_guards s⟩
  | restoreAlarm dt rest => exact ⟨_, rfl, panelCommand_guards restoreAlarm_guards s⟩
  | maskAlarm dt rest => exact ⟨_, rfl, panelCommand_guards maskAlarm_guards s⟩
  | readSources dt rest => exact ⟨_, rfl, panelCommand_guards (report_guards fun _ _ => rfl) s⟩
  | duressFrame dt bits => exact ⟨_, rfl, receiveFrame_guards duressOwner_guards s dt⟩
  | readRemoteList dt rest =>
    exact ⟨_, rfl, panelCommand_guards (act := readRemoteList) (fun _ _ => .of_doors rfl) s⟩
  | beginTransmission dt levels =>
    exact ⟨_, rfl, elapse_guards (Guards.trans (.of_doors (State.hear_doors _ levels)) (beginFrame_guards _))⟩
  | arbitrationLoss dt => exact ⟨_, rfl, elapse_guards (loseArbitration_guards _)⟩
  | ownBitError back => exact ⟨_, rfl, elapse_guards (bitError_guards back.bits _)⟩
  | quietSpellExpiry => exact ⟨_, rfl, quietExpiry_guards s⟩
  | transmissionComplete dt => exact ⟨_, rfl, elapse_guards (completeFrame_guards _)⟩
  | busStuck dt => exact ⟨_, rfl, elapse_guards (setStuck_guards true _)⟩
  | busStuckEnd dt => exact ⟨_, rfl, elapse_guards (setStuck_guards false _)⟩
  | receiveDiscard dt bits => exact ⟨_, rfl, elapse_guards (.of_doors (State.hear_doors _ bits))⟩
  | firstStatusDelayExpiry => exact ⟨_, rfl, firstStatusExpiry_guards s⟩
  | statusTimerExpiry => exact ⟨_, rfl, statusExpiry_guards s⟩
  | replyRead dt n b => exact ⟨_, rfl, elapse_guards (readReply_guards n b _)⟩
  | unknownCommand dt k rest => exact ⟨_, rfl, elapse_guards (unknownCode_guards k rest _)⟩
  | getStatus dt rest => exact ⟨_, rfl, panelCommand_guards (act := getStatus) (fun _ _ => .of_doors rfl) s⟩
  | latchTimes dt rest => exact ⟨_, rfl, panelCommand_guards latchTimes_guards s⟩
  | readTimes dt rest => exact ⟨_, rfl, panelCommand_guards readTimes_guards s⟩

theorem exec_doorsSafe {c : Instr} {s t : State} (h : exec c s = .next t) (hs : s.DoorsSafe) : t.DoorsSafe := by
  obtain ⟨u, hu, g⟩ := exec_guards c s
  rw [hu] at h
  injection h with e
  exact e ▸ g.safe hs

/-- Settles O57, by the command that the step takes: one that waits, the station's next timer, or none. -/
theorem doorsStaySafe : Obligations.DoorsStaySafe := by
  intro s t hs h
  unfold step at h
  split at h
  · next c rest _ => exact exec_doorsSafe (s := { s with pending := rest }) h hs
  · split at h
    · exact exec_doorsSafe h hs
    · injection h with e
      exact e ▸ hs

end Sys2Proof.Machine
end

section
/-! SUPPORT. Filtered inputs (R53, R80, R156): which change each input makes, what no such change reaches, and the twenty
milliseconds of the filter (O28). -/

namespace Sys2Proof.Machine

/-! ## Hand-offs beside the roster -/

/-- `t` follows from `s` by hand-offs and by what a passage does to the roster. -/
def Passed (s t : State) : Prop := Handed (s.setRoster t.roster) t

theorem Handed.setRoster {s t : State} (h : Handed s t) (r : Roster) : Handed (s.setRoster r) (t.setRoster r) :=
  { h with roster := rfl }

theorem Handed.passed {s t : State} (h : Handed s t) : Passed s t := by
  unfold Passed
  rw [h.roster]
  exact h

theorem Passed.refl (s : State) : Passed s s := (Handed.refl s).passed

theorem Passed.trans {s t u : State} (h : Passed s t) (k : Passed t u) : Passed s u :=
  (Handed.setRoster h u.roster).trans k

theorem setRoster_passed (s : State) (r : Roster) : Passed s (s.setRoster r) := Handed.refl _

theorem SeqOnly.passed {s t : State} (h : SeqOnly s t) : Passed s t := h.toHanded.passed

theorem setDoor_passed (s : State) (d : DoorId) (x : Door) : Passed s (s.setDoor d x) :=
  (setDoor_pushed s d x).toHanded.passed

theorem settle_passed (s : State) : Passed s (settle s) := (settle_handed s).passed

theorem Passed.settled {s u : State} (h : Passed s u) : Passed s (settle u) := h.trans (settle_passed u)

theorem trigger_passed (x : Source) (s : State) (hx : x.kind ≠ .level) : Passed s (trigger x s) :=
  (trigger_only x s hx).toHanded.passed

theorem breakReservations_passed (s : State) : Passed s (breakReservations s) :=
  (breakReservations_pushed s).toHanded.passed

/-! ## Passages -/

theorem setDoubt_passed (c : DoubtCause) (s : State) : Passed s (setDoubt c s) := by
  unfold setDoubt
  split
  · exact .refl s
  · exact setRoster_passed s _

theorem rosterEntry_passed (holders : List Holder) (s : State) : Passed s (rosterEntry holders s) := by
  have admitted (time : Nat) (u : State) (h : Holder) : Passed u (admitHolder time u h) := by
    unfold admitHolder
    split
    · exact .refl u
    · split
      · exact setRoster_passed u _
      · exact setDoubt_passed _ u
  unfold rosterEntry
  generalize s.presentTime = time
  induction holders generalizing s with
  | nil => exact .refl s
  | cons h hs ih => exact (admitted time s h).trans (ih _)

theorem identifiedExit_passed (id : Nat) (s : State) : Passed s (identifiedExit id s) := by
  unfold identifiedExit
  split
  · exact trigger_passed _ s (by decide)
  · dsimp only
    split
    · exact (setRoster_passed s _).trans (trigger_passed _ _ (by decide))
    · exact setRoster_passed s _

theorem anonymousExit_passed (s : State) : Passed s (anonymousExit s) := by
  unfold anonymousExit
  split
  · exact .refl s
  · exact setRoster_passed s _
  · exact setDoubt_passed _ s

theorem consummate_passed (d : DoorId) (s : State) : Passed s (consummate d s) := by
  unfold consummate
  split
  · split
    · exact rosterEntry_passed _ s
    · split
      · exact identifiedExit_passed _ s
      · exact .refl s
    · exact anonymousExit_passed s
  · exact .refl s
  · exact .refl s

theorem secureDoor_passed (d : DoorId) (s : State) : Passed s (secureDoor d s) :=
  (secureDoor_pushed d s).toHanded.passed

theorem closeContact_passed (d : DoorId) (s : State) : Passed s (closeContact d s) := by
  unfold closeContact
  split
  · exact (consummate_passed d s).trans (secureDoor_passed d _)
  · exact (consummate_passed d s).trans (secureDoor_passed d _)
  · exact secureDoor_passed d s
  · exact .refl s
  · exact .refl s

theorem enterHeldOpen_passed (d : DoorId) (s : State) : Passed s (enterHeldOpen d s) :=
  ((setDoor_passed s d _).trans (setDoubt_passed _ _)).trans (breakReservations_passed _)

theorem forceDoor_passed (d : DoorId) (s : State) : Passed s (forceDoor d s) :=
  (((setDoor_passed s d _).trans (trigger_passed (forcedSource d) _ (by cases d <;> decide))).trans
    (setDoubt_passed _ _)).trans (breakReservations_passed _)

/-! ## The change at an input -/

theorem contactChange_passed (d : DoorId) (b : Bool) (s : State) : Passed s (contactChange d b s) := by
  have opened (u : State) : Passed u (openContact d u) := by
    unfold openContact
    split
    case h_2 => exact forceDoor_passed d u
    all_goals exact setDoor_passed u d _
  unfold contactChange
  split
  · split
    · exact (opened s).settled
    · exact ((setDoor_passed s d _).trans (closeContact_passed d _)).settled
  · exact .refl s

theorem exitChange_passed (d : DoorId) (b : Bool) (s : State) : Passed s (exitChange d b s) := by
  have pressed (u : State) : Passed u (pressExit d u) := by
    unfold pressExit
    split
    · exact (releaseDoor_pushed d _ u).toHanded.passed
    all_goals exact .refl u
  unfold exitChange
  dsimp only
  split
  · split
    · exact ((setDoor_passed s d _).trans (pressed _)).settled
    · exact setDoor_passed s d _
  · exact .refl s

theorem abortChange_passed (b : Bool) (s : State) : Passed s (abortChange b s) := by
  have moved : SeqOnly s (abortInput b s) := by
    unfold abortInput
    split
    · split
      · exact abortJoin_only _ s
      · exact abortLeave_only _ s
    · exact (enqueue_only _ s).toSeqOnly
    · exact .refl s
  unfold abortChange
  split
  · exact moved.passed.settled
  · exact .refl s

theorem manrelChange_passed (b : Bool) (s : State) : Passed s (manrelChange b s) := by
  unfold manrelChange
  split
  · exact ((trigger_passed _ s (by decide)).trans (manualPress_only s).passed).settled
  · exact .refl s

theorem flowChange_passed (b : Bool) (s : State) : Passed s (flowChange b s) := by
  unfold flowChange
  split
  · exact (confirmFlow_only s).passed.settled
  · exact .refl s

theorem duressChange_passed (d : DuressInput) (b : Bool) (s : State) : Passed s (duressChange d b s) := by
  unfold duressChange
  split
  · exact (trigger_passed (duressSource d) s (by cases d <;> decide)).settled
  · exact .refl s

theorem tamperChange_passed (b : Bool) (s : State) : Passed s (tamperChange b s) := by
  unfold tamperChange
  split
  · exact (trigger_passed _ s (by decide)).settled
  · exact .refl s

/-- What the owner of a filtered input does with a change that is taken. -/
def inputChange : Input → Bool → State → State
  | .dca => contactChange .a
  | .dcb => contactChange .b
  | .rexA => exitChange .a
  | .rexB => exitChange .b
  | .abort => abortChange
  | .manrel => manrelChange
  | .flow => flowChange
  | .dur1 => duressChange .dur1
  | .dur2 => duressChange .dur2
  | .tamper => tamperChange

theorem inputChange_passed (i : Input) (b : Bool) (s : State) : Passed s (inputChange i b s) := by
  cases i
  case dca => exact contactChange_passed .a b s
  case dcb => exact contactChange_passed .b b s
  case rexA => exact exitChange_passed .a b s
  case rexB => exact exitChange_passed .b b s
  case abort => exact abortChange_passed b s
  case manrel => exact manrelChange_passed b s
  case flow => exact flowChange_passed b s
  case dur1 => exact duressChange_passed .dur1 b s
  case dur2 => exact duressChange_passed .dur2 b s
  case tamper => exact tamperChange_passed b s

/-- R53, R80, R156: each of the eight rows is an event of its input, whose owner takes the change. -/
theorem exec_of_inputCall {i : Instr} {c : InputCall} (s : State) (h : inputCall i = some c) :
    exec i s = .next (inputEvent c.input c.level (inputChange c.input) c.event s) := by
  cases i
  case doorContactOpens e d => obtain rfl := Option.some.inj h; cases d <;> rfl
  case doorContactCloses e d => obtain rfl := Option.some.inj h; cases d <;> rfl
  case requestToExitPress e d b => obtain rfl := Option.some.inj h; cases d <;> rfl
  case abortInputChange e b => obtain rfl := Option.some.inj h; rfl
  case manrelMade e b => obtain rfl := Option.some.inj h; rfl
  case flowMade e b => obtain rfl := Option.some.inj h; rfl
  case duressInputChange e d b => obtain rfl := Option.some.inj h; cases d <;> rfl
  case tamperInputChange e b => obtain rfl := Option.some.inj h; rfl
  all_goals exact nomatch h

/-! ## The filter -/

theorem raw_ne_iff (p : Pins) (i : Input) (b : Bool) : p.raw i ≠ b ↔
    (p.filter i = none ∧ p.level i = !b) ∨ ((∃ f, p.filter i = some f) ∧ p.level i = b) := by
  unfold Pins.raw
  cases p.filter i <;> cases p.level i <;> cases b <;> simp

theorem reach_of_le {s : State} {t : Nat} (h : t ≤ s.now) : s.reach t = s := by
  unfold State.reach
  rw [Nat.max_eq_left h]

section
variable {i : Instr} {c : InputCall} {s : State} (hc : inputCall i = some c)
include hc

/-- R80: a change that is taken: the level is the new one, the filter is at rest, and the time is the filter's end. -/
theorem held_takes (he : c.event = .held) {f : Nat} (hf : s.pins.filter c.input = some f)
    (hl : s.pins.level c.input ≠ c.level) :
    exec i s = .next (inputChange c.input c.level (s.changed f c.input c.level)) := by
  rw [exec_of_inputCall s hc, he, inputEvent_held _ _ _ s f hf (Bool.eq_not.mpr hl)]
  rfl

/-- R80, log entry 13: the pin returns after the end of the filter: the change has been taken first. -/
theorem moves_late {dt f : Nat} (he : c.event = .moves dt) (hr : s.running = true) (hf : s.pins.filter c.input = some f)
    (hl : s.pins.level c.input = c.level) (ht : f ≤ s.now + dt) : exec i s =
      .next (startFilter c.input (inputChange c.input (!c.level) ((s.elapse dt).changed f c.input (!c.level)))) := by
  rw [exec_of_inputCall s hc, he]
  refine congrArg Host.Outcome.next ((pinMoves_late _ _ _ (s.elapse dt) f hr hf hl ht).trans ?_)
  rw [State.changed, reach_of_le (s := s.elapse dt) ht]

end

/-- Settles O28, by the state of the filter as the event finds it. -/
theorem inputsAreFiltered : Obligations.InputsAreFiltered := by
  intro i c s hc
  have move {dt : Nat} (he : c.event = .moves dt) {t : State}
      (h : pinMoves c.input c.level (inputChange c.input) (s.elapse dt) = t) : exec i s = .next t := by
    rw [exec_of_inputCall s hc, he]
    exact congrArg Host.Outcome.next h
  refine ⟨fun dt he => ⟨fun h => move he (pinMoves_stays _ _ _ (s.elapse dt) h),
    fun h hr => move he (pinMoves_stopped _ _ _ (s.elapse dt) hr h), fun h hr => ⟨fun hf => ?_, fun f hf ht => ?_,
    fun f j t hf ht hj hx => ?_⟩⟩, fun he => ⟨fun h => ?_, fun f hf hl => ?_⟩⟩
  · have hl : s.pins.level c.input = !c.level := by simpa [hf] using (raw_ne_iff _ _ _).mp h
    exact move he (pinMoves_starts _ _ _ (s.elapse dt) hr hf hl)
  · have hl : s.pins.level c.input = c.level := by simpa [hf] using (raw_ne_iff _ _ _).mp h
    exact move he (pinMoves_returns _ _ _ (s.elapse dt) f hr hf hl ht)
  · have hl : s.pins.level c.input = c.level := by simpa [hf] using (raw_ne_iff _ _ _).mp h
    have hne : s.pins.level c.input ≠ !c.level := by rw [hl]; cases c.level <;> decide
    have hx' := (held_takes (s := s.elapse dt) hj rfl hf hne).symm.trans hx
    injection hx' with taken
    have hnow : t.now = s.now + dt := by
      rw [← taken, (inputChange_passed _ _ _).now]
      exact Nat.max_eq_left ht
    rw [moves_late hc he hr hf hl ht, taken, startFilter, hnow]
    rfl
  · rw [exec_of_inputCall s hc, he, inputEvent_held_none _ _ _ _ h]
  · have passed := inputChange_passed c.input c.level (s.changed f c.input c.level)
    exact ⟨_, held_takes hc he hf hl, passed.pins, passed.now⟩

end Sys2Proof.Machine
end

section
/-! SUPPORT. The doors (R80 to R92): what an event at a door leaves of the area stage and of lockout, the contact by the
door's state, and the interlock test once the event is settled (O29, O30, O32). -/

namespace Sys2Proof.Machine

/-! ## The area stage and lockout -/

/-- R75: what leaves the image and the Sequencer leaves the area stage on its side of lockout. -/
theorem lockoutStage_of_basis {s t : State} (h : t.basis = s.basis) : t.lockoutStage = s.lockoutStage := by
  obtain ⟨hi, hq⟩ := of_basis h
  rw [lockoutStage_of_shown, lockoutStage_of_shown, shownStage_congr (role_congr hi) (by rw [hq]) (by rw [hq])]

/-- R75, R93: where lockout stands as the stage has it, an event that moves neither leaves the doors to itself. -/
theorem settle_doors_of_basis {s u : State} (hb : u.basis = s.basis) (hl : u.doors.a.lockout = s.doors.a.lockout)
    (h : s.lockoutStage = s.doors.a.lockout) : (settle u).doors = u.doors :=
  (settle_after u).doors ((lockoutStage_of_basis hb).trans (h.trans hl.symm))

/-! ## Doubt and broken reservations -/

/-- R124, R127: the roster in doubt; the cause is the first. -/
theorem setDoubt_roster (c : DoubtCause) (s : State) : (setDoubt c s).roster =
    { s.roster with doubtful := true, cause := if s.roster.doubtful then s.roster.cause else c } := by
  unfold setDoubt
  split
  · next h =>
    have same : s.roster = { s.roster with doubtful := s.roster.doubtful } := rfl
    rwa [h] at same
  · rfl

/-- R112: the reservations that an event breaks, once it is settled. -/
theorem settle_breakReservations (s : State) : (∀ e, (settle (breakReservations s)).reservation e = none) ∧
    ∀ e, (s.reservation e).isSome = true → (settle (breakReservations s)).broken e = true ∧
      ((settle (breakReservations s)).source .pairBroken).pending = true := by
  have after := settle_after (breakReservations s)
  have gone (e : DoorId) : (breakReservations s).reservation e = none := breakReservations_none s e
  refine ⟨fun e => ?_, fun e h => ?_⟩
  · rcases after.reservations e with ⟨k, -⟩ | ⟨k, -⟩
    · exact k.trans (gone e)
    · exact k
  · have lost : (breakReservations s).reservation e ≠ s.reservation e := by
      rw [gone]
      exact fun k => by rw [← k] at h; cases h
    refine ⟨?_, after.handed.raisedStay _ (by decide) ((breakReservations_posed s).broke ⟨e, lost⟩)⟩
    rcases after.reservations e with ⟨-, k⟩ | ⟨-, k, -⟩
    · rcases breakReservations_broke s e with ⟨j, -⟩ | ⟨-, j, -⟩
      · exact absurd j lost
      · exact k.trans j
    · exact k

/-- R28, R56: with the roster in doubt the area is occupied, and no countdown starts. -/
theorem noStart_of_doubtful {s : State} (h : s.roster.doubtful = true) : s.NoStart :=
  .inr (.inr (.inl ((areaOccupied_iff s).mpr (.inr (.inl h)))))

/-- R86, R87, R112: what `t` is after a door alarm in `s`: the roster is in doubt for a cause, every reservation is broken,
and everything else stands but for the hand-offs. -/
structure Doubted (c : DoubtCause) (s t : State) : Prop where
  reservations : ∀ e, t.reservation e = none
  broken : ∀ e, (s.reservation e).isSome = true → t.broken e = true ∧ (t.source .pairBroken).pending = true
  seq : t.seq.apart = s.seq.apart
  handed : Handed (s.setRoster { s.roster with
    doubtful := true, cause := if s.roster.doubtful then s.roster.cause else c }) t

/-- R86, R87, R112: the door `v` has been written and its source raised; doubt and the broken reservations follow. -/
theorem settle_doubted {s v : State} (c : DoubtCause) (h : Handed s v) (hb : v.basis = s.basis) (he : v.entry = s.entry) :
    Doubted c s (settle (breakReservations (setDoubt c v))) := by
  obtain ⟨-, hseq, hentry, -, hdoubt⟩ := setDoubt_rest c v
  have broke := breakReservations_pushed (setDoubt c v)
  obtain ⟨gone, told⟩ := settle_breakReservations (setDoubt c v)
  have same (e : DoorId) : (setDoubt c v).reservation e = s.reservation e := by
    cases e <;> simp only [State.reservation, hentry, he]
  refine ⟨gone, fun e k => told e ((same e).symm ▸ k), ?_, ?_⟩
  · have still := (settle_after (breakReservations (setDoubt c v))).seq (noStart_of_doubtful (broke.roster.symm ▸ hdoubt))
    rw [still, (breakReservations_rest _).1, hseq, (of_basis hb).2]
  · have passed : Passed s (settle (breakReservations (setDoubt c v))) :=
      ((h.passed.trans (setDoubt_passed c v)).trans (breakReservations_passed _)).settled
    have roster : (settle (breakReservations (setDoubt c v))).roster = (setDoubt c v).roster :=
      (settle_handed _).roster.trans broke.roster
    rwa [Passed, roster, setDoubt_roster, h.roster] at passed

/-! ## A contact opens -/

section
variable {s : State} {f : Nat} {d : DoorId}

theorem exec_doorContactOpens (hf : s.pins.filter (contactInput d) = some f)
    (hl : s.pins.level (contactInput d) = false) : exec (.doorContactOpens .held d) s =
      .next (contactChange d true (s.changed f (contactInput d) true)) :=
  congrArg Host.Outcome.next (inputEvent_held (contactInput d) true (contactChange d) s f hf hl)

theorem exec_doorContactCloses (hf : s.pins.filter (contactInput d) = some f)
    (hl : s.pins.level (contactInput d) = true) : exec (.doorContactCloses .held d) s =
      .next (contactChange d false (s.changed f (contactInput d) false)) :=
  congrArg Host.Outcome.next (inputEvent_held (contactInput d) false (contactChange d) s f hf hl)

theorem changed_door (i : Input) (b : Bool) (e : DoorId) : (s.changed f i b).door e = s.door e := by cases e <;> rfl

/-- R80, R81: the Door Controller runs, and the door is not absent. -/
theorem takesDoor_iff : s.takesDoor d = true ↔ s.running = true ∧ (s.door d).absent = false := by
  simp [State.takesDoor]

theorem changed_takesDoor (i : Input) (b : Bool) : (s.changed f i b).takesDoor d = s.takesDoor d := by cases d <;> rfl

theorem contactChange_not_taken (b : Bool) (h : ¬s.takesDoor d = true) : contactChange d b s = s := if_neg h

theorem contactChange_opens (h : s.takesDoor d = true) : contactChange d true s = settle (openContact d s) := by
  unfold contactChange
  rw [if_pos h, if_pos rfl]

theorem contactChange_closes (h : s.takesDoor d = true) : contactChange d false s =
    settle (closeContact d (s.setDoor d { s.door d with contactOpen := false })) := by
  unfold contactChange
  rw [if_pos h, if_neg (by decide)]

/-- R84: a RELEASED door is OPEN. -/
theorem openContact_released (h : (s.door d).state = .released) : openContact d s = s.setDoor d { s.door d with
    state := .opened, contactOpen := true, strike := false, window := none
    heldTimer := some (s.now + s.img.th * 1000000) } := by
  unfold openContact
  rw [h]
  rfl

/-- R87: a SECURE door is FORCED. -/
theorem openContact_secure (h : (s.door d).state = .secure) : openContact d s = forceDoor d s := by
  unfold openContact
  rw [h]

/-- R80: a door that is neither takes the contact alone. -/
theorem openContact_other (h : (s.door d).state = .opened ∨ (s.door d).state = .heldOpen ∨ (s.door d).state = .forced) :
    openContact d s = s.setDoor d { s.door d with contactOpen := true } := by
  unfold openContact
  rcases h with h | h | h <;> rw [h]

theorem forcedSource_kind (d : DoorId) : (forcedSource d).kind ≠ .level := by cases d <;> decide

/-- R87: the forced door's source is raised. -/
theorem forceDoor_raises (d : DoorId) (s : State) : ((forceDoor d s).source (forcedSource d)).pending = true := by
  have raised := trigger_pending (forcedSource d) (s.setDoor d { s.door d with state := .forced, contactOpen := true })
    (forcedSource_kind d)
  exact ((setDoubt_passed (forcedCause d) _).trans (breakReservations_passed _)).raisedStay _ (forcedSource_kind d) raised

/-- R87, R112: a forced door's hand-offs. -/
theorem forceDoor_doubted (d : DoorId) (s : State) : Doubted (forcedCause d) s (settle (forceDoor d s)) := by
  have raised := trigger_only (forcedSource d) (s.setDoor d { s.door d with state := .forced, contactOpen := true })
    (forcedSource_kind d)
  exact settle_doubted (forcedCause d) ((setDoor_pushed s d _).toHanded.trans raised.toHanded)
    (by simp) (raised.entry_eq.trans (State.setDoor_entry s d _))

/-- R75, R93: out of a change of lockout, a forced door is the only door that moves. -/
theorem settle_forceDoor_doors (hl : s.lockoutStage = s.doors.a.lockout) : (settle (forceDoor d s)).doors =
    (s.setDoor d { s.door d with state := .forced, contactOpen := true }).doors := by
  have hb : (forceDoor d s).basis = s.basis := by simp [forceDoor]
  rw [settle_doors_of_basis hb ?_ hl, forceDoor_doors]
  rw [forceDoor_doors]
  cases d <;> rfl

end

/-- Settles O29, by the door's state as the contact opens. -/
theorem contactOpenings : Obligations.ContactOpenings := by
  intro s f d hf hl
  have he := exec_doorContactOpens hf hl
  refine ⟨fun h => ?_, fun hr ha => ?_⟩
  · rw [he, contactChange_not_taken]
    · rfl
    · rwa [changed_takesDoor, takesDoor_iff]
  rw [contactChange_opens (by rw [changed_takesDoor, takesDoor_iff]; exact ⟨hr, ha⟩)] at he
  have door := changed_door (s := s) (f := f) (contactInput d) true d
  refine ⟨_, he, fun hs => ?_, fun hs => ?_, fun hs => ?_⟩ <;> rw [← door] at hs
  · rw [openContact_released hs, door]
    exact settle_after _
  · rw [openContact_other hs, door]
    exact settle_after _
  · rw [openContact_secure hs]
    obtain ⟨gone, told, seq, handed⟩ := forceDoor_doubted d (s.changed f (contactInput d) true)
    refine ⟨fun hk => ?_, ?_, gone, fun e k => told e (by cases e <;> exact k), seq, handed⟩
    · rw [settle_forceDoor_doors (s := s.changed f (contactInput d) true) hk, door]
      rfl
    · exact (settle_handed _).raisedStay _ (forcedSource_kind d) (forceDoor_raises d _)

end Sys2Proof.Machine
end

section
/-! SUPPORT. A door that enters SECURE (R84 to R88) and the interlock test that follows (R91, R92): by a contact that closes
(O30) and by a release window that expires (O32); a press and the doors' timers (O33). -/

namespace Sys2Proof.Machine

/-! ## The interlock test once the event is settled -/

theorem Interlocked.of_doors {x : DoorId → Door} {counter : BitVec 16} {now tr : Nat} {s t : State}
    (h : Interlocked x counter now tr s) (hd : t.doors = s.doors) : Interlocked x counter now tr t := by
  have door (e : DoorId) : t.door e = s.door e := door_of_doors hd e
  refine ⟨fun hn e => (door e).trans (h.1 hn e), fun e r he hq => ?_⟩
  rw [door, door]
  exact h.2 e r he hq

/-- R84 to R88, R92: a door enters SECURE; the test is made on the doors as that leaves them, and what follows moves none. -/
theorem settle_secureDoor {s : State} (d : DoorId) (hl : s.lockoutStage = s.doors.a.lockout) :
    Interlocked (fun e => if e = d then (s.door d).secured else s.door e) s.doors.counter s.now s.img.tr
      (settle (secureDoor d s)) := by
  have test := interlockTest_interlocked (s.setDoor d (s.door d).secured)
  have doors : (s.setDoor d (s.door d).secured).door = fun e => if e = d then (s.door d).secured else s.door e :=
    funext fun e => State.setDoor_door s d e _
  have counter : (s.setDoor d (s.door d).secured).doors.counter = s.doors.counter := by cases d <;> rfl
  have image : (s.setDoor d (s.door d).secured).img = s.img := congrArg (·.getD Image.blank) (State.setDoor_image s d _)
  rw [doors, counter, image, State.setDoor_now] at test
  refine test.of_doors (settle_doors_of_basis (s := s) (secureDoor_beside s d).1 ?_ hl)
  rw [show (secureDoor d s).doors.a.lockout = ((s.setDoor d (s.door d).secured).door .a).lockout from
    interlockTest_lockout _ .a]
  cases d <;> rfl

/-! ## A contact closes -/

section
variable {s : State} {d : DoorId}

/-- R80: a SECURE or RELEASED door takes the contact alone. -/
theorem closeContact_stays (h : (s.door d).state = .secure ∨ (s.door d).state = .released) : closeContact d s = s := by
  unfold closeContact
  rcases h with h | h <;> rw [h]

/-- R85, R86, R95: the credit of a passage is consummated before the door is SECURE. -/
theorem closeContact_passes (h : (s.door d).state = .opened ∨ (s.door d).state = .heldOpen) :
    closeContact d s = secureDoor d (consummate d s) := by
  unfold closeContact
  rcases h with h | h <;> rw [h]

/-- R87: a forced door hands no credit on. -/
theorem closeContact_forced (h : (s.door d).state = .forced) : closeContact d s = secureDoor d s := by
  unfold closeContact
  rw [h]

/-- R85 to R88: a door that is neither SECURE nor RELEASED enters SECURE, after what its passage does to the roster. -/
theorem closeContact_secures
    (h : (s.door d).state = .opened ∨ (s.door d).state = .heldOpen ∨ (s.door d).state = .forced) :
    ∃ w, closeContact d s = secureDoor d w ∧ w.doors = s.doors ∧ w.basis = s.basis ∧ Passed s w := by
  have passage (k : (s.door d).state = .opened ∨ (s.door d).state = .heldOpen) :
      ∃ w, closeContact d s = secureDoor d w ∧ w.doors = s.doors ∧ w.basis = s.basis ∧ Passed s w :=
    ⟨_, closeContact_passes k, consummate_doors s d, (consummate_beside s d).1, consummate_passed d s⟩
  rcases h with h | h | h
  · exact passage (.inl h)
  · exact passage (.inr h)
  · exact ⟨s, closeContact_forced h, rfl, rfl, .refl s⟩

end

/-- R80: the station `s` as the closing of a contact is taken, before the door acts. -/
def State.closedAt (s : State) (f : Nat) (d : DoorId) : State :=
  (s.changed f (contactInput d) false).setDoor d { s.door d with contactOpen := false }

section
variable {s : State} {f : Nat} {d : DoorId} (hf : s.pins.filter (contactInput d) = some f)
  (hl : s.pins.level (contactInput d) = true) (ht : s.running = true ∧ (s.door d).absent = false)
include hf hl ht

theorem exec_closes : exec (.doorContactCloses .held d) s = .next (settle (closeContact d (s.closedAt f d))) := by
  rw [exec_doorContactCloses hf hl, contactChange_closes (by rw [changed_takesDoor]; exact takesDoor_iff.mpr ht),
    changed_door]
  rfl

end

theorem closedAt_door (s : State) (f : Nat) (d e : DoorId) :
    (s.closedAt f d).door e = if e = d then { s.door d with contactOpen := false } else s.door e := by
  rw [State.closedAt, State.setDoor_door, changed_door]

theorem closedAt_state (s : State) (f : Nat) (d : DoorId) : ((s.closedAt f d).door d).state = (s.door d).state := by
  rw [closedAt_door, if_pos rfl]

theorem closedAt_rest (s : State) (f : Nat) (d : DoorId) :
    (s.closedAt f d).pins = s.pins.take (contactInput d) false ∧ (s.closedAt f d).port = s.port ∧
      (s.closedAt f d).peers = s.peers ∧ (s.closedAt f d).roster = s.roster ∧
      (s.closedAt f d).presentTime = s.seconds (max s.now f) ∧ (s.closedAt f d).doors.counter = s.doors.counter := by
  cases d <;> exact ⟨rfl, rfl, rfl, rfl, rfl, rfl⟩

/-- R85 to R88, R92: the interlock test on the doors as the closing leaves them. -/
theorem settle_closeContact {s : State} {f : Nat} {d : DoorId} (hk : s.lockoutStage = s.doors.a.lockout)
    (hs : (s.door d).state = .opened ∨ (s.door d).state = .heldOpen ∨ (s.door d).state = .forced) :
    Interlocked (fun e => if e = d then { s.door d with contactOpen := false }.secured else s.door e) s.doors.counter
      (max s.now f) s.img.tr (settle (closeContact d (s.closedAt f d))) := by
  have ⟨_, _, _, _, _, counter⟩ := closedAt_rest s f d
  have lockout : (s.closedAt f d).doors.a.lockout = s.doors.a.lockout := by cases d <;> rfl
  have now : (s.closedAt f d).now = max s.now f := State.setDoor_now _ d _
  have basis : (s.closedAt f d).basis = s.basis := setDoor_basis _ d _
  rw [← closedAt_state s f d] at hs
  obtain ⟨w, hw, hdoors, hbasis, hpassed⟩ := closeContact_secures hs
  have image : w.img = s.img := congrArg (·.getD Image.blank) (of_basis (hbasis.trans basis)).1
  have door : (fun e => if e = d then (w.door d).secured else w.door e) =
      fun e => if e = d then { s.door d with contactOpen := false }.secured else s.door e := by
    funext e
    rw [door_of_doors hdoors, door_of_doors hdoors, closedAt_door, closedAt_door, if_pos rfl]
    split <;> rfl
  have test := settle_secureDoor (s := w) d
    (by rw [lockoutStage_of_basis (hbasis.trans basis), hdoors, lockout, hk])
  rw [door, hdoors, counter, hpassed.now.trans now, image] at test
  rwa [hw]

/-- Settles O30, by the door's state as the contact closes. -/
theorem contactClosings : Obligations.ContactClosings := by
  intro s f d hf hl
  refine ⟨fun h => ?_, fun hr ha => ⟨_, exec_closes hf hl ⟨hr, ha⟩, fun hs => ?_, fun hs hk => ?_⟩⟩
  · rw [exec_doorContactCloses hf hl, contactChange_not_taken]
    · rfl
    · rwa [changed_takesDoor, takesDoor_iff]
  · rw [closeContact_stays (by rw [closedAt_state]; exact hs)]
    exact settle_after _
  · have passed := (closeContact_passed d (s.closedAt f d)).settled
    obtain ⟨pins, port, peers, -, -, counter⟩ := closedAt_rest s f d
    exact ⟨passed.pins.trans pins, passed.port.trans port, passed.peers.trans peers, passed.counter.trans counter,
      settle_closeContact hk hs⟩

/-- Settles O32: the door is SECURE, and the interlock test is made. -/
theorem windowExpiryAndInterlock : Obligations.WindowExpiryAndInterlock := by
  intro s d w hs hw hl
  have door : (s.reach w).door = s.door := funext fun e => by cases e <;> rfl
  have expires : releaseExpiry d s = settle (secureDoor d (s.reach w)) := by
    unfold releaseExpiry
    rw [hs, hw]
  have test := settle_secureDoor (s := s.reach w) d hl
  rw [door] at test
  exact ⟨_, congrArg Host.Outcome.next expires,
    (secureDoor_pushed d _).toHanded.trans (settle_handed _), test⟩

end Sys2Proof.Machine
end

section
/-! SUPPORT. A press of the exit button and the timers of a door (R85, R86, R89, R91). -/

namespace Sys2Proof.Machine

theorem setDoor_setDoor (s : State) (d : DoorId) (x y : Door) : (s.setDoor d x).setDoor d y = s.setDoor d y := by
  cases d <;> rfl

/-! ## The exit button -/

section
variable {s : State} {d : DoorId}

theorem exec_requestToExitPress {f : Nat} {made : Bool} (hf : s.pins.filter (exitInput d) = some f)
    (hl : s.pins.level (exitInput d) = !made) : exec (.requestToExitPress .held d made) s =
      .next (exitChange d made (s.changed f (exitInput d) made)) :=
  congrArg Host.Outcome.next (inputEvent_held (exitInput d) made (exitChange d) s f hf hl)

theorem exitChange_not_taken (b : Bool) (h : ¬s.takesDoor d = true) : exitChange d b s = s := if_neg h

theorem exitChange_made (h : s.takesDoor d = true) :
    exitChange d true s = settle (pressExit d (s.setDoor d { s.door d with rex := true })) := if_pos h

theorem exitChange_broken (h : s.takesDoor d = true) :
    exitChange d false s = s.setDoor d { s.door d with rex := false } := if_pos h

/-- R89: a press releases a SECURE door. -/
theorem pressExit_secure (h : (s.door d).state = .secure) :
    pressExit d s = s.setDoor d ((s.door d).releasedUnder exitCredit s.now s.img.tr) := by
  unfold pressExit
  rw [h]
  rfl

theorem pressExit_other (h : (s.door d).state ≠ .secure) : pressExit d s = s := by
  unfold pressExit
  split
  · next hs => exact absurd hs h
  all_goals rfl

/-- R89: the press that a door takes, in all. -/
theorem pressExit_setDoor (x : Door) : pressExit d (s.setDoor d x) =
    if x.state = .secure then s.setDoor d (x.releasedUnder exitCredit s.now s.img.tr) else s.setDoor d x := by
  have door : (s.setDoor d x).door d = x := by rw [State.setDoor_door, if_pos rfl]
  have image : (s.setDoor d x).img = s.img := congrArg (·.getD Image.blank) (State.setDoor_image s d x)
  split
  · next h => rw [pressExit_secure (by rwa [door]), door, setDoor_setDoor, State.setDoor_now, image]
  · next h => exact pressExit_other (by rwa [door])

end

/-! ## The held timer -/

section
variable {s : State} {d : DoorId}

/-- R86, R112: the hand-offs of a door that is held open. -/
theorem enterHeldOpen_doubted (d : DoorId) (s : State) : Doubted (heldCause d) s (settle (enterHeldOpen d s)) :=
  settle_doubted (heldCause d) (setDoor_pushed s d _).toHanded (setDoor_basis s d _) (State.setDoor_entry s d _)

/-- R75, R93: out of a change of lockout, a held door is the only door that moves. -/
theorem settle_enterHeldOpen_doors (hl : s.lockoutStage = s.doors.a.lockout) : (settle (enterHeldOpen d s)).doors =
    (s.setDoor d { s.door d with state := .heldOpen, strike := false, window := none, heldTimer := none }).doors := by
  rw [settle_doors_of_basis (enterHeldOpen_basis s d) ?_ hl, enterHeldOpen_doors]
  rw [enterHeldOpen_doors]
  cases d <;> rfl

/-- R86: the source of a door that is held open. -/
def heldSource : DoorId → Source
  | .a => .doorAHeld
  | .b => .doorBHeld

theorem levelCondition_heldSource (s : State) (d : DoorId) :
    s.levelCondition (heldSource d) = ((s.door d).state == .heldOpen) := by
  cases d <;> rfl

/-- R86, R154: the held condition is taken. -/
theorem settle_enterHeldOpen_condition (hr : s.running = true) (hl : s.lockoutStage = s.doors.a.lockout) :
    ((settle (enterHeldOpen d s)).source (heldSource d)).condition = true := by
  have running : (enterHeldOpen d s).running = true := (running_congr (enterHeldOpen_passed d s).startup).trans hr
  have settled := ((settle_after _).settled running).1 (heldSource d) (by cases d <;> decide)
  rw [← settled, levelCondition_heldSource, door_of_doors (settle_enterHeldOpen_doors hl), State.setDoor_door, if_pos rfl]
  rfl

end

/-- R85: the held timer of an OPEN door expires. -/
theorem exec_heldTimerExpiry {s : State} {d : DoorId} {h : Nat} (hs : (s.door d).state = .opened)
    (ht : (s.door d).heldTimer = some h) :
    exec (.heldTimerExpiry d) s = .next (settle (enterHeldOpen d (s.reach h))) := by
  refine congrArg Host.Outcome.next ?_
  unfold heldExpiry
  rw [hs, ht]

/-- Settles O33: the button by the door's state, and the two timers. -/
theorem exitPressesAndDoorTimers : Obligations.ExitPressesAndDoorTimers := by
  refine ⟨fun s f d made hf hl => ?_, fun s d h hs ht => ?_, fun s d r hr => ?_⟩
  · have he := exec_requestToExitPress hf hl
    have door := changed_door (s := s) (f := f) (exitInput d) made d
    refine ⟨fun h => ?_, fun hr ha => ?_⟩
    · have untaken : ¬(s.changed f (exitInput d) made).takesDoor d = true := by
        rw [changed_takesDoor, takesDoor_iff]
        rintro ⟨hr, ha⟩
        rcases h with h | h
        · exact absurd (h.symm.trans hr) nofun
        · exact absurd (ha.symm.trans h) nofun
      rw [he, exitChange_not_taken _ untaken]
      rfl
    · have taken : (s.changed f (exitInput d) made).takesDoor d = true := by
        rw [changed_takesDoor]
        exact takesDoor_iff.mpr ⟨hr, ha⟩
      refine ⟨fun hm => ?_, fun hm => ?_⟩ <;> subst hm
      · rw [exitChange_made taken, pressExit_setDoor, door] at he
        refine ⟨_, he, fun hs => ?_, fun hs => ?_⟩
        · rw [if_pos hs]
          exact settle_after _
        · rw [if_neg hs]
          exact settle_after _
      · rw [he, exitChange_broken taken, door]
        rfl
  · obtain ⟨gone, told, seq, handed⟩ := enterHeldOpen_doubted d (s.reach h)
    have door : (s.reach h).door d = s.door d := by cases d <;> rfl
    refine ⟨_, exec_heldTimerExpiry hs ht, fun hl => ?_, fun hr hl => ?_, gone, fun e k => told e (by cases e <;> exact k),
      seq, handed⟩
    · rw [settle_enterHeldOpen_doors (s := s.reach h) hl, door]
    · have held := settle_enterHeldOpen_condition (s := s.reach h) (d := d) hr hl
      cases d <;> exact held
  · refine congrArg Host.Outcome.next ?_
    unfold waitExpiry
    rw [hr]

end Sys2Proof.Machine
end

section
/-! SUPPORT. The roster under a passage through door A (R95, R123 to R126, R130). -/

namespace Sys2Proof.Machine

/-! ## Entries -/

/-- R104: a holder has an entry. -/
theorem onRoster_iff (r : Roster) (id : Nat) : onRoster r id = true ↔ ∃ e ∈ r.entries, e.holder.id = id := by
  simp [onRoster]

/-- R123: an entry of a holder who came at a time. -/
def Roster.joined (r : Roster) (time : Nat) (h : Holder) : Roster :=
  { r with entries := r.entries ++ [{ holder := h, time := time }] }

section
variable {s : State} {time : Nat} {h : Holder}

theorem admitHolder_here (k : onRoster s.roster h.id = true) : admitHolder time s h = s := if_pos k

theorem admitHolder_joins (k : ¬onRoster s.roster h.id = true) (hl : s.roster.entries.length < 16) :
    admitHolder time s h = s.setRoster (s.roster.joined time h) :=
  (if_neg k).trans (if_pos hl)

theorem admitHolder_full (k : ¬onRoster s.roster h.id = true) (hl : 16 ≤ s.roster.entries.length) :
    admitHolder time s h = setDoubt .overCapacity s :=
  (if_neg k).trans (if_neg (Nat.not_lt.mpr hl))

end

theorem rosterEntry_one (h : Holder) (s : State) : rosterEntry [h] s = admitHolder s.presentTime s h := rfl

/-- R123: two holders of one credit join one after the other, at one time. -/
theorem rosterEntry_two {s : State} {h k : Holder} (hn : h.id ≠ k.id) (hh : ¬onRoster s.roster h.id = true)
    (hk : ¬onRoster s.roster k.id = true) (hl : s.roster.entries.length < 15) :
    rosterEntry [h, k] s = s.setRoster ((s.roster.joined s.presentTime h).joined s.presentTime k) := by
  have first : rosterEntry [h, k] s =
      admitHolder s.presentTime (s.setRoster (s.roster.joined s.presentTime h)) k :=
    congrArg (admitHolder s.presentTime · k) (admitHolder_joins hh (by omega))
  rw [first, admitHolder_joins]
  · rfl
  · rw [onRoster_iff] at hk ⊢
    rintro ⟨e, he, hid⟩
    rcases List.mem_append.mp he with he | he
    · exact hk ⟨e, he, hid⟩
    · rw [List.mem_singleton.mp he] at hid
      exact hn hid
  · show (s.roster.entries ++ [_]).length < 16
    rw [List.length_append, List.length_singleton]
    omega

/-! ## Exits -/

/-- R125: an exit of a holder who has no entry. -/
theorem identifiedExit_absent {s : State} {id : Nat} (h : ¬∃ e ∈ s.roster.entries, e.holder.id = id) :
    identifiedExit id s = trigger .rosterMismatch s := by
  unfold identifiedExit
  rw [List.find?_eq_none.mpr fun e he k => h ⟨e, he, beq_iff_eq.mp k⟩]

/-- R125: an exit removes the holder. -/
theorem identifiedExit_roster {s : State} {id : Nat} {e : RosterEntry}
    (h : s.roster.entries.find? (fun e => e.holder.id == id) = some e) : (identifiedExit id s).roster =
      { s.roster with entries := s.roster.entries.filter (fun e => e.holder.id != id) } := by
  unfold identifiedExit
  rw [h]
  dsimp only
  split
  · exact (trigger_only .escortLeft _ (by decide)).roster
  · rfl

/-- R130: the last escort leaves escortees. -/
theorem identifiedExit_escort {s : State} {id : Nat} {e : RosterEntry}
    (h : s.roster.entries.find? (fun e => e.holder.id == id) = some e) (he : e.holder.escortCapable = true)
    (hx : ∃ x ∈ (identifiedExit id s).roster.entries, x.holder.escorted = true)
    (hn : ∀ x ∈ (identifiedExit id s).roster.entries, x.holder.escortCapable = false) :
    ((identifiedExit id s).source .escortLeft).pending = true := by
  rw [identifiedExit_roster h] at hx hn
  have gone : escortGone (s.roster.entries.filter (fun e => e.holder.id != id)) = true := by
    rw [escortGone, Bool.and_eq_true, List.any_eq_true, Bool.not_eq_true', List.any_eq_false]
    exact ⟨hx, fun x k => by rw [hn x k]; decide⟩
  unfold identifiedExit
  rw [h]
  dsimp only
  rw [if_pos (by rw [he, gone]; rfl)]
  exact trigger_pending .escortLeft _ (by decide)

/-- R126: an anonymous exit from a roster of one at most. -/
theorem anonymousExit_last {s : State} (h : s.roster.entries.length ≤ 1) :
    (anonymousExit s).roster = { s.roster with entries := [] } := by
  unfold anonymousExit
  split
  · next k => rw [← k]
  · rfl
  · next k => rw [k] at h; simp at h

/-- R126: an anonymous exit from a larger roster. -/
theorem anonymousExit_doubt {s : State} (h : 2 ≤ s.roster.entries.length) :
    anonymousExit s = setDoubt .anonymousExit s := by
  unfold anonymousExit
  split
  · next k => rw [k] at h; simp at h
  · next k => rw [k] at h; simp at h
  · rfl

/-! ## The credit -/

section
variable {s : State} {c : Credit}

theorem consummate_none (h : (s.door .a).credit = none) : consummate .a s = s := by
  unfold consummate
  rw [h]

theorem consummate_entry (h : (s.door .a).credit = some c) (hk : c.kind = .entry) :
    consummate .a s = rosterEntry c.holders s := by
  unfold consummate
  rw [h]
  dsimp only
  rw [hk]

theorem consummate_egress (h : (s.door .a).credit = some c) (hk : c.kind = .egress) {x : Holder} {xs : List Holder}
    (hx : c.holders = x :: xs) : consummate .a s = identifiedExit x.id s := by
  unfold consummate
  rw [h]
  dsimp only
  rw [hk, hx]

theorem consummate_exitRequest (h : (s.door .a).credit = some c) (hk : c.kind = .exitRequest) :
    consummate .a s = anonymousExit s := by
  unfold consummate
  rw [h]
  dsimp only
  rw [hk]

end

/-- R95: door B hands no credit on, and no credit is nothing to hand on. -/
theorem consummate_idle {s : State} {d : DoorId} (h : d = .b ∨ (s.door d).credit = none) : consummate d s = s := by
  cases d with
  | a => exact consummate_none (h.resolve_left nofun)
  | b => rfl

/-- R95: what follows the passage leaves the roster to it, and the sources that it has raised. -/
theorem settle_secureDoor_handed (d : DoorId) (s : State) : Handed s (settle (secureDoor d s)) :=
  (secureDoor_pushed d s).toHanded.trans (settle_handed _)

/-! ## The passage, by the kind of its credit -/

section
variable {s t : State} {c : Credit} (ht : Handed (consummate .a s) t) (hc : (s.door .a).credit = some c)
include ht hc

/-- R123, R124: an ENTRY of one holder. -/
theorem passage_enters (hk : c.kind = .entry) {h : Holder} (hh : c.holders = [h]) :
    ((∃ e ∈ s.roster.entries, e.holder.id = h.id) → t.roster = s.roster) ∧
    (¬(∃ e ∈ s.roster.entries, e.holder.id = h.id) → s.roster.entries.length < 16 →
      t.roster = s.roster.joined s.presentTime h) ∧
    (¬(∃ e ∈ s.roster.entries, e.holder.id = h.id) → 16 ≤ s.roster.entries.length →
      t.roster = (setDoubt .overCapacity s).roster) := by
  rw [ht.roster, consummate_entry hc hk, hh, rosterEntry_one, ← onRoster_iff]
  exact ⟨fun k => by rw [admitHolder_here k], fun k hl => by rw [admitHolder_joins k hl]; rfl,
    fun k hl => by rw [admitHolder_full k hl]⟩

/-- R123: an ENTRY of a pair. -/
theorem passage_enters_two (hk : c.kind = .entry) {h k : Holder} (hh : c.holders = [h, k]) (hn : h.id ≠ k.id)
    (h1 : ¬∃ e ∈ s.roster.entries, e.holder.id = h.id) (h2 : ¬∃ e ∈ s.roster.entries, e.holder.id = k.id)
    (hl : s.roster.entries.length < 15) :
    t.roster = (s.roster.joined s.presentTime h).joined s.presentTime k := by
  rw [← onRoster_iff] at h1 h2
  rw [ht.roster, consummate_entry hc hk, hh, rosterEntry_two hn h1 h2 hl]
  rfl

/-- R125, R130: an EGRESS. -/
theorem passage_leaves (hk : c.kind = .egress) {h : Holder} {hs : List Holder} (hh : c.holders = h :: hs) :
    (¬(∃ e ∈ s.roster.entries, e.holder.id = h.id) →
      t.roster = s.roster ∧ (t.source .rosterMismatch).pending = true) ∧
    ((∃ e ∈ s.roster.entries, e.holder.id = h.id) →
      t.roster = { s.roster with entries := s.roster.entries.filter (fun e => e.holder.id != h.id) }) ∧
    (∀ e, s.roster.entries.find? (fun e => e.holder.id == h.id) = some e → e.holder.escortCapable = true →
      (∃ x ∈ t.roster.entries, x.holder.escorted = true) → (∀ x ∈ t.roster.entries, x.holder.escortCapable = false) →
      (t.source .escortLeft).pending = true) := by
  rw [consummate_egress hc hk hh] at ht
  rw [ht.roster]
  refine ⟨fun hn => ?_, fun ⟨e, he, hid⟩ => ?_, fun e he hcap hx hn => ?_⟩
  · rw [identifiedExit_absent hn] at ht ⊢
    exact ⟨(trigger_only .rosterMismatch s (by decide)).roster,
      ht.raisedStay _ (by decide) (trigger_pending .rosterMismatch s (by decide))⟩
  · have found : (s.roster.entries.find? (fun e => e.holder.id == h.id)).isSome = true :=
      List.find?_isSome.mpr ⟨e, he, beq_iff_eq.mpr hid⟩
    obtain ⟨x, hx⟩ := Option.isSome_iff_exists.mp found
    exact identifiedExit_roster hx
  · exact ht.raisedStay _ (by decide) (identifiedExit_escort he hcap hx hn)

/-- R126: an EXIT_REQUEST. -/
theorem passage_leaves_unnamed (hk : c.kind = .exitRequest) :
    (s.roster.entries.length ≤ 1 → t.roster = { s.roster with entries := [] }) ∧
    (2 ≤ s.roster.entries.length → t.roster = (setDoubt .anonymousExit s).roster) := by
  rw [ht.roster, consummate_exitRequest hc hk]
  exact ⟨anonymousExit_last, fun hl => by rw [anonymousExit_doubt hl]⟩

end

/-- Settles O31, by the door and the kind of its credit. -/
theorem passagesMoveTheRoster : Obligations.PassagesMoveTheRoster := by
  intro s f d hf hl hr ha hs
  have he := exec_closes hf hl ⟨hr, ha⟩
  rw [closeContact_passes (by rw [closedAt_state]; exact hs)] at he
  obtain ⟨pins, port, peers, roster, time, -⟩ := closedAt_rest s f d
  have credit : ((s.closedAt f d).door d).credit = (s.door d).credit := by rw [closedAt_door, if_pos rfl]
  have passed : Passed (s.closedAt f d) (settle (secureDoor d (consummate d (s.closedAt f d)))) :=
    (consummate_passed d _).trans (settle_secureDoor_handed d _).passed
  have handed := settle_secureDoor_handed d (consummate d (s.closedAt f d))
  simp only [← roster, ← time, ← credit, ← setDoubt_roster]
  refine ⟨_, he, fun h => ?_, fun c h hd hc hk hh => ?_, fun c h k hd hc hk hh hn h1 h2 hl => ?_,
    fun c h hs hd hc hk hh => ?_, fun c hd hc hk => ?_, passed.pins.trans pins, passed.port.trans port,
    passed.peers.trans peers⟩
  · rw [handed.roster, consummate_idle h]
  all_goals subst hd
  · exact passage_enters handed hc hk hh
  · rw [passage_enters_two handed hc hk hh hn h1 h2 hl, Roster.joined, Roster.joined, List.append_assoc]
    rfl
  · exact passage_leaves handed hc hk hh
  · exact passage_leaves_unnamed handed hc hk

end Sys2Proof.Machine
end

section
/-! SUPPORT. A credit handed to the Door Controller, by the door and its partner (R90), and what a presentation is
decided to be, whatever the port holds (R101 to R110). -/

namespace Sys2Proof.Machine

/-! ## A credit -/

theorem doorBusy_iff (s : State) (d : DoorId) : doorBusy s d = true ↔ ¬(s.door d).Free := by
  unfold doorBusy Door.Free
  cases (s.door d).request <;> simp

section
variable {s : State} {d : DoorId} {c : Credit}

theorem handCredit_busy (h : ¬(s.door d).Free) : handCredit d c s = (.busy, s) :=
  if_pos ((doorBusy_iff s d).mpr h)

/-- R90: a door that can take a credit looks at its partner. -/
theorem handCredit_free (hf : (s.door d).Free) (hl : c.kind = .entry → (s.door d).lockout = false) :
    handCredit d c s = if s.PartnerClear d then (.released, releaseDoor d c s) else (.pending, pendCredit d c s) := by
  have busy : ¬doorBusy s d = true := fun h => (doorBusy_iff s d).mp h hf
  have locked : ¬(c.kind = .entry ∧ (s.door d).lockout = true) := fun ⟨hk, h⟩ => absurd ((hl hk).symm.trans h) nofun
  exact (if_neg busy).trans (if_neg locked)

/-- R83, R90: the door is released. -/
theorem handCredit_released (hf : (s.door d).Free) (hl : c.kind = .entry → (s.door d).lockout = false)
    (hp : s.PartnerClear d) :
    handCredit d c s = (.released, s.setDoor d ((s.door d).releasedUnder c s.now s.img.tr)) :=
  (handCredit_free hf hl).trans (if_pos hp)

/-- R79, R90: the credit waits in the slot. -/
theorem handCredit_pending (hf : (s.door d).Free) (hl : c.kind = .entry → (s.door d).lockout = false)
    (hp : ¬s.PartnerClear d) : handCredit d c s = (.pending, s.pended d c s.now) := by
  refine (handCredit_free hf hl).trans ((if_neg hp).trans ?_)
  cases d <;> rfl

end

/-! ## The port does not show -/

section
variable (s : State) (q : Port)

theorem setDoor_setPort (d : DoorId) (x : Door) : (s.setPort q).setDoor d x = (s.setDoor d x).setPort q := by
  cases d <;> rfl

theorem setReservation_setPort (d : DoorId) (x : Option Reservation) :
    (s.setPort q).setReservation d x = (s.setReservation d x).setPort q := by
  cases d <;> rfl

theorem setBroken_setPort (d : DoorId) (x : Bool) : (s.setPort q).setBroken d x = (s.setBroken d x).setPort q := by
  cases d <;> rfl

theorem reserve_setPort (p : Presentation) : reserve p (s.setPort q) = (reserve p s).setPort q := by
  unfold reserve
  cases p.door <;> rfl

theorem pendCredit_setPort (d : DoorId) (c : Credit) : pendCredit d c (s.setPort q) = (pendCredit d c s).setPort q := by
  cases d <;> rfl

theorem notePassback_setPort (hit : Bool) : notePassback hit (s.setPort q) = (notePassback hit s).setPort q := by
  have raised : raise .passback (s.setPort q) = (raise .passback s).setPort q := by
    unfold raise
    split_ifs with h h' h'
    · rfl
    · exact absurd h h'
    · exact absurd h' h
    · rfl
  cases hit
  · rfl
  · exact raised

/-- R90: a credit is judged on the doors. -/
theorem handCredit_setPort (d : DoorId) (c : Credit) :
    handCredit d c (s.setPort q) = ((handCredit d c s).1, (handCredit d c s).2.setPort q) := by
  have busy : doorBusy (s.setPort q) d = doorBusy s d := rfl
  have door (e : DoorId) : (s.setPort q).door e = s.door e := rfl
  have released : releaseDoor d c (s.setPort q) = (releaseDoor d c s).setPort q := setDoor_setPort s q d _
  simp only [handCredit, busy, door, released, pendCredit_setPort]
  split_ifs <;> rfl

/-- A decision, with another port in its state. -/
def Decision.withPort (d : Decision) : Decision := { d with after := d.after.setPort q }

theorem grantEntry_setPort (p : Presentation) (holders : List Holder) (result : Result) (tag : Nat) (hit : Bool) :
    grantEntry p holders result tag hit (s.setPort q) = (grantEntry p holders result tag hit s).withPort q := by
  unfold grantEntry
  rw [handCredit_setPort]
  obtain ⟨answer, t⟩ := handCredit p.door (newCredit .entry holders) s
  cases answer
  case busy => rfl
  case locked => rfl
  case released => simp only [notePassback_setPort]; rfl
  case pending => simp only [notePassback_setPort]; rfl

theorem presentInside_setPort (p : Presentation) : presentInside p (s.setPort q) = (presentInside p s).withPort q := by
  unfold presentInside
  rw [handCredit_setPort]
  obtain ⟨answer, t⟩ := handCredit p.door (newCredit .egress [plainHolder p.id p.cls]) s
  cases answer <;> rfl

theorem presentEscorted_setPort (p : Presentation) (hit : Bool) :
    presentEscorted p hit (s.setPort q) = (presentEscorted p hit s).withPort q := by
  have mode : (s.setPort q).mode p.door = s.mode p.door := rfl
  simp only [presentEscorted, mode, State.setPort_roster, grantEntry_setPort]
  split_ifs <;> rfl

theorem presentPaired_setPort (p : Presentation) (hit : Bool) :
    presentPaired p hit (s.setPort q) = (presentPaired p hit s).withPort q := by
  have reservation : (s.setPort q).reservation p.door = s.reservation p.door := rfl
  simp only [presentPaired, reservation, completePair, setReservation_setPort, grantEntry_setPort, reserve_setPort]
  cases s.reservation p.door with
  | none => rfl
  | some r => dsimp only; split_ifs <;> rfl

theorem modeStep_setPort (p : Presentation) (hit : Bool) :
    modeStep p hit (s.setPort q) = (modeStep p hit s).withPort q := by
  have mode : (s.setPort q).mode p.door = s.mode p.door := rfl
  simp only [modeStep, mode, grantEntry_setPort, presentEscorted_setPort, presentPaired_setPort]
  cases (s.mode p.door).mode <;> rfl

theorem presentOutside_setPort (p : Presentation) :
    presentOutside p (s.setPort q) = (presentOutside p s).withPort q := by
  have busy : doorBusy (s.setPort q) p.door = doorBusy s p.door := rfl
  have door : (s.setPort q).door p.door = s.door p.door := rfl
  have mode : (s.setPort q).mode p.door = s.mode p.door := rfl
  have hit : passbackHit (s.setPort q) p = passbackHit s p := rfl
  have full : overCapacity (s.setPort q) p = overCapacity s p := rfl
  have image : (s.setPort q).img = s.img := rfl
  simp only [presentOutside, busy, door, mode, hit, full, image, modeStep_setPort]
  split_ifs <;> rfl

/-- R101: a presentation is decided without a look at the port. -/
theorem decidePresentation_setPort (p : Presentation) :
    decidePresentation p (s.setPort q) = (decidePresentation p s).withPort q := by
  unfold decidePresentation
  cases p.side
  case inside => exact presentInside_setPort s q p
  case outside => exact presentOutside_setPort s q p

end

/-! ## The answer -/

theorem presentOperands_length {s : State} {bytes : List Byte} {p : Presentation}
    (h : presentOperands s bytes = some p) : bytes.length = 6 := by
  unfold presentOperands at h
  split at h
  · rfl
  · cases h

/-- R101, R114, R120: the panel command: what a presentation is decided to be is answered, with the previous broken mark
that it found, and handed on. -/
theorem exec_presentCredential {s : State} {dt before : Nat} {bytes : List Byte} {p : Presentation} (h : s.AtPanel)
    (hx : presentOperands s bytes = some p) :
    ∃ t, exec (.presentCredential dt ⟨6 :: bytes, before⟩) s = .next t ∧
      ∀ D, decidePresentation p (s.elapse dt) = D → D.after.broken p.door = s.broken p.door →
        After ((D.after.setBroken p.door false).setPort (s.answered (6 :: bytes) 7 D.result.code
          ((s.broken p.door).toNat + 2 * D.passback.toNat) [byteOf (doorCode p.door), byteOf D.tag, byteOf D.holders]))
          t := by
  refine ⟨_, rfl, fun D hD hb => ?_⟩
  obtain ⟨v, hv⟩ : ∃ v, s.taken dt 7 ⟨byteOf 6 :: bytes, before⟩ = v := ⟨_, rfl⟩
  have decided : decidePresentation p v = D.withPort v.port := by
    rw [← hD, ← decidePresentation_setPort, ← hv]
    rfl
  have acts : presentCredential p v = ({ result := D.result
                                         flags := (s.broken p.door).toNat + 2 * D.passback.toNat
                                         data := [byteOf (doorCode p.door), byteOf D.tag, byteOf D.holders] },
      settle ((D.after.setBroken p.door false).setPort v.port)) := by
    rw [presentCredential, decided, ← hb, ← setBroken_setPort]
    rfl
  rw [← hv] at acts
  exact panelCommand_after (code := 7) (len := 6) (parse := presentOperands) h (presentOperands_length hx) (by decide)
    hx acts (by rw [hv]; rfl)

end Sys2Proof.Machine
end

section
/-! SUPPORT. The checks of an OUTSIDE presentation, one by one (R103, R104), and what an ENTRY credit is answered (R105,
R109). -/

namespace Sys2Proof.Machine

/-! ## The previous broken mark -/

section
variable (s : State)

@[simp] theorem setDoor_broken (d e : DoorId) (x : Door) : (s.setDoor d x).broken e = s.broken e := by
  cases d <;> rfl

@[simp] theorem pended_broken (d e : DoorId) (c : Credit) (now : Nat) : (s.pended d c now).broken e = s.broken e := by
  cases d <;> rfl

@[simp] theorem elapse_broken (dt : Nat) (e : DoorId) : (s.elapse dt).broken e = s.broken e := rfl

/-- R104: noting a passback is a trigger, or nothing. -/
theorem notePassback_only (hit : Bool) : BusOnly s (notePassback hit s) := by
  cases hit
  · exact .refl s
  · exact trigger_only .passback s (by decide)

/-- The marks and the reservations are in the block of the Entry Rules Unit. -/
theorem entry_fields {s t : State} (h : t.entry = s.entry) (d : DoorId) :
    t.reservation d = s.reservation d ∧ t.broken d = s.broken d := by
  cases d <;> simp only [State.reservation, State.broken, h, and_self]

@[simp] theorem notePassback_broken (hit : Bool) (e : DoorId) : (notePassback hit s).broken e = s.broken e :=
  (entry_fields (notePassback_only s hit).entry_eq e).2

@[simp] theorem reserve_broken (p : Presentation) (e : DoorId) : (reserve p s).broken e = s.broken e := by
  unfold reserve
  cases p.door <;> rfl

end

/-! ## The checks -/

section
variable {s : State} {p : Presentation}

theorem classOk_iff (m : ModeEntry) (cls : Nat) : classOk m cls = true ↔ ClassPasses m cls := by
  unfold classOk ClassPasses
  cases m.mode <;> simp

theorem isPaired_iff (m : Mode) : m.isPaired = true ↔ m = .paired ∨ m = .pairedRemote := by cases m <;> decide

/-- R109: the reservation of another holder. -/
theorem completes_iff (r : Reservation) : completes s p = some r ↔ Completes s p r := by
  unfold completes Completes
  rw [← isPaired_iff]
  split
  · next h => rw [Option.filter_eq_some_iff, bne_iff_ne]; tauto
  · next h => exact iff_of_false nofun fun k => h k.1

theorem completes_isSome : (completes s p).isSome = true ↔ ∃ r, Completes s p r := by
  simp only [Option.isSome_iff_exists, completes_iff]

/-- R104: passback at door A. -/
theorem passbackHit_iff : passbackHit s p = true ↔ PassbackFound s p := by
  unfold passbackHit PassbackFound passbackHolders
  rw [Bool.and_eq_true, beq_iff_eq]
  refine and_congr_right fun _ => ?_
  simp only [List.any_cons, Bool.or_eq_true, List.any_eq_true, onRoster_iff, Option.mem_toList,
    Option.map_eq_some_iff, completes_iff]
  constructor
  · rintro (⟨e, he, hid⟩ | ⟨_, ⟨r, hr, rfl⟩, e, he, hid⟩)
    · exact ⟨e, he, .inl hid⟩
    · exact ⟨e, he, .inr ⟨r, hr, hid⟩⟩
  · rintro ⟨e, he, hid | ⟨r, hr, hid⟩⟩
    · exact .inl ⟨e, he, hid⟩
    · exact .inr ⟨_, ⟨r, hr, rfl⟩, e, he, hid⟩

/-- A presentation's passback, told by what is on the roster. -/
theorem passbackHit_eq {hit : Bool} (h : hit = true ↔ PassbackFound s p) : passbackHit s p = hit :=
  Bool.eq_iff_iff.mpr (passbackHit_iff.trans h.symm)

theorem overCapacity_iff : overCapacity s p = true ↔ Overfull s p := by
  unfold overCapacity Overfull
  rw [Bool.and_eq_true, beq_iff_eq, decide_eq_true_eq, ← completes_isSome]
  refine and_congr_right fun _ => ?_
  unfold Config.rosterSize
  by_cases hc : (completes s p).isSome = true
  · rw [if_pos hc]
    simp only [hc, true_and]
    omega
  · rw [if_neg hc]
    simp only [hc, false_and, or_false, Bool.false_eq_true]

theorem decidePresentation_outside (h : p.side = .outside) : decidePresentation p s = presentOutside p s := by
  unfold decidePresentation
  rw [h]

theorem decidePresentation_inside (h : p.side = .inside) : decidePresentation p s = presentInside p s := by
  unfold decidePresentation
  rw [h]

/-! ### The first check that fails -/

theorem presentOutside_busy (h : ¬(s.door p.door).Free) : presentOutside p s = .refuse .doorBusy s :=
  if_pos ((doorBusy_iff s p.door).mpr h)

section
variable (free : (s.door p.door).Free)
include free

theorem not_doorBusy : doorBusy s p.door = false :=
  Bool.eq_false_iff.mpr fun h => (doorBusy_iff s p.door).mp h free

theorem presentOutside_invalid (h : p.verdict ≠ .valid) : presentOutside p s = .refuse .deniedInvalid s := by
  simp [presentOutside, not_doorBusy free, h]

variable (valid : p.verdict = .valid)
include valid

theorem presentOutside_locked (h : (s.door p.door).lockout = true) :
    presentOutside p s = .refuse .deniedLockout s := by
  simp [presentOutside, not_doorBusy free, valid, h]

variable (unlocked : (s.door p.door).lockout = false)
include unlocked

theorem presentOutside_barred (h : (s.mode p.door).mode = .barred) : presentOutside p s = .refuse .deniedBarred s := by
  simp [presentOutside, not_doorBusy free, valid, unlocked, h]

variable (unbarred : (s.mode p.door).mode ≠ .barred)
include unbarred

theorem presentOutside_class (h : ¬ClassPasses (s.mode p.door) p.cls) :
    presentOutside p s = .refuse .deniedClass s := by
  rw [← classOk_iff] at h
  simp [presentOutside, not_doorBusy free, valid, unlocked, unbarred, h]

variable (ranked : ClassPasses (s.mode p.door) p.cls)
include ranked

/-- R104: the tests of the roster come after the class. -/
theorem presentOutside_ranked : presentOutside p s =
    if passbackHit s p ∧ s.img.softPassback = false then .refuse .deniedPassback s
    else if overCapacity s p then .refuse .deniedFull s
    else modeStep p (passbackHit s p) s := by
  rw [← classOk_iff] at ranked
  simp [presentOutside, not_doorBusy free, valid, unlocked, unbarred, ranked]

theorem presentOutside_passback (h : PassbackFound s p) (hs : s.img.softPassback = false) :
    presentOutside p s = .refuse .deniedPassback s :=
  (presentOutside_ranked free valid unlocked unbarred ranked).trans (if_pos ⟨passbackHit_iff.mpr h, hs⟩)

variable (new : PassbackFound s p → s.img.softPassback = true)
include new

theorem presentOutside_new : presentOutside p s =
    if overCapacity s p then .refuse .deniedFull s else modeStep p (passbackHit s p) s := by
  refine (presentOutside_ranked free valid unlocked unbarred ranked).trans (if_neg fun ⟨h, hs⟩ => ?_)
  exact absurd (hs.symm.trans (new (passbackHit_iff.mp h))) nofun

theorem presentOutside_full (h : Overfull s p) : presentOutside p s = .refuse .deniedFull s :=
  (presentOutside_new free valid unlocked unbarred ranked new).trans (if_pos (overCapacity_iff.mpr h))

end

/-- R103: checks 1 to 7 pass, and the mode's own step follows. -/
theorem presentOutside_admitted (h : Admitted s p) : presentOutside p s = modeStep p (passbackHit s p) s := by
  obtain ⟨free, valid, unlocked, unbarred, ranked, new, room⟩ := h
  exact (presentOutside_new free valid unlocked unbarred ranked new).trans
    (if_neg fun h => room (overCapacity_iff.mp h))

/-- R106: an escortee needs an escort inside. -/
theorem modeStep_noEscort (hit : Bool) (hm : (s.mode p.door).mode = .escorted) (hc : p.cls < (s.mode p.door).minClass)
    (hn : ∀ e ∈ s.roster.entries, e.holder.escortCapable = false) : modeStep p hit s = .refuse .deniedNoEscort s := by
  have escort : ¬s.roster.entries.any (fun e => e.holder.escortCapable) = true := by
    rw [Bool.not_eq_true, List.any_eq_false]
    exact fun e he => by rw [hn e he]; nofun
  unfold modeStep presentEscorted
  rw [hm]
  exact (if_neg (Nat.not_le.mpr hc)).trans (if_neg escort)

end

end Sys2Proof.Machine
end

section
/-! SUPPORT. INSIDE presentations (R102) and the refusals of OUTSIDE ones (R103 to R106). -/

namespace Sys2Proof.Machine

/-! ## INSIDE -/

section
variable {s : State} {p : Presentation}

theorem presentInside_busy (h : ¬(s.door p.door).Free) : presentInside p s = .refuse .doorBusy s := by
  unfold presentInside
  rw [handCredit_busy h]

/-- R102: egress is not under lockout. -/
theorem presentInside_released (h : (s.door p.door).Free) (hp : s.PartnerClear p.door) : presentInside p s =
    { result := .grantedEgress, tag := 0, holders := 1, passback := false
      after := s.setDoor p.door
        ((s.door p.door).releasedUnder (newCredit .egress [plainHolder p.id p.cls]) s.now s.img.tr) } := by
  unfold presentInside
  rw [handCredit_released h (fun k => by cases k) hp]

theorem presentInside_pending (h : (s.door p.door).Free) (hp : ¬s.PartnerClear p.door) : presentInside p s =
    { result := .pendingInterlock, tag := 0, holders := 1, passback := false
      after := s.pended p.door (newCredit .egress [plainHolder p.id p.cls]) s.now } := by
  unfold presentInside
  rw [handCredit_pending h (fun k => by cases k) hp]

end

/-- Settles O35: the Door Controller's answer to the EGRESS credit is the answer to the presentation. -/
theorem insidePresentations : Obligations.InsidePresentations := by
  intro s dt before bytes p h hx hs
  obtain ⟨t, he, presented⟩ := exec_presentCredential (dt := dt) (before := before) h hx
  rw [decidePresentation_inside hs] at presented
  exact ⟨t, he, fun hb => presented _ (presentInside_busy (s := s.elapse dt) hb) rfl,
    fun hf hp => presented _ (presentInside_released (s := s.elapse dt) hf hp) (by simp),
    fun hf hp => presented _ (presentInside_pending (s := s.elapse dt) hf hp) (by simp)⟩

/-! ## OUTSIDE -/

/-- Settles O36: the first check that fails decides. -/
theorem outsideRefusals : Obligations.OutsideRefusals := by
  intro s dt before bytes p h hx hs
  obtain ⟨t, he, presented⟩ := exec_presentCredential (dt := dt) (before := before) h hx
  rw [decidePresentation_outside hs] at presented
  refine ⟨t, he, ?_⟩
  dsimp only
  have refused (r : Result) (hr : presentOutside p (s.elapse dt) = .refuse r (s.elapse dt)) := presented _ hr rfl
  refine ⟨fun hb => refused _ (presentOutside_busy hb), fun hf hv => refused _ (presentOutside_invalid hf hv), ?_, ?_,
    ?_, ?_, ?_, ?_⟩
  · rintro ⟨hf, hv⟩ hl
    exact refused _ (presentOutside_locked hf hv hl)
  · rintro ⟨⟨hf, hv⟩, hl⟩ hm
    exact refused _ (presentOutside_barred hf hv hl hm)
  · rintro ⟨⟨⟨hf, hv⟩, hl⟩, hm⟩ hc
    exact refused _ (presentOutside_class hf hv hl hm hc)
  · rintro ⟨⟨⟨⟨hf, hv⟩, hl⟩, hm⟩, hc⟩ hp hsoft
    exact refused _ (presentOutside_passback hf hv hl hm hc hp hsoft)
  · rintro ⟨⟨⟨⟨⟨hf, hv⟩, hl⟩, hm⟩, hc⟩, hp⟩ hfull
    exact refused _ (presentOutside_full hf hv hl hm hc hp hfull)
  · intro ha hm hc hn
    exact refused _ ((presentOutside_admitted (s := s.elapse dt) ha).trans (modeStep_noEscort _ hm hc hn))

end Sys2Proof.Machine
end

section
/-! SUPPORT. What an admitted holder is granted: alone (R105, R106), or as one of a pair (R108 to R110). -/

namespace Sys2Proof.Machine

/-! ## An ENTRY credit -/

section
variable {s : State} {p : Presentation} (free : (s.door p.door).Free) (unlocked : (s.door p.door).lockout = false)
include free unlocked

theorem grantEntry_released (holders : List Holder) (result : Result) (tag : Nat) (hit : Bool)
    (hp : s.PartnerClear p.door) : grantEntry p holders result tag hit s =
      { result := result, tag := tag, holders := holders.length, passback := hit
        after := notePassback hit (s.setDoor p.door
          ((s.door p.door).releasedUnder (newCredit .entry holders) s.now s.img.tr)) } := by
  unfold grantEntry
  rw [handCredit_released free (fun _ => unlocked) hp]

theorem grantEntry_pending (holders : List Holder) (result : Result) (tag : Nat) (hit : Bool)
    (hp : ¬s.PartnerClear p.door) : grantEntry p holders result tag hit s =
      { result := .pendingInterlock, tag := tag, holders := holders.length, passback := hit
        after := notePassback hit (s.pended p.door (newCredit .entry holders) s.now) } := by
  unfold grantEntry
  rw [handCredit_pending free (fun _ => unlocked) hp]

end

/-! ## One holder -/

/-- R105, R106: the holder of the credit: under ESCORTED an escort or an escortee. -/
def Presentation.holderUnder (p : Presentation) (m : ModeEntry) : Holder where
  id := p.id
  cls := p.cls
  escorted := m.mode == .escorted && p.cls < m.minClass
  escortCapable := m.mode == .escorted && m.minClass ≤ p.cls

section
variable {s : State} {p : Presentation}

/-- R105: FREE and SINGLE, where nobody is escorted. -/
theorem holderUnder_plain {m : ModeEntry} (h : m.mode ≠ .escorted) : p.holderUnder m = plainHolder p.id p.cls := by
  have e : (m.mode == .escorted) = false := beq_eq_false_iff_ne.mpr h
  simp only [Presentation.holderUnder, e, Bool.false_and]
  rfl

/-- R106: ESCORTED. -/
theorem presentEscorted_grants (hit : Bool) (hm : (s.mode p.door).mode = .escorted)
    (he : p.cls < (s.mode p.door).minClass → ∃ e ∈ s.roster.entries, e.holder.escortCapable = true) :
    presentEscorted p hit s = grantEntry p [p.holderUnder (s.mode p.door)] .granted 0 hit s := by
  unfold presentEscorted Presentation.holderUnder
  by_cases hc : (s.mode p.door).minClass ≤ p.cls
  · simp only [hm, hc, Nat.not_lt.mpr hc, if_true, decide_true, decide_false, beq_self_eq_true, Bool.and_true,
      Bool.and_false]
    rfl
  · have escort : s.roster.entries.any (fun e => e.holder.escortCapable) = true :=
      List.any_eq_true.mpr (he (Nat.not_le.mp hc))
    simp only [hm, hc, Nat.not_le.mp hc, escort, if_true, if_false, decide_true, decide_false, beq_self_eq_true,
      Bool.and_true, Bool.and_false]
    rfl

theorem modeStep_grants (hit : Bool)
    (hm : (s.mode p.door).mode = .free ∨ (s.mode p.door).mode = .single ∨ (s.mode p.door).mode = .escorted)
    (he : (s.mode p.door).mode = .escorted → p.cls < (s.mode p.door).minClass →
      ∃ e ∈ s.roster.entries, e.holder.escortCapable = true) :
    modeStep p hit s = grantEntry p [p.holderUnder (s.mode p.door)] .granted 0 hit s := by
  unfold modeStep
  rcases hm with hm | hm | hm <;> rw [hm] <;> dsimp only
  · rw [holderUnder_plain (by rw [hm]; decide)]
  · rw [holderUnder_plain (by rw [hm]; decide)]
  · exact presentEscorted_grants hit hm (he hm)

end

/-- Settles O37: each of the three modes grants one holder (`modeStep_grants`), and the doors decide whether at once. -/
theorem singlesAndEscorts : Obligations.SinglesAndEscorts := by
  intro s dt before bytes p hit h hx hs ha hh
  dsimp only
  intro hm hesc
  obtain ⟨t, he, presented⟩ := exec_presentCredential (dt := dt) (before := before) h hx
  have granted := (presentOutside_admitted (s := s.elapse dt) ha).trans
    (modeStep_grants (s := s.elapse dt) (passbackHit (s.elapse dt) p) hm hesc)
  rw [passbackHit_eq (s := s.elapse dt) hh] at granted
  rw [decidePresentation_outside hs, granted] at presented
  obtain ⟨free, -, unlocked, -⟩ := ha
  exact ⟨t, he,
    fun hp => presented _ (grantEntry_released (s := s.elapse dt) free unlocked _ _ _ _ hp) (by simp),
    fun hp => presented _ (grantEntry_pending (s := s.elapse dt) free unlocked _ _ _ _ hp) (by simp)⟩

/-! ## A pair -/

section
variable {s : State} {p : Presentation}

theorem modeStep_paired (hit : Bool)
    (hm : (s.mode p.door).mode = .paired ∨ (s.mode p.door).mode = .pairedRemote) :
    modeStep p hit s = presentPaired p hit s := by
  unfold modeStep
  rcases hm with hm | hm <;> rw [hm]

/-- R108: the first holder reserves. -/
theorem presentPaired_reserves (hit : Bool) (hr : s.reservation p.door = none) : presentPaired p hit s =
    { result := .pairWaiting, tag := s.entry.tag, holders := 0, passback := false, after := reserve p s } := by
  unfold presentPaired
  rw [hr]

/-- R110: the same holder again. -/
theorem presentPaired_same (hit : Bool) {r : Reservation} (hr : s.reservation p.door = some r) (h : r.holder = p.id) :
    presentPaired p hit s =
      { result := .sameHolder, tag := r.tag, holders := 0, passback := false, after := s } := by
  unfold presentPaired
  rw [hr]
  exact if_pos h

/-- R109: another holder. -/
theorem presentPaired_completes (hit : Bool) {r : Reservation} (hr : s.reservation p.door = some r)
    (h : r.holder ≠ p.id) : presentPaired p hit s = completePair p r hit s := by
  unfold presentPaired
  rw [hr]
  exact if_neg h

theorem setReservation_door (d e : DoorId) (x : Option Reservation) :
    (s.setReservation d x).door e = s.door e := by
  cases d <;> rfl

variable {r : Reservation} (free : (s.door p.door).Free) (unlocked : (s.door p.door).lockout = false)
include free unlocked

/-- R109: the pair goes in. -/
theorem completePair_released (hit : Bool) (hp : s.PartnerClear p.door) : completePair p r hit s =
    { result := .grantedPair, tag := r.tag, holders := 2, passback := hit
      after := notePassback hit ((s.setReservation p.door none).setDoor p.door ((s.door p.door).releasedUnder
        (newCredit .entry [plainHolder r.holder r.cls, plainHolder p.id p.cls]) s.now s.img.tr)) } := by
  have door := setReservation_door (s := s) p.door (x := none)
  have k := grantEntry_released (s := s.setReservation p.door none) (by rwa [door]) (by rwa [door])
    [plainHolder r.holder r.cls, plainHolder p.id p.cls] .grantedPair r.tag hit (by rwa [State.PartnerClear, door])
  rw [door, State.setReservation_now, State.img, State.setReservation_image] at k
  exact k

/-- R109: the pair waits for the interlock. -/
theorem completePair_pending (hit : Bool) (hp : ¬s.PartnerClear p.door) : completePair p r hit s =
    { result := .pendingInterlock, tag := r.tag, holders := 2, passback := hit
      after := notePassback hit ((s.setReservation p.door none).pended p.door
        (newCredit .entry [plainHolder r.holder r.cls, plainHolder p.id p.cls]) s.now) } := by
  have door := setReservation_door (s := s) p.door (x := none)
  have k := grantEntry_pending (s := s.setReservation p.door none) (by rwa [door]) (by rwa [door])
    [plainHolder r.holder r.cls, plainHolder p.id p.cls] .grantedPair r.tag hit (by rwa [State.PartnerClear, door])
  rw [State.setReservation_now] at k
  exact k

end

/-- Settles O38: the step of the paired modes, by the reservation that it finds. -/
theorem pairReservations : Obligations.PairReservations := by
  intro s dt before bytes p h hx hs ha hm
  obtain ⟨t, he, presented⟩ := exec_presentCredential (dt := dt) (before := before) h hx
  have paired (hit : Bool) (hh : passbackHit (s.elapse dt) p = hit) :
      presentOutside p (s.elapse dt) = presentPaired p hit (s.elapse dt) :=
    ((presentOutside_admitted (s := s.elapse dt) ha).trans (modeStep_paired _ hm)).trans (by rw [hh])
  rw [decidePresentation_outside hs] at presented
  obtain ⟨free, -, unlocked, -⟩ := ha
  refine ⟨t, he, ?_⟩
  dsimp only
  refine ⟨fun hr => ?_, fun r hr hid => ?_, fun r hit hr hid hh => ?_⟩
  · exact presented _ ((paired _ rfl).trans (presentPaired_reserves (s := s.elapse dt) _ hr)) (by simp)
  · exact presented _ ((paired _ rfl).trans (presentPaired_same (s := s.elapse dt) _ hr hid)) rfl
  · rw [paired hit (passbackHit_eq (s := s.elapse dt) hh), presentPaired_completes (s := s.elapse dt) hit hr hid]
      at presented
    refine ⟨fun hp => ?_, fun hp => ?_⟩
    · exact presented _ (completePair_released (s := s.elapse dt) free unlocked hit hp) (by simp)
    · exact presented _ (completePair_pending (s := s.elapse dt) free unlocked hit hp) (by simp)

end Sys2Proof.Machine
end

section
/-! SUPPORT. A full transmit queue (R173): what a new frame takes from it, and what a STATUS takes after it. -/

namespace Sys2Proof.Machine

/-! ## A new entry -/

/-- R173: an entry stays unless it is the last and the new one is more urgent. -/
theorem makePlace_keeps (e : QueueEntry) {q : List QueueEntry} {x : QueueEntry} (hx : x ∈ q) :
    x ∈ (makePlace e q).1 ∨ (q.getLast? = some x ∧ e.frame.urgency < x.frame.urgency) := by
  have placed {r : List QueueEntry} (h : x ∈ r) : x ∈ placeEntry e r :=
    (placeEntry_perm e r).mem_iff.mpr (List.mem_cons_of_mem _ h)
  unfold makePlace
  split
  · exact .inl (placed hx)
  · split
    · exact .inl hx
    · next last hl =>
      split
      · next hu =>
        rw [← List.dropLast_append_getLast? last hl, List.mem_append, List.mem_singleton] at hx
        rcases hx with hx | rfl
        · exact .inl (placed hx)
        · exact .inr ⟨hl, hu⟩
      · exact .inl hx

section
variable {e last : QueueEntry} {q : List QueueEntry} (hl : q.length = 6) (hlast : q.getLast? = some last)
include hl hlast

theorem makePlace_takes (hu : e.frame.urgency < last.frame.urgency) :
    makePlace e q = (placeEntry e q.dropLast, true) := by
  unfold makePlace
  rw [if_neg (by rw [hl]; decide), hlast]
  exact if_pos hu

theorem makePlace_drops (hu : last.frame.urgency ≤ e.frame.urgency) : makePlace e q = (q, true) := by
  unfold makePlace
  rw [if_neg (by rw [hl]; decide), hlast]
  exact if_neg (Nat.not_lt.mpr hu)

end

/-- R173: a full queue loses a frame. -/
theorem makePlace_loses (e : QueueEntry) {q : List QueueEntry} (hl : q.length = 6) : (makePlace e q).2 = true := by
  obtain ⟨last, hlast⟩ : ∃ last, q.getLast? = some last := by
    cases q with
    | nil => cases hl
    | cons x xs => exact ⟨_, List.getLast?_cons⟩
  rcases Nat.lt_or_ge e.frame.urgency last.frame.urgency with hu | hu
  · rw [makePlace_takes hl hlast hu]
  · rw [makePlace_drops hl hlast hu]

section
variable {f : Frame} (s : State) (hf : f.supersedes = false)
include hf

/-- R173: a frame that supersedes nothing is a new entry. -/
theorem enqueue_new : enqueue f s =
    overrunIf (makePlace { frame := f, order := s.bus.nextOrder } s.bus.queue).2 (s.setBus { s.bus with
      queue := (makePlace { frame := f, order := s.bus.nextOrder } s.bus.queue).1
      nextOrder := s.bus.nextOrder + 1 }) := by
  unfold enqueue
  rw [hf]
  rfl

theorem enqueue_new_bus : (enqueue f s).bus = { s.bus with
    queue := (makePlace { frame := f, order := s.bus.nextOrder } s.bus.queue).1
    nextOrder := s.bus.nextOrder + 1 } := by
  rw [enqueue_new s hf, overrunIf_queue]
  rfl

theorem enqueue_overruns (hl : s.bus.queue.length = 6) : ((enqueue f s).source .transmitOverrun).pending = true := by
  rw [enqueue_new s hf, makePlace_loses _ hl]
  exact raise_pending .transmitOverrun _

end

/-! ## A STATUS -/

/-- What a STATUS can do to the queue: every entry but a QUERY keeps its place, with newer content perhaps, and every
order is one of an entry that was there, or a new one. -/
structure Yields (b c : Bus) : Prop where
  kept : ∀ e ∈ b.queue, e.frame.kind ≠ 7 → ∃ x ∈ c.queue, Kept e x
  orders : ∀ x ∈ c.queue, (∃ e ∈ b.queue, x.order = e.order) ∨ b.nextOrder ≤ x.order
  next : b.nextOrder ≤ c.nextOrder

theorem Yields.refl (b : Bus) : Yields b b := ⟨fun e he _ => ⟨e, he, .refl e⟩, fun x hx => .inl ⟨x, hx, rfl⟩, le_rfl⟩

theorem Yields.trans {b c d : Bus} (h : Yields b c) (k : Yields c d) : Yields b d where
  kept e he hn := by
    obtain ⟨x, hx, hex⟩ := h.kept e he hn
    obtain ⟨y, hy, hxy⟩ := k.kept x hx (by rw [hex.2.1]; exact hn)
    exact ⟨y, hy, hex.trans hxy⟩
  orders x hx := by
    rcases k.orders x hx with ⟨y, hy, hxy⟩ | hx
    · rw [hxy]
      exact h.orders y hy
    · exact .inr (h.next.trans hx)
  next := h.next.trans k.next

theorem supersede_orders (f : Frame) (q : List QueueEntry) :
    (supersede f q).map QueueEntry.order = q.map QueueEntry.order := by
  induction q with
  | nil => rfl
  | cons e q ih =>
    unfold supersede
    split
    · rfl
    · rw [List.map_cons, ih, List.map_cons]

/-- R171: only a QUERY is less urgent than a STATUS. -/
theorem kind_of_urgency {f : Frame} (h : 5 < f.urgency) : f.kind = 7 := by
  cases f
  case query => rfl
  all_goals simp [Frame.urgency, Frame.kind, kindUrgency] at h

/-- R173, R181: a STATUS supersedes one that waits, or takes a place; in a full queue it takes a QUERY's or none. -/
theorem enqueue_status_yields (c : Announcement) (s : State) : Yields s.bus (enqueue (.status c) s).bus := by
  unfold enqueue
  split
  · refine ⟨fun e he _ => supersede_kept _ rfl _ e he, fun x hx => .inl ?_, le_rfl⟩
    have order : x.order ∈ s.bus.queue.map QueueEntry.order := by
      rw [← supersede_orders (.status c)]
      exact List.mem_map_of_mem hx
    obtain ⟨e, he, heq⟩ := List.mem_map.mp order
    exact ⟨e, he, heq.symm⟩
  · dsimp only
    rw [overrunIf_queue]
    refine ⟨fun e he hn => ?_, fun x hx => ?_, Nat.le_succ _⟩
    · rcases makePlace_keeps { frame := .status c, order := s.bus.nextOrder } he with h | ⟨-, h⟩
      · exact ⟨e, h, .refl e⟩
      · exact absurd (kind_of_urgency h) hn
    · rcases makePlace_mem _ _ x hx with rfl | h
      · exact .inr le_rfl
      · exact .inl ⟨x, h, rfl⟩

theorem settleStatus_yields (s : State) : Yields s.bus (settleStatus s).bus := by
  unfold settleStatus requestStatus
  split
  · exact .refl _
  · have announced : Yields s.bus (s.setBus { s.bus with announced := s.announcement }).bus :=
      ⟨(Yields.refl s.bus).kept, (Yields.refl s.bus).orders, le_rfl⟩
    split
    · exact announced.trans (enqueue_status_yields _ _)
    · exact announced

theorem settleLoop_yields (n : Nat) (s : State) : Yields s.bus (settleLoop n s).bus := by
  induction n generalizing s with
  | zero => exact .refl _
  | succ n ih =>
    unfold settleLoop
    split
    · exact .refl _
    · refine Yields.trans ?_ (ih _)
      have k := settleStatus_yields (settlePosture (settleConditions s))
      rwa [settlePosture_bus, (settleConditions_rest s).2.2.2.2.2, ← settleRound_bus] at k

/-- R173: what follows from an event that ends no INHIBITED sends a STATUS at most. -/
theorem settle_yields {s : State} (n : s.NoStart) : Yields s.bus (settle s).bus := by
  have first : (entered s).bus = s.bus := by
    rw [entered_bus, evalOccupancy_of_noStart s n]
    rfl
  unfold settle
  split
  · rw [← first]
    exact settleLoop_yields _ (entered s)
  · exact .refl _

/-! ## A frame for a full queue -/

section
variable {f : Frame} {s : State}

/-- R173: a frame is handed to a full queue, and the event is settled. -/
theorem settle_overran (hf : f.supersedes = false) (h7 : f.kind ≠ 7) (hw : s.bus.Wf) (hl : s.bus.queue.length = 6)
    (n : s.NoStart) : Overran { frame := f, order := s.bus.nextOrder } s (settle (enqueue f s)) := by
  have only := enqueue_only f s
  obtain ⟨kept, orders, -⟩ := settle_yields (n.of_handed only.toHanded (by rw [only.seq_eq]) (by rw [only.seq_eq]))
  simp only [enqueue_new_bus s hf] at kept orders
  obtain ⟨-, -, -, -, nodup, older, -⟩ := hw
  refine ⟨(settle_handed _).raisedStay _ (by decide) (enqueue_overruns s hf hl), fun last hlast hu => ?_,
    fun last hlast hu => ?_, fun q hq hn hk => ?_⟩
  · rw [makePlace_takes hl hlast hu] at kept orders
    have split := List.dropLast_append_getLast? last hlast
    have hlt : last.order < s.bus.nextOrder := older last (List.mem_of_getLast? hlast)
    refine ⟨kept _ ((placeEntry_perm _ _).mem_iff.mpr List.mem_cons_self) h7, fun x hx heq => ?_⟩
    rcases orders x hx with ⟨y, hy, hxy⟩ | hx
    · rcases List.mem_cons.mp ((placeEntry_perm _ _).mem_iff.mp hy) with rfl | hy
      · exact absurd (heq.symm.trans hxy) (Nat.ne_of_lt hlt)
      · rw [← split, List.map_append, List.nodup_append] at nodup
        obtain ⟨-, -, apart⟩ := nodup
        exact apart _ (List.mem_map_of_mem hy) _ (List.mem_singleton_self _) (hxy.symm.trans heq)
    · exact absurd heq (Nat.ne_of_gt (hlt.trans hx))
  · rw [makePlace_drops hl hlast hu] at kept orders
    refine ⟨fun x hx heq => ?_, fun hk => ?_⟩
    · rcases orders x hx with ⟨y, hy, hxy⟩ | hx
      · exact absurd (hxy.symm.trans heq) (Nat.ne_of_lt (older y hy))
      · exact absurd heq (Nat.ne_of_gt hx)
    · obtain ⟨x, hx, ho, hkind, -⟩ := kept last (List.mem_of_getLast? hlast) hk
      exact ⟨x, hx, ho, hkind⟩
  · rcases makePlace_keeps { frame := f, order := s.bus.nextOrder } hq with h | ⟨h, -⟩
    · exact kept q h hk
    · exact absurd h hn

end

end Sys2Proof.Machine
end

section
/-! SUPPORT. The pair window (R111) and CONFIRM_REMOTE (R115). -/

namespace Sys2Proof.Machine

/-! ## The pair window -/

/-- R111: the window expires. -/
theorem pairExpiry_breaks {s : State} {d : DoorId} {r : Reservation} (h : s.reservation d = some r) :
    pairExpiry d s = ((s.reach r.window).setReservation d none).setBroken d true := by
  have there : ((s.reach r.window).reservation d).isSome = true := congrArg Option.isSome h
  unfold pairExpiry
  rw [h]
  exact if_pos there

/-! ## CONFIRM_REMOTE -/

/-- R188: a two-byte parameter, its bytes side by side. -/
theorem word2_append (h l : Byte) : BitVec.ofNat 16 (word2 h l) = (h ++ l : BitVec 16) := by
  apply BitVec.eq_of_toNat_eq
  rw [BitVec.toNat_append, BitVec.toNat_ofNat, word2, ← Nat.shiftLeft_add_eq_or_of_lt l.isLt, Nat.shiftLeft_eq]
  have := h.isLt
  have := l.isLt
  omega

theorem word2_pos {h l : Byte} (n : ¬(h.toNat = 0 ∧ l.toNat = 0)) : 1 ≤ word2 h l := by
  unfold word2
  omega

theorem doorOfNat_isSome {n : Nat} (h : n ≤ 1) : (doorOfNat? n).isSome = true := by
  interval_cases n <;> rfl

/-- R115, R187: parameters in their ranges ask for a CONFIRM of the five fields. -/
theorem confirmOperands_ok {s : State} {target door tag h l cls : Byte}
    (ok : argumentsOk s 8 [target, door, tag, h, l, cls]) :
    confirmOperands s [target, door, tag, h, l, cls] = some (.confirm target door tag (h ++ l) cls) := by
  obtain ⟨h1, h48, hs, hd, ht, hn, hc⟩ := ok
  unfold confirmOperands
  rw [← word2_append]
  exact if_pos ⟨h1, h48, hs, doorOfNat_isSome hd, ht, word2_pos hn, hc⟩

/-- A change of the port does not show in what hand-offs leave. -/
theorem Handed.setPort {s t : State} (h : Handed s t) (p : Port) : Handed (s.setPort p) (t.setPort p) :=
  { h with port := rfl }

/-- R115: the frame is handed to the queue, and CONFIRM_SENT answered. -/
theorem exec_confirmRemote {s : State} {dt before : Nat} {target door tag h l cls : Byte} (idle : s.AtPanel)
    (ok : argumentsOk s 8 [target, door, tag, h, l, cls]) :
    exec (.confirmRemote dt ⟨[6, target, door, tag, h, l, cls], before⟩) s =
      .next ((settle (enqueue (.confirm target door tag (h ++ l) cls)
        (s.taken dt 8 ⟨[6, target, door, tag, h, l, cls], before⟩))).setPort
        (s.answered [6, target, door, tag, h, l, cls] 8 7 0 [])) := by
  have parsed : confirmOperands (s.taken dt 8 ⟨byteOf 6 :: [target, door, tag, h, l, cls], before⟩)
      [target, door, tag, h, l, cls] = some (.confirm target door tag (h ++ l) cls) := confirmOperands_ok ok
  exact congrArg Host.Outcome.next (panelCommand_idle (code := 8) (len := 6) (act := confirmRemote) idle rfl (by decide)
    parsed ((enqueue_only _ _).toHanded.trans (settle_handed _)).port)

section
variable (f : Frame) {s : State}

theorem settle_enqueue_handed (s : State) : Handed s (settle (enqueue f s)) :=
  (enqueue_only f s).toHanded.trans (settle_handed _)

theorem settle_enqueue_doors (hl : s.lockoutStage = s.doors.a.lockout) : (settle (enqueue f s)).doors = s.doors := by
  have doors : (enqueue f s).doors = s.doors := (enqueue_only f s).doors_eq
  exact (settle_doors_of_basis (enqueue_basis s f) (by rw [doors]) hl).trans doors

theorem settle_enqueue_apart (n : s.NoStart) : (settle (enqueue f s)).seq.apart = s.seq.apart := by
  have only := enqueue_only f s
  rw [(settle_after _).seq (n.of_handed only.toHanded (by rw [only.seq_eq]) (by rw [only.seq_eq])), only.seq_eq]

/-- R172: in a queue with room a frame that neither a RELEASE_NOTICE nor a STATUS supersedes waits as it was made. -/
theorem settle_enqueue_waits (h0 : f.kind ≠ 0) (h6 : f.kind ≠ 6) (hq : s.bus.queue.length ≤ 3) :
    { frame := f, order := s.bus.nextOrder : QueueEntry } ∈ (settle (enqueue f s)).bus.queue := by
  have new : f.supersedes = false := by simp [Frame.supersedes, h0, h6]
  have entered := enqueue_placed f s new (by omega)
  refine settle_stays _ ?_ _ ?_ h0 h6
  · rw [entered]
    have := places_placeEntry_le { frame := f, order := s.bus.nextOrder } s.bus.queue
    have := places_le_length_add s.bus.queue
    omega
  · rw [entered]
    exact (placeEntry_perm _ _).mem_iff.mpr List.mem_cons_self

end

/-- Settles O39: a window that expires breaks its reservation, and CONFIRM_REMOTE is its frame handed to the queue. -/
theorem pairWindowsAndRemoteCalls : Obligations.PairWindowsAndRemoteCalls := by
  refine ⟨fun s d r h => congrArg Host.Outcome.next (pairExpiry_breaks h), ?_⟩
  intro s dt before target door tag h l cls idle ok
  obtain ⟨v, hv⟩ : ∃ v, s.taken dt 8 ⟨[6, target, door, tag, h, l, cls], before⟩ = v := ⟨_, rfl⟩
  have taken : v = (s.elapse dt).setPort v.port := by rw [← hv]; rfl
  have he := exec_confirmRemote (dt := dt) (before := before) idle ok
  rw [hv, taken] at he
  have four : (Frame.confirm target door tag (h ++ l) cls).kind = 4 := rfl
  have handed := (settle_enqueue_handed (.confirm target door tag (h ++ l) cls) ((s.elapse dt).setPort v.port)).setPort
    (s.answered [6, target, door, tag, h, l, cls] 8 7 0 [])
  refine ⟨_, he, rfl, fun hq => settle_enqueue_waits _ (by rw [four]; decide) (by rw [four]; decide) hq,
    fun hw hl n => ?_, handed, fun hl => settle_enqueue_doors _ hl, fun n => settle_enqueue_apart _ n⟩
  have lost := settle_overran (f := .confirm target door tag (h ++ l) cls) (s := (s.elapse dt).setPort v.port) rfl
    (by rw [four]; decide) hw hl n
  exact ⟨lost.raised, lost.taken, lost.dropped, lost.kept⟩

end Sys2Proof.Machine
end

section
/-! SUPPORT. A CONFIRM that is judged (R116), what GRANTED completes (R117), and what is recorded and announced
(R118). -/

namespace Sys2Proof.Machine

/-! ## The tests -/

/-- R116: test 5. -/
theorem confirmDoorOk_iff (s : State) (d : DoorId) : confirmDoorOk s d = true ↔
    (s.door d).Free ∧ (s.door d).lockout = false ∧ (d = .b ∨ s.roster.entries.length + 1 ≤ 16) := by
  have busy : doorBusy s d = false ↔ (s.door d).Free := by
    rw [Bool.eq_false_iff, ne_eq, doorBusy_iff, not_not]
  simp only [confirmDoorOk, Bool.and_eq_true, Bool.not_eq_true', busy, Bool.or_eq_true, beq_iff_eq, decide_eq_true_eq,
    and_assoc]
  rfl

/-- R116: GRANTED is for a door that can take the credit. -/
theorem judgeConfirm_granted {s : State} {d : DoorId} {tag holder cls : Nat}
    (h : judgeConfirm s d tag holder cls = .granted) : (s.door d).Free ∧ (s.door d).lockout = false := by
  have passes : confirmDoorOk s d = true := by
    unfold judgeConfirm at h
    split at h
    · cases h
    · split at h
      · cases h
      · iterate 3
          split at h
          · cases h
        split at h
        · next ok => exact ok
        · cases h
  obtain ⟨free, unlocked, -⟩ := (confirmDoorOk_iff s d).mp passes
  exact ⟨free, unlocked⟩

/-- R116: the tests look at the doors, the Entry Rules Unit, the posture, the roster and the image. -/
theorem judgeConfirm_congr {s t : State} (doors : t.doors = s.doors) (entry : t.entry = s.entry)
    (posture : t.posture = s.posture) (roster : t.roster = s.roster) (image : t.image = s.image) (d : DoorId)
    (tag holder cls : Nat) : judgeConfirm t d tag holder cls = judgeConfirm s d tag holder cls := by
  have mode : t.mode d = s.mode d := by
    unfold State.mode State.modeUnder State.img
    rw [posture, image]
  unfold judgeConfirm confirmDoorOk doorBusy
  rw [mode, (entry_fields entry d).1, door_of_doors doors d, roster]

/-! ## What is completed -/

/-- R117: the credit of a confirmation. -/
def Reservation.credit (r : Reservation) : Credit := newCredit .entry [plainHolder r.holder r.cls]

theorem handCredit_entry_bus (d : DoorId) (c : Credit) (s : State) :
    (handCredit d c s).2.entry = s.entry ∧ (handCredit d c s).2.bus = s.bus := by
  unfold handCredit
  split
  · exact ⟨rfl, rfl⟩
  · split
    · exact ⟨rfl, rfl⟩
    · split
      · exact ⟨State.setDoor_entry .., State.setDoor_bus ..⟩
      · exact ⟨State.setDoor_entry .., State.setDoor_bus ..⟩

theorem notePassback_bus (hit : Bool) (s : State) : (notePassback hit s).bus = s.bus := by
  cases hit
  · rfl
  · exact trigger_bus .passback s (by decide) (by decide)

section
variable {s : State} {d : DoorId} {r : Reservation}

/-- R104: the passback that a confirmation notes. -/
def State.confirmsPassback (s : State) (d : DoorId) (r : Reservation) : Bool :=
  d == .a && s.img.softPassback && onRoster s.roster r.holder

theorem completeConfirm_eq (hr : s.reservation d = some r) : completeConfirm d s =
    notePassback (s.confirmsPassback d r) (handCredit d r.credit (s.setReservation d none)).2 := by
  unfold completeConfirm
  rw [hr]
  rfl

theorem completeConfirm_entry (hr : s.reservation d = some r) :
    (completeConfirm d s).entry = (s.setReservation d none).entry := by
  rw [completeConfirm_eq hr, (notePassback_only _ _).entry_eq, (handCredit_entry_bus _ _ _).1]

theorem completeConfirm_bus (d : DoorId) (s : State) : (completeConfirm d s).bus = s.bus := by
  unfold completeConfirm
  split
  · rfl
  · rw [notePassback_bus, (handCredit_entry_bus _ _ _).2, State.setReservation_bus]

section
variable (hr : s.reservation d = some r) (free : (s.door d).Free) (unlocked : (s.door d).lockout = false)
include hr free unlocked

/-- R117: the door is released for the reserving holder. -/
theorem completeConfirm_released (hp : s.PartnerClear d) : (completeConfirm d s).doors =
    (s.setDoor d ((s.door d).releasedUnder r.credit s.now s.img.tr)).doors := by
  have door := setReservation_door (s := s) d (x := none)
  have k := handCredit_released (s := s.setReservation d none) (d := d) (c := r.credit) (by rwa [door])
    (fun _ => by rwa [door]) (by rwa [State.PartnerClear, door])
  rw [completeConfirm_eq hr, notePassback_doors, k, door, State.setReservation_now, State.img,
    State.setReservation_image]
  cases d <;> rfl

/-- R117: the credit waits for the interlock. -/
theorem completeConfirm_pending (hp : ¬s.PartnerClear d) :
    (completeConfirm d s).doors = (s.pended d r.credit s.now).doors := by
  have door := setReservation_door (s := s) d (x := none)
  have k := handCredit_pending (s := s.setReservation d none) (d := d) (c := r.credit) (by rwa [door])
    (fun _ => by rwa [door]) (by rwa [State.PartnerClear, door])
  rw [completeConfirm_eq hr, notePassback_doors, k, State.setReservation_now]
  cases d <;> rfl

end

theorem completeConfirm_lockout (d : DoorId) (s : State) :
    (completeConfirm d s).doors.a.lockout = s.doors.a.lockout := by
  unfold completeConfirm
  split
  · rfl
  · rw [notePassback_doors]
    unfold handCredit releaseDoor pendCredit
    split_ifs <;> cases d <;> rfl

end

/-! ## What is recorded -/

theorem recordOutcome_entry (o : PairOutcome) (s : State) :
    (recordOutcome o s).entry = { s.entry with outcome := some o } := by
  rw [recordOutcome, (askStatus_only _).entry_eq, State.setEntry_entry]

theorem recordOutcome_fields (o : PairOutcome) (s : State) (d : DoorId) :
    (recordOutcome o s).reservation d = s.reservation d ∧ (recordOutcome o s).broken d = s.broken d := by
  cases d <;> simp only [State.reservation, State.broken, recordOutcome_entry, and_self]

theorem recordOutcome_doors (o : PairOutcome) (s : State) : (recordOutcome o s).doors = s.doors := by
  rw [recordOutcome, (askStatus_only _).doors_eq, State.setEntry_doors]

/-! ## A CONFIRM that is judged -/

section
variable {s : State} {d : DoorId} {tag : Byte} {holder cls : Nat}

theorem settle_takeConfirm_outcome : (settle (takeConfirm d tag holder cls s)).entry.outcome =
    some { door := d, tag := tag, outcome := judgeConfirm s d tag.toNat holder cls } := by
  rw [(settle_handed _).outcome, takeConfirm, recordOutcome_entry]

/-- R118: the outcome is announced. -/
theorem settle_takeConfirm_announces (hr : s.running = true) (ha : s.bus.announcing = true)
    (hp : places s.bus.queue ≤ 6) : StatusWaits (settle (takeConfirm d tag holder cls s)) := by
  have announces {w : State} (startup : w.startup = s.startup) (bus : w.bus = s.bus) (x : EntryUnit) :
      StatusWaits (settle (askStatus (w.setEntry x))) := by
    refine settle_askStatus ((running_congr startup).trans hr) ?_ ?_
    · rw [State.setEntry_bus, bus, ha]
    · rwa [State.setEntry_bus, bus]
  unfold takeConfirm recordOutcome
  split
  · exact announces (completeConfirm_spares d s).startup (completeConfirm_bus d s) _
  · exact announces rfl rfl _

section
variable (hn : judgeConfirm s d tag.toNat holder cls ≠ .granted)
include hn

theorem takeConfirm_refused : takeConfirm d tag holder cls s =
    recordOutcome { door := d, tag := tag, outcome := judgeConfirm s d tag.toNat holder cls } s := by
  rw [takeConfirm, if_neg hn]

theorem settle_refused_doors (hl : s.lockoutStage = s.doors.a.lockout) :
    (settle (takeConfirm d tag holder cls s)).doors = s.doors := by
  have doors : (takeConfirm d tag holder cls s).doors = s.doors := by rw [takeConfirm_refused hn, recordOutcome_doors]
  exact (settle_doors_of_basis (takeConfirm_basis s d tag holder cls) (by rw [doors]) hl).trans doors

theorem settle_refused_reservation : (settle (takeConfirm d tag holder cls s)).reservation d = s.reservation d ∨
    ((settle (takeConfirm d tag holder cls s)).reservation d = none ∧
      (settle (takeConfirm d tag holder cls s)).broken d = true) := by
  rcases settle_broke (takeConfirm d tag holder cls s) d with ⟨h, -⟩ | ⟨h, hb, -⟩
  · rw [h, takeConfirm_refused hn]
    exact .inl (recordOutcome_fields _ s d).1
  · exact .inr ⟨h, hb⟩

end

section
variable (hg : judgeConfirm s d tag.toNat holder cls = .granted) {r : Reservation} (hr : s.reservation d = some r)
include hg

theorem takeConfirm_granted : takeConfirm d tag holder cls s =
    recordOutcome { door := d, tag := tag, outcome := .granted } (completeConfirm d s) := by
  rw [takeConfirm, if_pos hg, hg]

theorem settle_granted_doors (hl : s.lockoutStage = s.doors.a.lockout) :
    (settle (takeConfirm d tag holder cls s)).doors = (completeConfirm d s).doors := by
  have doors : (takeConfirm d tag holder cls s).doors = (completeConfirm d s).doors := by
    rw [takeConfirm_granted hg, recordOutcome_doors]
  exact (settle_doors_of_basis (takeConfirm_basis s d tag holder cls) (by rw [doors, completeConfirm_lockout]) hl).trans
    doors

include hr

/-- R117: the reservation is completed, which is no break. -/
theorem settle_granted_reservation : (settle (takeConfirm d tag holder cls s)).reservation d = none ∧
    (settle (takeConfirm d tag holder cls s)).broken d = s.broken d := by
  have completed : (takeConfirm d tag holder cls s).reservation d = none ∧
      (takeConfirm d tag holder cls s).broken d = s.broken d := by
    obtain ⟨reservation, broken⟩ := entry_fields (completeConfirm_entry hr) d
    rw [takeConfirm_granted hg, (recordOutcome_fields _ _ d).1, (recordOutcome_fields _ _ d).2, reservation, broken,
      State.setReservation_reservation, if_pos rfl, State.setReservation_broken]
    exact ⟨rfl, rfl⟩
  obtain ⟨reservation, broken⟩ := completed
  rcases settle_broke (takeConfirm d tag holder cls s) d with ⟨h, hb⟩ | ⟨-, -, h⟩
  · exact ⟨h.trans reservation, hb.trans broken⟩
  · rw [reservation] at h
    cases h

theorem settle_granted_released (hl : s.lockoutStage = s.doors.a.lockout) (hp : s.PartnerClear d) :
    (settle (takeConfirm d tag holder cls s)).door d = (s.door d).releasedUnder r.credit s.now s.img.tr ∧
      (settle (takeConfirm d tag holder cls s)).door (partner d) = s.door (partner d) := by
  obtain ⟨free, unlocked⟩ := judgeConfirm_granted hg
  have doors := (settle_granted_doors hg hl).trans (completeConfirm_released hr free unlocked hp)
  rw [door_of_doors doors, door_of_doors doors, State.setDoor_door, State.setDoor_door, if_pos rfl,
    if_neg (by cases d <;> decide)]
  exact ⟨rfl, rfl⟩

theorem settle_granted_pending (hl : s.lockoutStage = s.doors.a.lockout) (hp : ¬s.PartnerClear d) :
    (settle (takeConfirm d tag holder cls s)).doors = (s.pended d r.credit s.now).doors := by
  obtain ⟨free, unlocked⟩ := judgeConfirm_granted hg
  exact (settle_granted_doors hg hl).trans (completeConfirm_pending hr free unlocked hp)

/-- R104, R117: a SOFT passback at door A. -/
theorem settle_granted_passback (hd : d = .a) (hs : s.img.softPassback = true)
    (he : ∃ e ∈ s.roster.entries, e.holder.id = r.holder) :
    ((settle (takeConfirm d tag holder cls s)).source .passback).pending = true := by
  have found : s.confirmsPassback d r = true := by
    rw [State.confirmsPassback, hd, hs, (onRoster_iff _ _).mpr he]
    rfl
  refine (settle_handed _).raisedStay .passback (by decide) ?_
  rw [takeConfirm_granted hg, recordOutcome]
  refine (askStatus_only _).raisedStay .passback (by decide) ?_
  rw [completeConfirm_eq hr, found]
  exact trigger_pending .passback _ (by decide)

end

end

end Sys2Proof.Machine
end

section
/-! SUPPORT. A CONFIRM from the line to its judgement (R116, R179). -/

namespace Sys2Proof.Machine

/-! ## The station that a frame has reached, as the Entry Rules Unit and the doors find it -/

section
variable (s : State) (c : FrameCall) (a : Nat) (f : Frame)

/-- R24, R28: the hearing of a frame reaches no door, no reservation and no posture. -/
theorem reached_blocks : (s.reached c a f).doors = s.doors ∧ (s.reached c a f).entry = s.entry ∧
    (s.reached c a f).posture = s.posture ∧ (s.reached c a f).roster = s.roster ∧ (s.reached c a f).port = s.port ∧
    (s.reached c a f).image = s.image ∧ (s.reached c a f).startup = s.startup := by
  have only := evalOccupancy_only (s.heard c a f)
  have heard : (s.heard c a f).doors = s.doors ∧ (s.heard c a f).posture = s.posture ∧
      (s.heard c a f).image = s.image := by
    simp [State.heard]
  obtain ⟨roster, port, -, startup, entry, -⟩ := heard_rest s c a f
  obtain ⟨doors, posture, image⟩ := heard
  exact ⟨only.doors_eq.trans doors, only.entry_eq.trans entry, only.posture_eq.trans posture, only.roster.trans roster,
    only.port.trans port, only.image.trans image, only.startup.trans startup⟩

theorem reached_door (d : DoorId) : (s.reached c a f).door d = s.door d := door_of_doors (reached_blocks s c a f).1 d

theorem reached_entry (d : DoorId) : (s.reached c a f).reservation d = s.reservation d ∧
    (s.reached c a f).broken d = s.broken d :=
  entry_fields (reached_blocks s c a f).2.1 d

theorem reached_lockoutStage : (s.reached c a f).lockoutStage = s.lockoutStage := by
  rw [State.reached, evalOccupancy_lockoutStage, State.lockoutStage, State.lockoutStage, State.ordinal, State.ordinal,
    State.stage, State.stage, heard_role, (heard_seq s c a f).1]

theorem reached_address : (s.reached c a f).address = s.address := by
  rw [State.address, State.address, reached_img]

theorem reached_pended_doors (d : DoorId) (x : Credit) (now : Nat) :
    ((s.reached c a f).pended d x now).doors = (s.pended d x now).doors := by
  obtain ⟨doors, -⟩ := reached_blocks s c a f
  cases d <;> simp only [State.pended, State.door, State.setDoor, State.setDoors_doors, doors, reached_img]

theorem reached_announcing : (s.reached c a f).bus.announcing = s.bus.announcing :=
  (reached_handed s c a f).announcing.trans (heard_bus s c a f).2

theorem reached_running (h : s.receiving = true) : (s.reached c a f).running = true := by
  obtain ⟨-, -, -, -, -, -, startup⟩ := reached_blocks s c a f
  exact (running_congr startup).trans (running_of_receiving h)

/-- R75: lockout in step stays in step. -/
theorem reached_calm (hl : s.lockoutStage = s.doors.a.lockout) :
    (s.reached c a f).lockoutStage = (s.reached c a f).doors.a.lockout := by
  rw [reached_lockoutStage, (reached_blocks s c a f).1, hl]

theorem reached_partnerClear (d : DoorId) : (s.reached c a f).PartnerClear d ↔ s.PartnerClear d := by
  rw [State.PartnerClear, State.PartnerClear, reached_door]

/-- R116: the tests find the station as it was. -/
theorem reached_judge (d : DoorId) (tag holder cls : Nat) :
    judgeConfirm (s.reached c a f) d tag holder cls = judgeConfirm s d tag holder cls := by
  obtain ⟨doors, entry, posture, roster, -, image, -⟩ := reached_blocks s c a f
  exact judgeConfirm_congr doors entry posture roster image d tag holder cls

end

/-! ## The owner of a CONFIRM -/

theorem doorOfNat_doorCode (d : DoorId) : doorOfNat? (doorCode d) = some d := by cases d <;> rfl

theorem doorOfNat_none {n : Nat} (h : 1 < n) : doorOfNat? n = none := by
  unfold doorOfNat?
  split
  · omega
  · omega
  · rfl

section
variable {s : State} {a : Nat} {target door tag : Byte} {holder : BitVec 16} {cls : Byte}

/-- R116: a CONFIRM for this station with its fields in range is judged. -/
theorem confirmOwner_judges {d : DoorId} (ht : target.toNat = s.address) (hd : doorCode d = door.toNat) (hg : tag ≠ 0)
    (hh : holder ≠ 0) (hc : cls.toNat ≤ 7) : confirmOwner a (.confirm target door tag holder cls) s =
      takeConfirm d tag holder.toNat cls.toNat s := by
  have tag1 : 1 ≤ tag.toNat := Nat.one_le_iff_ne_zero.mpr fun h => hg (BitVec.eq_of_toNat_eq h)
  have holder1 : 1 ≤ holder.toNat := Nat.one_le_iff_ne_zero.mpr fun h => hh (BitVec.eq_of_toNat_eq h)
  simp only [confirmOwner, ← hd, doorOfNat_doorCode]
  exact if_pos ⟨ht, tag1, holder1, hc⟩

/-- R116: any other is ignored. -/
theorem confirmOwner_ignores
    (h : target.toNat ≠ s.address ∨ 1 < door.toNat ∨ tag = 0 ∨ holder = 0 ∨ 7 < cls.toNat) :
    confirmOwner a (.confirm target door tag holder cls) s = s := by
  unfold confirmOwner
  dsimp only
  split
  · next d hd =>
    refine if_neg ?_
    rintro ⟨ht, hg, hh, hc⟩
    rcases h with h | h | rfl | rfl | h
    · exact h ht
    · exact absurd ((doorOfNat_none h).symm.trans hd) nofun
    · exact absurd hg (by decide)
    · exact absurd hh (by decide)
    · omega
  · rfl

end

theorem exec_confirmFrame {s : State} {dt a : Nat} {bits : List Bool} {f : Frame}
    (h : Reaches { kind := 4, dt := dt, bits := bits } s a f) : exec (.confirmFrame dt bits) s =
      .next (settle (confirmOwner a f (s.reached { kind := 4, dt := dt, bits := bits } a f))) :=
  congrArg Host.Outcome.next (receiveFrame_reaches h confirmOwner)

/-! ## The judgement, told from the station before the frame -/

section
variable {s : State} {c : FrameCall} {a : Nat} {f : Frame} {d : DoorId} {tag : Byte} {holder cls : Nat} {t : State}
  (ht : settle (takeConfirm d tag holder cls (s.reached c a f)) = t)
include ht

/-- R116: any other outcome than GRANTED moves no door, and completes no reservation. -/
theorem reached_refused (refused : judgeConfirm (s.reached c a f) d tag.toNat holder cls ≠ .granted) :
    (s.lockoutStage = s.doors.a.lockout → t.doors = s.doors) ∧
    (t.reservation d = s.reservation d ∨ (t.reservation d = none ∧ t.broken d = true)) := by
  subst ht
  rw [← (reached_entry s c a f d).1]
  exact ⟨fun hl => (settle_refused_doors refused (reached_calm s c a f hl)).trans (reached_blocks s c a f).1,
    settle_refused_reservation refused⟩

/-- R117: GRANTED completes the reservation. -/
theorem reached_granted {r : Reservation} (granted : judgeConfirm (s.reached c a f) d tag.toNat holder cls = .granted)
    (hr : s.reservation d = some r) : t.reservation d = none ∧ t.broken d = s.broken d ∧
      (s.lockoutStage = s.doors.a.lockout → s.PartnerClear d →
        t.door d = (s.door d).releasedUnder r.credit (s.now + c.dt) s.img.tr ∧
        t.door (partner d) = s.door (partner d)) ∧
      (s.lockoutStage = s.doors.a.lockout → ¬s.PartnerClear d →
        t.doors = (s.pended d r.credit (s.now + c.dt)).doors) ∧
      (d = .a → s.img.softPassback = true → (∃ e ∈ s.roster.entries, e.holder.id = r.holder) →
        (t.source .passback).pending = true) := by
  subst ht
  rw [← (reached_entry s c a f d).1] at hr
  obtain ⟨gone, whole⟩ := settle_granted_reservation granted hr
  refine ⟨gone, whole.trans (reached_entry s c a f d).2, fun hl hp => ?_, fun hl hp => ?_, fun hd hs hx => ?_⟩
  · have released := settle_granted_released granted hr (reached_calm s c a f hl)
      ((reached_partnerClear s c a f d).mpr hp)
    rwa [reached_door, reached_door, reached_now, reached_img] at released
  · have waits := settle_granted_pending granted hr (reached_calm s c a f hl)
      (fun k => hp ((reached_partnerClear s c a f d).mp k))
    rwa [reached_now, reached_pended_doors] at waits
  · obtain ⟨-, -, -, roster, -⟩ := reached_blocks s c a f
    exact settle_granted_passback granted hr hd (by rwa [reached_img]) (by rwa [roster])

end

/-- Settles O40: the frame is judged on the station that it has reached, which is as it was for every test; what GRANTED
completes and what is recorded follow, and the event is settled. -/
theorem confirmationsAreJudged : Obligations.ConfirmationsAreJudged := by
  intro s dt a bits target door tag holder cls h
  have he := exec_confirmFrame h
  obtain ⟨doors, entry, -, roster, port, -, -⟩ :=
    reached_blocks s { kind := 4, dt := dt, bits := bits } a (.confirm target door tag holder cls)
  have address := reached_address s { kind := 4, dt := dt, bits := bits } a (.confirm target door tag holder cls)
  have spares (u : State) : Spares u (settle (confirmOwner a (.confirm target door tag holder cls) u)) :=
    (confirmOwner_spares a _ u).trans (settle_handed _).spares
  refine ⟨_, he, (spares _).roster.trans roster, (spares _).port.trans port,
    (spares _).tag.trans (congrArg EntryUnit.tag entry), fun hi => ?_, fun d ht hd hg hh hc => ?_⟩
  · rw [confirmOwner_ignores (by rwa [address])]
    exact ⟨(settle_handed _).outcome.trans (congrArg EntryUnit.outcome entry),
      fun hl => ((settle_after _).doors (reached_calm s _ a _ hl)).trans doors⟩
  · intro o
    have judged : judgeConfirm s d tag.toNat holder.toNat cls.toNat = o := by
      rcases hr : s.reservation d with _ | r <;> simp only [o, judgeConfirm, confirmDoorOk_iff, hr]
    clear_value o
    subst judged
    rw [confirmOwner_judges (by rwa [address]) hd hg hh hc, ← reached_judge s { kind := 4, dt := dt, bits := bits } a
      (.confirm target door tag holder cls)]
    exact ⟨settle_takeConfirm_outcome,
      fun ha hq => settle_takeConfirm_announces (reached_running s _ a _ h.1) ((reached_announcing s _ a _).trans ha)
        (reached_places s _ a _ (by omega)),
      fun hn => (reached_refused rfl hn).1, fun hn => (reached_refused rfl hn).2,
      fun r granted hr => reached_granted rfl granted hr⟩

end Sys2Proof.Machine
end

section
/-! SUPPORT. The transmit queue stays within its bounds and in order (R172, R173, R175). -/

namespace Sys2Proof.Machine

/-! ## The order of two entries -/

theorem QueueEntry.before_iff {e f : QueueEntry} : e.before f = true ↔
    e.frame.urgency < f.frame.urgency ∨ e.frame.urgency = f.frame.urgency ∧ e.order < f.order := by
  simp [QueueEntry.before]

theorem QueueEntry.before_trans {e f g : QueueEntry} (h : e.before f = true) (k : f.before g = true) :
    e.before g = true := by
  rw [before_iff] at *
  omega

/-- R172: of two entries with different enqueue orders one stands before the other. -/
theorem QueueEntry.before_of_not {e f : QueueEntry} (h : ¬e.before f = true) (hn : f.order ≠ e.order) :
    f.before e = true := by
  rw [before_iff] at *
  omega

theorem mem_placeEntry {e x : QueueEntry} {q : List QueueEntry} : x ∈ placeEntry e q ↔ x = e ∨ x ∈ q := by
  rw [(placeEntry_perm e q).mem_iff, List.mem_cons]

/-- R172: an entry with an order of its own keeps the queue in order. -/
theorem placeEntry_sorted {e : QueueEntry} {q : List QueueEntry} (h : q.Pairwise fun e f => e.before f = true)
    (fresh : ∀ x ∈ q, x.order ≠ e.order) : (placeEntry e q).Pairwise fun e f => e.before f = true := by
  induction q with
  | nil => exact List.pairwise_singleton _ _
  | cons f q ih =>
    obtain ⟨first, rest⟩ := List.pairwise_cons.mp h
    unfold placeEntry
    split
    · next he =>
      have ahead : ∀ x ∈ q, e.before x = true := fun x hx => QueueEntry.before_trans he (first x hx)
      exact List.pairwise_cons.mpr ⟨List.forall_mem_cons.mpr ⟨he, ahead⟩, h⟩
    · next he =>
      refine List.pairwise_cons.mpr ⟨fun x hx => ?_, ih rest fun x hx => fresh x (.tail _ hx)⟩
      rcases mem_placeEntry.mp hx with rfl | hx
      · exact QueueEntry.before_of_not he (fresh f (.head _))
      · exact first x hx

/-! ## The queue alone -/

/-- R172: what `Bus.Wf` says of the queue by itself. -/
structure QueueWf (q : List QueueEntry) : Prop where
  room : q.length ≤ Config.queueSize
  status : q.countP (fun e => e.frame.kind == 6) ≤ 1
  notice : q.countP (fun e => e.frame.kind == 0) ≤ 1
  sorted : q.Pairwise fun e f => e.before f = true
  orders : (q.map QueueEntry.order).Nodup

theorem Bus.wf_iff (b : Bus) : b.Wf ↔ QueueWf b.queue ∧ (∀ e ∈ b.queue, e.order < b.nextOrder) ∧
    ∀ x, b.inFlight = some x → x.order < b.nextOrder ∧ ∀ e ∈ b.queue, e.order ≠ x.order :=
  ⟨fun ⟨room, status, notice, sorted, orders, rest⟩ => ⟨⟨room, status, notice, sorted, orders⟩, rest⟩,
    fun ⟨⟨room, status, notice, sorted, orders⟩, rest⟩ => ⟨room, status, notice, sorted, orders, rest⟩⟩

/-- R171, R173: what the bounds read of an entry. -/
def QueueEntry.key (e : QueueEntry) : Nat × Nat := (e.frame.kind, e.order)

/-- R173: newer content has the kind and the order of what it supersedes. -/
theorem supersede_keys (f : Frame) (q : List QueueEntry) :
    (supersede f q).map QueueEntry.key = q.map QueueEntry.key := by
  induction q with
  | nil => rfl
  | cons e q ih =>
    unfold supersede
    split
    · next h => simp only [List.map_cons, QueueEntry.key, eq_of_beq h]
    · rw [List.map_cons, ih, List.map_cons]

/-- R173: a place is taken in a queue that has one, or in one that has lost an entry for it, or none is taken. -/
theorem makePlace_cases (e : QueueEntry) {q : List QueueEntry} (hq : q.length ≤ Config.queueSize) :
    (makePlace e q).1 = q ∨ ∃ p, p.Sublist q ∧ p.length < Config.queueSize ∧ (makePlace e q).1 = placeEntry e p := by
  unfold makePlace
  split
  · next hl => exact .inr ⟨q, .refl q, hl, rfl⟩
  · split
    · exact .inl rfl
    · next hl _ _ =>
      split
      · refine .inr ⟨q.dropLast, q.dropLast_sublist, ?_, rfl⟩
        simp only [Config.queueSize] at hq hl ⊢
        rw [List.length_dropLast]
        omega
      · exact .inl rfl

namespace QueueWf

variable {p q : List QueueEntry} (h : QueueWf q)
include h

theorem sublist (k : p.Sublist q) : QueueWf p :=
  ⟨k.length_le.trans h.room, k.countP_le.trans h.status, k.countP_le.trans h.notice, h.sorted.sublist k,
    h.orders.sublist (k.map _)⟩

/-- The bounds read the kinds and the orders alone. -/
theorem congr (k : p.map QueueEntry.key = q.map QueueEntry.key) : QueueWf p := by
  have count (n : Nat) (r : List QueueEntry) :
      r.countP (fun e => e.frame.kind == n) = (r.map QueueEntry.key).countP (fun x => x.1 == n) := by
    rw [List.countP_map]
    rfl
  have order (r : List QueueEntry) : r.map QueueEntry.order = (r.map QueueEntry.key).map Prod.snd := by
    rw [List.map_map]
    rfl
  have before (r : List QueueEntry) : r.Pairwise (fun e f => e.before f = true) ↔ (r.map QueueEntry.key).Pairwise
      (fun x y => (kindUrgency x.1 < kindUrgency y.1 || (kindUrgency x.1 == kindUrgency y.1 && x.2 < y.2)) = true) := by
    rw [List.pairwise_map]
    rfl
  refine ⟨?_, ?_, ?_, ?_, ?_⟩
  · rw [← List.length_map QueueEntry.key, k, List.length_map]
    exact h.room
  · rw [count, k, ← count]
    exact h.status
  · rw [count, k, ← count]
    exact h.notice
  · rw [before, k, ← before]
    exact h.sorted
  · rw [order, k, ← order]
    exact h.orders

/-- R172, R173: a new entry takes a place, of whose kind none waits where the kind supersedes. -/
theorem place {e : QueueEntry} (hl : q.length < Config.queueSize) (fresh : ∀ x ∈ q, x.order ≠ e.order)
    (new : e.frame.supersedes = true → ∀ x ∈ q, x.frame.kind ≠ e.frame.kind) : QueueWf (placeEntry e q) := by
  have perm := placeEntry_perm e q
  have count (n : Nat) (hs : e.frame.kind = n → e.frame.supersedes = true)
      (k : q.countP (fun x => x.frame.kind == n) ≤ 1) : (placeEntry e q).countP (fun x => x.frame.kind == n) ≤ 1 := by
    rw [perm.countP_eq, List.countP_cons]
    split
    · next hk =>
      have none : q.countP (fun x => x.frame.kind == n) = 0 := List.countP_eq_zero.mpr fun x hx => by
        simpa using (eq_of_beq hk) ▸ new (hs (eq_of_beq hk)) x hx
      omega
    · exact k
  refine ⟨?_, count 6 ?_ h.status, count 0 ?_ h.notice, placeEntry_sorted h.sorted fresh, ?_⟩
  · rw [perm.length_eq]
    exact hl
  · exact fun hk => by simp [Frame.supersedes, hk]
  · exact fun hk => by simp [Frame.supersedes, hk]
  · rw [(perm.map _).nodup_iff, List.map_cons, List.nodup_cons]
    refine ⟨fun hm => ?_, h.orders⟩
    obtain ⟨x, hx, same⟩ := List.mem_map.mp hm
    exact fresh x hx same

theorem makePlace {e : QueueEntry} (fresh : ∀ x ∈ q, x.order ≠ e.order)
    (new : e.frame.supersedes = true → ∀ x ∈ q, x.frame.kind ≠ e.frame.kind) : QueueWf (makePlace e q).1 := by
  rcases makePlace_cases e h.room with k | ⟨p, hp, hl, k⟩ <;> rw [k]
  · exact h
  · exact (h.sublist hp).place hl (fun x hx => fresh x (hp.subset hx)) fun hs x hx => new hs x (hp.subset hx)

end QueueWf

/-! ## The queue, the transmitter and the next order -/

theorem not_waiting {f : Frame} {q : List QueueEntry}
    (h : ¬(f.supersedes && q.any (fun e => e.frame.kind == f.kind)) = true) (hs : f.supersedes = true) :
    ∀ x ∈ q, x.frame.kind ≠ f.kind := by
  simpa [hs] using h

/-- R173: a frame handed to the queue. -/
theorem enqueue_busWf (f : Frame) {s : State} (h : s.bus.Wf) : (enqueue f s).bus.Wf := by
  obtain ⟨queue, made, flight⟩ := (Bus.wf_iff _).mp h
  refine (Bus.wf_iff _).mpr ?_
  unfold enqueue
  split
  · have keys := supersede_keys f s.bus.queue
    have old {x : QueueEntry} (hx : x ∈ supersede f s.bus.queue) : ∃ e ∈ s.bus.queue, e.order = x.order := by
      obtain ⟨e, he, same⟩ := List.mem_map.mp (keys ▸ List.mem_map_of_mem (f := QueueEntry.key) hx)
      exact ⟨e, he, congrArg Prod.snd same⟩
    refine ⟨queue.congr keys, fun x hx => ?_, fun x hf => ⟨(flight x hf).1, fun y hy => ?_⟩⟩
    · obtain ⟨e, he, same⟩ := old hx
      exact same ▸ made e he
    · obtain ⟨e, he, same⟩ := old hy
      exact same ▸ (flight x hf).2 e he
  · next hn =>
    dsimp only
    rw [overrunIf_queue]
    refine ⟨queue.makePlace (fun x hx => (made x hx).ne) (not_waiting hn), fun x hx => ?_,
      fun x hf => ⟨(flight x hf).1.trans (Nat.lt_succ_self _), fun y hy => ?_⟩⟩
    · rcases makePlace_mem _ _ x hx with rfl | hx
      · exact Nat.lt_succ_self _
      · exact (made x hx).trans (Nat.lt_succ_self _)
    · rcases makePlace_mem _ _ y hy with rfl | hy
      · exact (flight x hf).1.ne'
      · exact (flight x hf).2 y hy

/-- R174: the head of the queue goes into the transmitter. -/
theorem Bus.Wf.transmits {b c : Bus} {e : QueueEntry} {q : List QueueEntry} (h : b.Wf) (hq : b.queue = e :: q)
    (cq : c.queue = q) (cn : c.nextOrder = b.nextOrder) (cf : c.inFlight = some e) : c.Wf := by
  obtain ⟨queue, made, -⟩ := (wf_iff _).mp h
  rw [hq] at queue made
  rw [wf_iff, cq, cn, cf]
  refine ⟨queue.sublist (List.sublist_cons_self e q), fun x hx => made x (.tail _ hx), ?_⟩
  rintro _ ⟨⟩
  have orders := queue.orders
  rw [List.map_cons, List.nodup_cons] at orders
  exact ⟨made e (.head _), fun x hx same => orders.1 (same ▸ List.mem_map_of_mem hx)⟩

/-- R176, R177: the transmitter is empty. -/
theorem Bus.Wf.idle {b c : Bus} (h : b.Wf) (cq : c.queue = b.queue) (cn : c.nextOrder = b.nextOrder)
    (cf : c.inFlight = none) : c.Wf := by
  obtain ⟨queue, made, -⟩ := (wf_iff _).mp h
  rw [wf_iff, cq, cn, cf]
  exact ⟨queue, made, fun _ k => nomatch k⟩

/-- R175: a frame that lost arbitration returns to the queue with its enqueue order. -/
theorem Bus.Wf.returns {b c : Bus} {e : QueueEntry} (h : b.Wf) (hf : b.inFlight = some e)
    (new : e.frame.supersedes = true → ∀ x ∈ b.queue, x.frame.kind ≠ e.frame.kind)
    (cq : c.queue = (makePlace e b.queue).1) (cn : c.nextOrder = b.nextOrder) (cf : c.inFlight = none) : c.Wf := by
  obtain ⟨queue, made, flight⟩ := (wf_iff _).mp h
  rw [wf_iff, cq, cn, cf]
  refine ⟨queue.makePlace (flight e hf).2 new, fun x hx => ?_, fun _ k => nomatch k⟩
  rcases makePlace_mem _ _ x hx with rfl | hx
  · exact (flight x hf).1
  · exact made x hx

end Sys2Proof.Machine
end

section
/-! SUPPORT. What keeps the tables within their bounds (R122, R58, R166, R107, R108, R172, section 3.2): tables without
repetition, the writes that reach no table, the queue, the Sequencer, the reservations and what follows from an event. -/

namespace Sys2Proof.Machine

/-! ## A table without repetition -/

/-- What R122, R166 and section 3.2 ask of a table: at most `n` entries, and no two with one key. -/
abbrev Keyed {α β : Type} (n : Nat) (key : α → β) (l : List α) : Prop := l.length ≤ n ∧ (l.map key).Nodup

section
variable {α β : Type} {n : Nat} {key : α → β} {l m : List α}

theorem Keyed.sublist (h : Keyed n key l) (k : m.Sublist l) : Keyed n key m :=
  ⟨k.length_le.trans h.1, h.2.sublist (k.map key)⟩

theorem Keyed.append {x : α} (h : Keyed n key l) (room : l.length < n) (new : ∀ y ∈ l, key y ≠ key x) :
    Keyed n key (l ++ [x]) := by
  refine ⟨by rw [List.length_append]; exact room, ?_⟩
  rw [List.map_append, List.nodup_append]
  refine ⟨h.2, List.nodup_singleton _, fun k hk z hz => ?_⟩
  obtain ⟨y, hy, rfl⟩ := List.mem_map.mp hk
  rw [List.map_singleton] at hz
  rw [List.mem_singleton.mp hz]
  exact new y hy

/-- Entries that keep their keys. -/
theorem Keyed.congr (h : Keyed n key l) (k : m.map key = l.map key) : Keyed n key m := by
  refine ⟨?_, k ▸ h.2⟩
  rw [← List.length_map key, k, List.length_map]
  exact h.1

end

theorem abortWf_iff (q : Sequencer) : q.AbortWf ↔ Keyed Config.abortSize id q.abortSet := by
  rw [Keyed, List.map_id]

/-! ## The tables -/

/-- What the bounds of O58 are about. -/
structure Tables where
  entries : List RosterEntry
  list : List Detection
  abortSet : List Nat
  remote : List RemoteEntry
  tag : Nat
  resA : Option Reservation
  resB : Option Reservation
  queue : List QueueEntry
  nextOrder : Nat
  inFlight : Option QueueEntry

def State.tables (s : State) : Tables where
  entries := s.roster.entries
  list := s.seq.list
  abortSet := s.seq.abortSet
  remote := s.ann.remote
  tag := s.entry.tag
  resA := s.entry.resA
  resB := s.entry.resB
  queue := s.bus.queue
  nextOrder := s.bus.nextOrder
  inFlight := s.bus.inFlight

/-- An operation keeps each table within its bounds. -/
structure Bounds (s t : State) : Prop where
  roster : s.roster.Wf → t.roster.Wf
  list : s.seq.ListWf → t.seq.ListWf
  abort : s.seq.AbortWf → t.seq.AbortWf
  remote : s.ann.RemoteWf → t.ann.RemoteWf
  tag : s.entry.TagWf → t.entry.TagWf
  bus : s.bus.Wf → t.bus.Wf

namespace Bounds

theorem refl (s : State) : Bounds s s := ⟨id, id, id, id, id, id⟩

theorem trans {s t u : State} (h : Bounds s t) (k : Bounds t u) : Bounds s u :=
  ⟨k.roster ∘ h.roster, k.list ∘ h.list, k.abort ∘ h.abort, k.remote ∘ h.remote, k.tag ∘ h.tag, k.bus ∘ h.bus⟩

theorem foldl {α : Type} {f : State → α → State} (h : ∀ s x, Bounds s (f s x)) (xs : List α) (s : State) :
    Bounds s (xs.foldl f s) := by
  induction xs generalizing s with
  | nil => exact .refl s
  | cons x xs ih => exact (h s x).trans (ih _)

/-- An operation that reaches no table. -/
theorem of_tables {s t : State} (h : t.tables = s.tables) : Bounds s t := by
  obtain ⟨entries, list, abortSet, remote, tag, resA, resB, queue, nextOrder, inFlight⟩ := Tables.mk.inj h
  exact ⟨fun k => by rwa [Roster.Wf, entries], fun k => by rwa [Sequencer.ListWf, list],
    fun k => by rwa [Sequencer.AbortWf, abortSet], fun k => by rwa [Annunciator.RemoteWf, remote],
    fun k => by rwa [EntryUnit.TagWf, tag, resA, resB], fun k => by rwa [Bus.Wf, queue, nextOrder, inFlight]⟩

/-- An operation after one that reaches no table. -/
theorem after {s u t : State} (h : Bounds u t) (hu : u.tables = s.tables) : Bounds s t := (of_tables hu).trans h

section
variable {s : State}

theorem setRoster {r : Roster} (h : s.roster.Wf → r.Wf) : Bounds s (s.setRoster r) := ⟨h, id, id, id, id, id⟩

theorem setSeq {q : Sequencer} (hl : s.seq.ListWf → q.ListWf) (ha : s.seq.AbortWf → q.AbortWf) :
    Bounds s (s.setSeq q) := ⟨id, hl, ha, id, id, id⟩

theorem setList {l : List Detection} (h : s.seq.ListWf → { s.seq with list := l }.ListWf) :
    Bounds s (s.setSeq { s.seq with list := l }) := setSeq h id

theorem setAnn {a : Annunciator} (h : s.ann.RemoteWf → a.RemoteWf) : Bounds s (s.setAnn a) := ⟨id, id, id, h, id, id⟩

theorem setEntry {e : EntryUnit} (h : s.entry.TagWf → e.TagWf) : Bounds s (s.setEntry e) := ⟨id, id, id, id, h, id⟩

theorem setBus {b : Bus} (h : s.bus.Wf → b.Wf) : Bounds s (s.setBus b) := ⟨id, id, id, id, id, h⟩

end

end Bounds

/-! ## What reaches no table -/

section
variable (s : State)

@[simp] theorem setPeer_tables (a : Nat) (x : Peer) : (s.setPeer a x).tables = s.tables := by
  unfold State.setPeer
  split <;> rfl

@[simp] theorem hear_tables (levels : List Bool) : (s.hear levels).tables = s.tables := by
  unfold State.hear
  split <;> rfl

@[simp] theorem setDoor_tables (d : DoorId) (x : Door) : (s.setDoor d x).tables = s.tables := by cases d <;> rfl

@[simp] theorem setBroken_tables (d : DoorId) (x : Bool) : (s.setBroken d x).tables = s.tables := by cases d <;> rfl

@[simp] theorem raise_tables (x : Source) : (raise x s).tables = s.tables := by
  unfold raise
  split <;> rfl

@[simp] theorem overrunIf_tables (lost : Bool) : (overrunIf lost s).tables = s.tables := by
  unfold overrunIf
  split <;> simp

@[simp] theorem setDoubt_tables (c : DoubtCause) : (setDoubt c s).tables = s.tables := by
  unfold setDoubt
  split <;> rfl

@[simp] theorem rotate_tables (x : Source) : (rotate x s).tables = s.tables := by
  unfold rotate
  split <;> rfl

@[simp] theorem releaseDoor_tables (d : DoorId) (c : Credit) : (releaseDoor d c s).tables = s.tables := by
  simp [releaseDoor]

@[simp] theorem interlockTest_tables : (interlockTest s).tables = s.tables := by
  have granted (d : DoorId) : (grantRequest d s).tables = s.tables := by
    unfold grantRequest
    split <;> simp
  unfold interlockTest
  split
  · split <;> exact granted _
  · split
    · exact granted _
    · rfl

@[simp] theorem secureDoor_tables (d : DoorId) : (secureDoor d s).tables = s.tables := by simp [secureDoor]

@[simp] theorem lockoutOn_tables : (lockoutOn s).tables = s.tables := by
  unfold lockoutOn
  dsimp only
  split
  · exact interlockTest_tables _
  · rfl

@[simp] theorem pressExit_tables (d : DoorId) : (pressExit d s).tables = s.tables := by
  unfold pressExit
  split <;> simp

@[simp] theorem handCredit_tables (d : DoorId) (c : Credit) : (handCredit d c s).2.tables = s.tables := by
  unfold handCredit
  split
  · rfl
  · split
    · rfl
    · split
      · exact releaseDoor_tables s d c
      · exact setDoor_tables (s.setDoors _) d _

end

/-! ## The queue -/

theorem enqueue_bounds (f : Frame) (s : State) : Bounds s (enqueue f s) := by
  have only := enqueue_only f s
  exact ⟨fun k => by rwa [only.roster], fun k => by rwa [only.seq_eq], fun k => by rwa [only.seq_eq],
    fun k => by rwa [Annunciator.RemoteWf, only.remote], fun k => by rwa [only.entry_eq], enqueue_busWf f⟩

theorem trigger_bounds (x : Source) (s : State) : Bounds s (trigger x s) := by
  have raised : Bounds s (raise x s) := .of_tables (raise_tables s x)
  unfold trigger
  split
  · exact raised.trans (enqueue_bounds _ _)
  · exact raised

theorem requestStatus_bounds (s : State) : Bounds s (requestStatus s) := by
  unfold requestStatus
  split
  · exact enqueue_bounds _ s
  · exact .refl s

theorem askStatus_bounds (s : State) : Bounds s (askStatus s) := (requestStatus_bounds _).after rfl

theorem sendStatus_bounds (s : State) : Bounds s (sendStatus s) := (enqueue_bounds _ _).after rfl

/-! ## The stage machine -/

theorem sendNotice_bounds (s : State) : Bounds s (sendNotice s) := (enqueue_bounds _ _).after rfl

theorem enterStage_bounds (st : Stage) (s : State) : Bounds s (enterStage st s) :=
  (sendNotice_bounds _).after rfl

theorem confirmFlow_bounds (s : State) : Bounds s (confirmFlow s) := (sendNotice_bounds _).after rfl

theorem energiseValve_bounds (s : State) : Bounds s (energiseValve s) := by
  have raised (q : Sequencer) (h : (s.setSeq q).tables = s.tables) : Bounds s (trigger .discharge (s.setSeq q)) :=
    (trigger_bounds _ _).after h
  unfold energiseValve
  dsimp only
  split
  · exact (raised _ (by rfl)).trans (confirmFlow_bounds _)
  · exact raised _ rfl

theorem enterReleasing_bounds (s : State) : Bounds s (enterReleasing s) := by
  unfold enterReleasing
  dsimp only
  split
  · exact (enterStage_bounds _ s).trans (energiseValve_bounds _)
  · exact (enterStage_bounds _ s).trans (.of_tables rfl)

theorem enterCountdown_bounds (r : Nat) (s : State) : Bounds s (enterCountdown r s) := by
  unfold enterCountdown
  split
  · exact enterReleasing_bounds s
  · exact (sendNotice_bounds _).after rfl

theorem enterHeld_bounds (r : Nat) (s : State) : Bounds s (enterHeld r s) := (sendNotice_bounds _).after rfl

theorem startCountdown_bounds (r : Nat) (s : State) : Bounds s (startCountdown r s) := by
  unfold startCountdown
  split
  · exact enterCountdown_bounds r s
  · exact enterHeld_bounds r s

theorem endValvePulse_bounds (s : State) : Bounds s (endValvePulse s) := (enterStage_bounds _ _).after rfl

theorem manualRelease_bounds (s : State) : Bounds s (manualRelease s) := by
  unfold manualRelease
  split
  case h_4 =>
    split
    · exact enterCountdown_bounds _ s
    · exact .refl s
  case h_5 =>
    split
    · exact enterHeld_bounds _ s
    · exact .refl s
  iterate 3 exact startCountdown_bounds _ s
  all_goals exact .refl s

/-! ## The coincidence list -/

theorem coincidenceMet_bounds (s : State) : Bounds s (coincidenceMet s) := by
  unfold coincidenceMet
  split
  · split
    · exact enterStage_bounds _ s
    · exact startCountdown_bounds _ s
  · exact .refl s

theorem followList_bounds (s : State) : Bounds s (followList s) := by
  unfold followList
  split
  · exact enterStage_bounds _ s
  · split
    · exact enterStage_bounds _ s
    · exact .refl s

/-- R46: an entry that is consumed names what it named. -/
theorem latchList_bounds (s : State) : Bounds s (latchList s) :=
  .setSeq (fun h => Keyed.congr h (List.map_map ..)) id

theorem listChanged_bounds (s : State) : Bounds s (listChanged s) := by
  unfold listChanged
  split
  · split
    · exact ((latchList_bounds s).trans (coincidenceMet_bounds _)).trans (followList_bounds _)
    · exact followList_bounds s
  · exact .refl s

/-- R42: a full list loses an entry that is not consumed. -/
theorem makeRoom_room {list room : List Detection} (h : makeRoom list = some room) :
    room.Sublist list ∧ (list.length ≤ Config.listSize → room.length < Config.listSize) := by
  unfold makeRoom at h
  split at h
  · next k =>
    obtain rfl := Option.some.inj h
    exact ⟨.refl list, fun _ => k⟩
  · split at h
    · next hk =>
      obtain rfl := Option.some.inj h
      obtain ⟨e, he, free⟩ := List.any_eq_true.mp hk
      have shorter := List.length_eraseP_of_mem (p := fun e => !e.consumed) he free
      have filled := List.length_pos_of_mem he
      exact ⟨List.eraseP_sublist, by omega⟩
    · cases h

/-- R40: an entry joins what is left of the list, which has a place and does not name its line. -/
theorem newDetection_bounds {room : List Detection} {a : Nat} {l : Fin 4} {g : Group} {s : State}
    (hr : room.Sublist s.seq.list) (hl : s.seq.list.length ≤ Config.listSize → room.length < Config.listSize)
    (hn : ∀ e ∈ room, e.names a l = false) :
    Bounds s (s.setSeq { s.seq with list := room ++ [newDetection s a l g] }) := by
  refine .setSeq (fun h => (Keyed.sublist h hr).append (hl h.1) fun e he same => ?_) id
  obtain ⟨station, line⟩ := Prod.mk.inj same
  simpa [Detection.names, station, line, newDetection] using hn e he

/-- R38, R40 to R42: a detection refreshes an entry, joins in a free place, or is dropped. -/
theorem detect_bounds (r : Bool) (a : Nat) (l : Fin 4) (g : Group) (s : State) : Bounds s (detect r a l g s) := by
  unfold detect
  split
  · exact .refl s
  · split
    · next e he =>
      split
      · exact .refl s
      · refine (newDetection_bounds List.filter_sublist (fun h => ?_) fun x hx => ?_).trans (listChanged_bounds _)
        · have fewer : (s.seq.list.filter fun e => !e.names a l).length < s.seq.list.length :=
            List.length_filter_lt_length_iff_exists.mpr ⟨e, List.mem_of_find?_eq_some he, by
              simpa using List.find?_some he⟩
          exact fewer.trans_le h
        · simpa using (List.mem_filter.mp hx).2
    · next hn =>
      split
      · next room hr =>
        obtain ⟨fewer, free⟩ := makeRoom_room hr
        refine (newDetection_bounds fewer free fun x hx => ?_).trans (listChanged_bounds _)
        simpa using List.find?_eq_none.mp hn x (fewer.subset hx)
      · exact .refl s

/-- R43, R44: fewer entries. -/
theorem dropDetection_bounds (a : Nat) (l : Fin 4) (s : State) : Bounds s (dropDetection a l s) := by
  unfold dropDetection
  split
  · exact (Bounds.setList fun h => Keyed.sublist h List.filter_sublist).trans (listChanged_bounds _)
  · exact .refl s

theorem withdraw_bounds (a : Nat) (l : Fin 4) (s : State) : Bounds s (withdraw a l s) := by
  unfold withdraw
  split
  · exact .refl s
  · exact dropDetection_bounds a l s

/-! ## The abort set, occupancy and mirror -/

/-- R58: an address joins a set that has a place and does not hold it. -/
theorem abortJoin_bounds (a : Nat) (s : State) : Bounds s (abortJoin a s) := by
  unfold abortJoin
  split
  · exact .refl s
  · next hn =>
    obtain ⟨new, room⟩ := not_or.mp hn
    have joined (q : Sequencer) (hl : q.list = s.seq.list) (ha : q.abortSet = s.seq.abortSet ++ [a]) :
        Bounds s (s.setSeq q) := by
      refine .setSeq (fun h => by rwa [Sequencer.ListWf, hl]) fun h => ?_
      rw [abortWf_iff, ha]
      refine ((abortWf_iff _).mp h).append (Nat.not_le.mp room) fun x hx same => new ?_
      simpa [show x = a from same] using hx
    split
    · next empty =>
      have first (q : Sequencer) (hl : q.list = s.seq.list) (ha : q.abortSet = [a]) : Bounds s (s.setSeq q) :=
        joined q hl (by rw [ha, empty]; rfl)
      dsimp only
      split
      · exact (first _ (by rfl) (by rfl)).trans (enterHeld_bounds _ _)
      · exact first _ rfl rfl
    · exact joined _ rfl rfl

theorem abortLeave_bounds (a : Nat) (s : State) : Bounds s (abortLeave a s) := by
  unfold abortLeave
  dsimp only
  split
  · split
    · have emptied : Bounds s (s.setSeq { s.seq with abortSet := [], abortStuck := none }) :=
        .setSeq id fun _ => ⟨Nat.zero_le _, List.nodup_nil⟩
      split
      · exact emptied.trans (enterCountdown_bounds _ _)
      · exact emptied
    · exact .setSeq id fun h =>
        (abortWf_iff _).mpr (((abortWf_iff _).mp h).sublist List.filter_sublist)
  · exact .refl s

theorem actOnCall_bounds (a : Nat) (call : Byte) (s : State) : Bounds s (actOnCall a call s) := by
  unfold actOnCall
  split
  · exact manualRelease_bounds s
  · exact abortJoin_bounds a s
  · exact abortLeave_bounds a s
  · exact .refl s

/-- R47, R70: list and abort set are emptied. -/
theorem resetSequence_bounds (s : State) : Bounds s (resetSequence s) := by
  refine Bounds.trans ?_ (enterStage_bounds _ _)
  exact .setSeq (fun _ => ⟨Nat.zero_le _, List.nodup_nil⟩) fun _ => ⟨Nat.zero_le _, List.nodup_nil⟩

theorem evalOccupancy_bounds (s : State) : Bounds s (evalOccupancy s) := by
  unfold evalOccupancy
  dsimp only
  split
  · exact .refl s
  · split
    · exact (startCountdown_bounds _ _).after rfl
    · exact .of_tables rfl

theorem setMirror_bounds (m : Mirror) (s : State) : Bounds s (setMirror m s) := by
  unfold setMirror
  dsimp only
  split
  · exact (trigger_bounds _ _).after rfl
  · exact .of_tables rfl

/-! ## Reservations -/

/-- R111, R109: a reservation leaves its slot. -/
theorem clearReservation_bounds (d : DoorId) (s : State) : Bounds s (s.setReservation d none) := by
  cases d
  · exact .setEntry fun ⟨least, most, _, b⟩ => ⟨least, most, nofun, b⟩
  · exact .setEntry fun ⟨least, most, a, _⟩ => ⟨least, most, a, nofun⟩

theorem breakAt_bounds (d : DoorId) (s : State) : Bounds s (breakAt d s) := by
  unfold breakAt
  split
  · exact (clearReservation_bounds d s).trans (.of_tables (setBroken_tables _ d true))
  · exact .refl s

theorem breakReservations_bounds (s : State) : Bounds s (breakReservations s) := by
  unfold breakReservations
  split
  · exact ((breakAt_bounds .a s).trans (breakAt_bounds .b _)).trans (trigger_bounds _ _)
  · exact .refl s

/-- R108: from 255 the counter goes to 1. -/
theorem nextTag_range {n : Nat} (least : 1 ≤ n) (most : n ≤ 255) : 1 ≤ nextTag n ∧ nextTag n ≤ 255 := by
  unfold nextTag
  split <;> omega

/-- R108: the tag of a reservation is the counter's. -/
theorem reserve_bounds (p : Presentation) (s : State) : Bounds s (reserve p s) := by
  have made (least : 1 ≤ s.entry.tag) (most : s.entry.tag ≤ 255) (r : Reservation)
      (hr : some (reservationOf p s) = some r) : 1 ≤ r.tag ∧ r.tag ≤ 255 := by
    obtain rfl := Option.some.inj hr
    exact ⟨least, most⟩
  unfold reserve State.setReservation
  split
  · exact .setEntry fun ⟨least, most, _, b⟩ =>
      ⟨(nextTag_range least most).1, (nextTag_range least most).2, made least most, b⟩
  · exact .setEntry fun ⟨least, most, a, _⟩ =>
      ⟨(nextTag_range least most).1, (nextTag_range least most).2, a, made least most⟩

/-! ## What follows from an event -/

theorem settleLockout_bounds (s : State) : Bounds s (settleLockout s) := by
  unfold settleLockout
  split
  · exact .refl s
  · split
    · exact (breakReservations_bounds _).after (lockoutOn_tables s)
    · exact .of_tables rfl

theorem settleCadence_bounds (s : State) : Bounds s (settleCadence s) := by
  unfold settleCadence
  split <;> exact .of_tables rfl

theorem settleConditions_bounds (s : State) : Bounds s (settleConditions s) := by
  have taken (u : State) (x : Source) : Bounds u (settleCondition u x) := by
    unfold settleCondition
    split <;> exact .of_tables rfl
  exact .foldl taken _ s

theorem settlePosture_bounds (s : State) : Bounds s (settlePosture s) := by
  have broken (p : PostureUnit) : Bounds s (breakReservations (recomputeAlarms (s.setPosture p))) :=
    (breakReservations_bounds _).after rfl
  unfold settlePosture
  dsimp only
  split
  · exact .refl s
  · split
    · exact (broken _).trans (trigger_bounds _ _)
    · exact broken _

theorem settleStatus_bounds (s : State) : Bounds s (settleStatus s) := by
  unfold settleStatus
  split
  · exact .refl s
  · exact (requestStatus_bounds _).after rfl

theorem settleOutputs_bounds (s : State) : Bounds s (settleOutputs s) := by
  have driven (u : State) (l : Fin 12) : Bounds u (settleOutput u l) := by
    unfold settleOutput
    split <;> exact .of_tables rfl
  exact .foldl driven _ s

theorem settleRound_bounds (s : State) : Bounds s (settleRound s) :=
  (((settleConditions_bounds s).trans (settlePosture_bounds _)).trans (settleStatus_bounds _)).trans
    (settleOutputs_bounds _)

theorem settleLoop_bounds (n : Nat) (s : State) : Bounds s (settleLoop n s) := by
  induction n generalizing s with
  | zero => exact .refl s
  | succ n ih =>
    unfold settleLoop
    split
    · exact .refl s
    · exact (settleRound_bounds s).trans (ih _)

theorem settle_bounds (s : State) : Bounds s (settle s) := by
  unfold settle
  split
  · exact (((evalOccupancy_bounds s).trans (settleLockout_bounds _)).trans (settleCadence_bounds _)).trans
      (settleLoop_bounds _ _)
  · exact .refl s

theorem Bounds.settled {s u : State} (h : Bounds s u) : Bounds s (settle u) := h.trans (settle_bounds u)

/-- An event whose own effect reaches no table. -/
theorem settled_bounds {s u : State} (h : u.tables = s.tables) : Bounds s (settle u) :=
  (Bounds.of_tables h).settled

end Sys2Proof.Machine
end

section
/-! SUPPORT. Every command keeps the tables within their bounds: frames, filtered inputs, the roster, the credits, the
remote alarm list and the zone bus (R122, R166, R172). -/

namespace Sys2Proof.Machine

/-! ## Commands by their kind -/

theorem panelCommand_bounds {α : Type} {code len : Nat} {parse : State → List Byte → Option α}
    {act : α → State → Answer × State} {dt : Nat} {rest : PanelRest} (hact : ∀ x u, Bounds u (act x u).2) (s : State) :
    Bounds s (panelCommand code len parse act dt rest s) := by
  have port (u : State) (p : Port) (h : Bounds s u) : Bounds s (u.setPort p) := h.trans (.of_tables rfl)
  exact panelCommand_induction port port (fun _ h => h) (fun x u h => h.trans (hact x u)) (.of_tables rfl)

theorem deliver_bounds {owner : Nat → Frame → State → State} (howner : ∀ a f u, Bounds u (owner a f u)) (a : Nat)
    (f : Frame) (s : State) : Bounds s (deliver a f owner s) := by
  unfold deliver
  split
  · exact settled_bounds rfl
  · have heard : Bounds s (peerHeard a f s) := (evalOccupancy_bounds _).after (setPeer_tables s a _)
    exact (heard.trans (howner a f _)).settled

theorem receiveFrame_bounds {kind : Nat} {owner : Nat → Frame → State → State} {bits : List Bool}
    (howner : ∀ a f u, Bounds u (owner a f u)) (s : State) (dt : Nat) :
    Bounds s (receiveFrame kind owner bits (s.elapse dt)) := by
  have heard : Bounds s ((s.elapse dt).hear bits) := .of_tables (hear_tables _ bits)
  unfold receiveFrame
  split
  · split
    · split
      · exact heard.trans (deliver_bounds howner _ _ _)
      · exact heard
    · exact heard
  · exact heard

theorem inputEvent_bounds {i : Input} {act : Bool → State → State} (hact : ∀ b u, Bounds u (act b u)) (level : Bool)
    (e : InputEvent) (s : State) : Bounds s (inputEvent i level act e s) := by
  have taken (u : State) : Bounds u (takeInput i act u) := (hact _ _).after rfl
  unfold inputEvent
  split
  · next dt =>
    refine Bounds.after (u := s.elapse dt) ?_ rfl
    unfold pinMoves
    split
    · exact .refl _
    · split
      · split
        · exact .of_tables rfl
        · unfold pinReturns
          split
          · exact (taken _).trans (.of_tables rfl)
          · exact .of_tables rfl
      · exact .of_tables rfl
  · split
    · split
      · exact .refl s
      · exact (taken _).after rfl
    · exact .refl s

/-- The owner of a panel command that only reports. -/
theorem report_bounds {α : Type} {act : α → State → Answer × State} (h : ∀ x u, (act x u).2 = u) (x : α) (u : State) :
    Bounds u (act x u).2 := by
  rw [h]
  exact .refl u

/-! ## The roster -/

/-- R123: a holder joins a roster that has a place and does not name it. -/
theorem admitHolder_bounds (time : Nat) (s : State) (h : Holder) : Bounds s (admitHolder time s h) := by
  unfold admitHolder
  split
  · exact .refl s
  · next absent =>
    split
    · next room =>
      exact .setRoster fun k => Keyed.append k room fun e he same => absent ((onRoster_iff _ _).mpr ⟨e, he, same⟩)
    · exact .of_tables (setDoubt_tables s _)

/-- R125: an entry leaves. -/
theorem identifiedExit_bounds (id : Nat) (s : State) : Bounds s (identifiedExit id s) := by
  have left (r : Roster) (h : r.entries.Sublist s.roster.entries) : Bounds s (s.setRoster r) :=
    .setRoster fun k => Keyed.sublist k h
  unfold identifiedExit
  split
  · exact trigger_bounds _ s
  · dsimp only
    split
    · exact (left _ List.filter_sublist).trans (trigger_bounds _ _)
    · exact left _ List.filter_sublist

/-- R126, R128: nobody is left on the roster. -/
theorem emptyRoster_bounds {s : State} {r : Roster} (h : r.entries = []) : Bounds s (s.setRoster r) :=
  .setRoster fun _ => by simp [Roster.Wf, h]

theorem anonymousExit_bounds (s : State) : Bounds s (anonymousExit s) := by
  unfold anonymousExit
  split
  · exact .refl s
  · exact emptyRoster_bounds rfl
  · exact .of_tables (setDoubt_tables s _)

theorem consummate_bounds (d : DoorId) (s : State) : Bounds s (consummate d s) := by
  unfold consummate
  split
  · split
    · exact .foldl (admitHolder_bounds _) _ s
    · split
      · exact identifiedExit_bounds _ s
      · exact .refl s
    · exact anonymousExit_bounds s
  · exact .refl s
  · exact .refl s

theorem zoneSweep_bounds (x : Unit) (s : State) : Bounds s (zoneSweep x s).2 := by
  unfold zoneSweep
  split
  · exact Bounds.settled (emptyRoster_bounds rfl)
  · exact .refl s

/-! ## Doors -/

theorem enterHeldOpen_bounds (d : DoorId) (s : State) : Bounds s (enterHeldOpen d s) :=
  (breakReservations_bounds _).after (by simp)

theorem forceDoor_bounds (d : DoorId) (s : State) : Bounds s (forceDoor d s) := by
  have forced (x : Door) : Bounds s (trigger (forcedSource d) (s.setDoor d x)) :=
    (trigger_bounds _ _).after (setDoor_tables s d x)
  exact (forced _).trans ((breakReservations_bounds _).after (setDoubt_tables _ _))

theorem openContact_bounds (d : DoorId) (s : State) : Bounds s (openContact d s) := by
  unfold openContact passOpen
  split
  case h_2 => exact forceDoor_bounds d s
  all_goals exact .of_tables (setDoor_tables s d _)

theorem closeContact_bounds (d : DoorId) (s : State) : Bounds s (closeContact d s) := by
  have passed : Bounds s (secureDoor d (consummate d s)) :=
    (consummate_bounds d s).trans (.of_tables (secureDoor_tables _ d))
  unfold closeContact
  split
  · exact passed
  · exact passed
  · exact .of_tables (secureDoor_tables s d)
  · exact .refl s
  · exact .refl s

theorem contactChange_bounds (d : DoorId) (b : Bool) (s : State) : Bounds s (contactChange d b s) := by
  unfold contactChange
  split
  · split
    · exact (openContact_bounds d s).settled
    · exact ((closeContact_bounds d _).after (setDoor_tables s d _)).settled
  · exact .refl s

theorem exitChange_bounds (d : DoorId) (b : Bool) (s : State) : Bounds s (exitChange d b s) := by
  unfold exitChange
  dsimp only
  split
  · split
    · exact settled_bounds (by simp)
    · exact .of_tables (setDoor_tables s d _)
  · exact .refl s

theorem releaseExpiry_bounds (d : DoorId) (s : State) : Bounds s (releaseExpiry d s) := by
  unfold releaseExpiry
  split
  · exact settled_bounds (secureDoor_tables _ d)
  · exact .refl s

theorem heldExpiry_bounds (d : DoorId) (s : State) : Bounds s (heldExpiry d s) := by
  unfold heldExpiry
  split
  · exact .settled ((enterHeldOpen_bounds d _).after rfl)
  · exact .refl s

theorem waitExpiry_bounds (d : DoorId) (s : State) : Bounds s (waitExpiry d s) := by
  unfold waitExpiry
  split
  · exact .refl s
  · exact .of_tables (setDoor_tables _ d _)

theorem pairExpiry_bounds (d : DoorId) (s : State) : Bounds s (pairExpiry d s) := by
  unfold pairExpiry
  split
  · exact .refl s
  · exact (breakAt_bounds d _).after rfl

/-! ## Credits -/

theorem notePassback_bounds (hit : Bool) (s : State) : Bounds s (notePassback hit s) := by
  unfold notePassback
  split
  · exact trigger_bounds _ s
  · exact .refl s

theorem grantEntry_bounds (p : Presentation) (holders : List Holder) (result : Result) (tag : Nat) (hit : Bool)
    (s : State) : Bounds s (grantEntry p holders result tag hit s).after := by
  have h := handCredit_tables s p.door (newCredit .entry holders)
  unfold grantEntry
  generalize handCredit p.door (newCredit .entry holders) s = answer at h ⊢
  split
  · exact .refl s
  · exact .refl s
  · exact (notePassback_bounds hit _).after h
  · exact (notePassback_bounds hit _).after h

theorem presentInside_bounds (p : Presentation) (s : State) : Bounds s (presentInside p s).after := by
  have h := handCredit_tables s p.door (newCredit .egress [plainHolder p.id p.cls])
  unfold presentInside
  generalize handCredit p.door (newCredit .egress [plainHolder p.id p.cls]) s = answer at h ⊢
  split
  · exact .refl s
  · exact .refl s
  · exact .of_tables h
  · exact .of_tables h

theorem presentEscorted_bounds (p : Presentation) (hit : Bool) (s : State) :
    Bounds s (presentEscorted p hit s).after := by
  unfold presentEscorted
  split
  · exact grantEntry_bounds _ _ _ _ _ s
  · split
    · exact grantEntry_bounds _ _ _ _ _ s
    · exact .refl s

theorem presentPaired_bounds (p : Presentation) (hit : Bool) (s : State) : Bounds s (presentPaired p hit s).after := by
  unfold presentPaired
  split
  · exact reserve_bounds p s
  · split
    · exact .refl s
    · exact (clearReservation_bounds p.door s).trans (grantEntry_bounds _ _ _ _ _ _)

theorem presentOutside_bounds (p : Presentation) (s : State) : Bounds s (presentOutside p s).after := by
  unfold presentOutside
  iterate 7
    split
    · exact .refl s
  unfold modeStep
  split
  · exact grantEntry_bounds _ _ _ _ _ s
  · exact grantEntry_bounds _ _ _ _ _ s
  · exact presentEscorted_bounds p _ s
  · exact presentPaired_bounds p _ s
  · exact presentPaired_bounds p _ s
  · exact .refl s

theorem presentCredential_bounds (p : Presentation) (s : State) : Bounds s (presentCredential p s).2 := by
  have decided : Bounds s (decidePresentation p s).after := by
    unfold decidePresentation
    split
    · exact presentInside_bounds p s
    · exact presentOutside_bounds p s
  exact (decided.trans (.of_tables (setBroken_tables _ _ _))).settled

theorem completeConfirm_bounds (d : DoorId) (s : State) : Bounds s (completeConfirm d s) := by
  unfold completeConfirm
  split
  · exact .refl s
  · exact (clearReservation_bounds d s).trans ((notePassback_bounds _ _).after (handCredit_tables _ _ _))

theorem takeConfirm_bounds (d : DoorId) (tag : Byte) (holder cls : Nat) (s : State) :
    Bounds s (takeConfirm d tag holder cls s) := by
  have recorded (o : PairOutcome) (u : State) : Bounds u (recordOutcome o u) := (askStatus_bounds _).after rfl
  unfold takeConfirm
  split
  · exact (completeConfirm_bounds d s).trans (recorded _ _)
  · exact recorded _ s

/-! ## The remote alarm list -/

/-- R166: an entry joins a list that has a place and holds none of its station and kind. -/
theorem joined_remoteWf {s : State} {a : Nat} {k : RemoteKind} (h : s.ann.RemoteWf)
    (hl : s.ann.remote.length < Config.remoteSize) (hn : ∀ e ∈ s.ann.remote, e.matches a k = false) :
    (joinRemote a k s).ann.RemoteWf := by
  refine Keyed.append h hl fun e he same => ?_
  obtain ⟨station, kind⟩ := Prod.mk.inj same
  simpa [RemoteEntry.matches, station, kind] using hn e he

/-- R167: the oldest entry is evicted; the hand-offs of an eviction do not touch the list. -/
theorem evictOldest_remote (s : State) : (evictOldest s).ann.remote = s.ann.remote.drop 1 := (settle_handed _).remote

theorem evictOldest_bounds (s : State) : Bounds s (evictOldest s) :=
  Bounds.settled (.setAnn fun h => Keyed.sublist h (List.drop_sublist 1 _))

theorem addRemote_bounds (a : Nat) (k : RemoteKind) (s : State) : Bounds s (addRemote a k s) := by
  unfold addRemote
  split
  · exact .refl s
  · next absent =>
    have new : ∀ e ∈ s.ann.remote, e.matches a k = false := by simpa using absent
    split
    · next room => exact .setAnn fun h => joined_remoteWf h room new
    · have evicted := evictOldest_bounds s
      have rest := evictOldest_remote s
      refine { evicted with remote := fun h => joined_remoteWf (evicted.remote h) ?_ fun e he => ?_ }
      · rw [rest, List.length_drop]
        have most := h.1
        simp only [Config.remoteSize] at most ⊢
        omega
      · rw [rest] at he
        exact new e (List.mem_of_mem_drop he)

theorem removeRemote_bounds (a : Nat) (k : RemoteKind) (s : State) : Bounds s (removeRemote a k s) :=
  .setAnn fun h => Keyed.sublist h List.filter_sublist

/-- R158: an acknowledgement leaves the stations and the kinds of the list as they are. -/
theorem ackDuress_named (es : List RemoteEntry) :
    (ackDuress es).map (fun e => (e.station, e.kind)) = es.map fun e => (e.station, e.kind) := by
  induction es with
  | nil => rfl
  | cons e es ih =>
    unfold ackDuress
    split
    · rfl
    · rw [List.map_cons, ih, List.map_cons]

theorem acknowledge_bounds (x : Source) (s : State) : Bounds s (acknowledge x s) := by
  unfold acknowledge
  split
  · have acked : Bounds s (s.setAnn { s.ann with remote := ackDuress s.ann.remote }) :=
      .setAnn fun h => Keyed.congr h (ackDuress_named _)
    exact acked.trans (.of_tables (rotate_tables _ x))
  · exact .of_tables (rotate_tables _ x)

theorem readRemoteList_bounds (x : Unit) (s : State) : Bounds s (readRemoteList x s).2 := by
  refine Bounds.setAnn fun h => Keyed.congr h ?_
  rw [List.map_map]
  refine List.map_congr_left fun e _ => ?_
  simp only [Function.comp_apply]
  split <;> rfl

theorem nextAlarm_bounds (x : Unit) (s : State) : Bounds s (nextAlarm x s).2 := by
  unfold nextAlarm
  split
  · exact (acknowledge_bounds _ s).settled
  · exact .of_tables rfl

/-! ## The zone bus -/

theorem beginFrame_bounds (s : State) : Bounds s (beginFrame s) := by
  unfold beginFrame
  split
  · exact .refl s
  · next hq =>
    split
    · exact .setBus fun h => h.transmits hq rfl rfl rfl
    · exact .refl s

theorem loseArbitration_bounds (s : State) : Bounds s (loseArbitration s) := by
  have returned {e : QueueEntry} (hf : s.bus.inFlight = some e) :
      Bounds s (returnFrame e (s.setBus { s.bus with inFlight := none, recessive := 0 })) := by
    unfold returnFrame
    split
    · exact .setBus fun h => h.idle rfl rfl rfl
    · next hn =>
      refine Bounds.trans ?_ (.of_tables (overrunIf_tables _ _))
      exact .setBus (s := s) fun h => h.returns hf (not_waiting hn) rfl rfl rfl
  unfold loseArbitration
  split
  · exact .refl s
  · next hf => exact (returned hf).settled

theorem bitError_bounds (bits : List Bool) (s : State) : Bounds s (bitError bits s) := by
  have abandoned (u : State) : Bounds u (abandonFrame u) := by
    unfold abandonFrame
    split <;> exact .setBus fun h => h.idle rfl rfl rfl
  unfold bitError
  split
  · exact .refl s
  · exact ((abandoned _).after (hear_tables s bits)).settled

theorem completeFrame_bounds (s : State) : Bounds s (completeFrame s) := by
  unfold completeFrame
  split
  · exact .refl s
  · exact Bounds.after (.setBus fun h => h.idle rfl rfl rfl) (hear_tables s _)

theorem quietExpiry_bounds (s : State) : Bounds s (quietExpiry s) := by
  unfold quietExpiry
  split
  · exact .refl s
  · exact settled_bounds rfl

theorem setStuck_bounds (b : Bool) (s : State) : Bounds s (setStuck b s) := by
  unfold setStuck
  split
  · exact settled_bounds rfl
  · exact .refl s

theorem firstStatusExpiry_bounds (s : State) : Bounds s (firstStatusExpiry s) := by
  unfold firstStatusExpiry
  split
  · exact .refl s
  · exact .settled ((sendStatus_bounds _).after rfl)

/-- R45: the own check enters the lines that the list misses. -/
theorem statusExpiry_bounds (s : State) : Bounds s (statusExpiry s) := by
  have line (u : State) (l : Fin 4) : Bounds u (ownCheckLine u l) := by
    unfold ownCheckLine
    split
    · exact detect_bounds _ _ _ _ u
    · exact .refl u
  have checked (u : State) : Bounds u (ownCheck u) := .foldl line allLines u
  unfold statusExpiry
  split
  · exact .refl s
  · exact (((checked _).after (by rfl)).trans (sendStatus_bounds _)).settled

end Sys2Proof.Machine
end

section
/-! SUPPORT. Every command keeps the tables within their bounds: start-up, the detector lines, the owners of frames, the
Sequencer, and the blocks beside it. -/

namespace Sys2Proof.Machine

/-! ## Start-up -/

/-- R122, R172: after a reset every table is as at power-up. -/
theorem resetKeeping_bounds (cold : Bool) (s : State) : Bounds s (resetKeeping cold s) := by
  obtain ⟨-, -, roster, bus, list, abort, remote, tag⟩ := reset_safe
  exact ⟨fun _ => roster, fun _ => list, fun _ => abort, fun _ => remote, fun _ => tag, fun _ => bus⟩

theorem initExpiry_bounds (s : State) : Bounds s (initExpiry s) := by
  unfold initExpiry
  split
  · exact .of_tables rfl
  · exact .refl s

theorem referenceCycle_bounds (s : State) : Bounds s (referenceCycle s) := by
  unfold referenceCycle
  split
  · split
    · exact settled_bounds rfl
    · exact .of_tables rfl
  · exact .refl s

theorem referenceGap_bounds (s : State) : Bounds s (referenceGap s) := by
  unfold referenceGap
  split
  · exact .of_tables rfl
  · exact .refl s

theorem clockLimitExpiry_bounds (s : State) : Bounds s (clockLimitExpiry s) := by
  unfold clockLimitExpiry
  split
  · exact settled_bounds rfl
  · exact .refl s

theorem clockFallback_bounds (s : State) : Bounds s (clockFallback s) := by
  unfold clockFallback
  split
  · exact settled_bounds rfl
  · exact .refl s

theorem joinTimerExpiry_bounds (s : State) : Bounds s (joinTimerExpiry s) := by
  have joined (u : State) : Bounds u (enterRun u) := by
    unfold enterRun
    dsimp only
    split
    · exact (sendNotice_bounds _).after rfl
    · exact .of_tables rfl
  unfold joinTimerExpiry
  split
  · exact (((enqueue_bounds .query _).after (by rfl)).trans (joined _)).settled
  · exact .refl s

theorem startDoor_bounds (d : DoorId) (isOpen made : Bool) (s : State) : Bounds s (startDoor d isOpen made s) := by
  unfold startDoor
  split
  · exact .refl s
  · dsimp only
    split
    · exact (enterHeldOpen_bounds d _).after (setDoor_tables s d _)
    · exact .of_tables (setDoor_tables s d _)

theorem abortInput_bounds (made : Bool) (s : State) : Bounds s (abortInput made s) := by
  unfold abortInput
  split
  · split
    · exact abortJoin_bounds _ s
    · exact abortLeave_bounds _ s
  · exact enqueue_bounds _ s
  · exact .refl s

theorem startInputs_bounds (s : State) : Bounds s (startInputs s) := by
  have found (b : Bool) (x : Source) (u : State) : Bounds u (if b then trigger x u else u) := by
    split
    · exact trigger_bounds x u
    · exact .refl u
  have abort : Bounds s (if s.pins.abort then abortInput true s else s) := by
    split
    · exact abortInput_bounds true s
    · exact .refl s
  unfold startInputs
  exact (((abort.trans (found _ _ _)).trans (found _ _ _)).trans (found _ _ _)).trans (found _ _ _)

theorem imageLoaded_bounds (m : Vector Byte 96) (s : State) : Bounds s (imageLoaded m s) := by
  have doors (u : State) : Bounds u (startDoors u) :=
    ((startDoor_bounds _ _ _ _).after (setDoor_tables u .b _)).trans (startDoor_bounds _ _ _ _)
  have outputs (u : State) : Bounds u (startOutputs u) := .foldl (f := startOutput) (fun _ _ => .of_tables rfl) _ u
  have clock (u : State) : Bounds u (enterClock u) := by
    unfold enterClock
    split <;> exact .of_tables rfl
  have loaded (i : Image) : Bounds s (endLoad i s) :=
    (((((doors _).after (by rfl)).trans (startInputs_bounds _)).trans (outputs _)).trans (clock _)).settled
  unfold imageLoaded
  split
  case h_1 =>
    split
    · exact loaded _
    · exact .of_tables rfl
  all_goals exact .refl s

/-! ## Detector lines -/

/-- R16: a line that becomes ALARM hands on a detection and a DETECT frame. -/
theorem putLine_bounds (l : Fin 4) (x : Line) (s : State) : Bounds s (putLine l x s) := by
  have entered (u : State) : Bounds u (alarmEntered l u) := by
    unfold alarmEntered
    split
    · exact .refl u
    · exact (detect_bounds _ _ _ _ u).trans (enqueue_bounds _ _)
  unfold putLine
  split
  · exact (entered _).after rfl
  · exact .of_tables rfl

theorem risingEdge_bounds (l : Fin 4) (s : State) : Bounds s (risingEdge l s) := by
  unfold risingEdge
  split
  · exact .refl s
  · split <;> exact .of_tables rfl

theorem fallingEdge_bounds (l : Fin 4) (s : State) : Bounds s (fallingEdge l s) := by
  unfold fallingEdge
  split
  · split
    · exact .settled ((putLine_bounds l _ _).after rfl)
    · exact .of_tables rfl
  · exact .refl s

theorem longPulse_bounds (l : Fin 4) (s : State) : Bounds s (longPulse l s) := by
  unfold longPulse
  split
  · exact .refl s
  · exact .settled ((putLine_bounds l _ _).after rfl)

theorem stuckTimerExpiry_bounds (l : Fin 4) (s : State) : Bounds s (stuckTimerExpiry l s) := by
  unfold stuckTimerExpiry
  split
  · exact .refl s
  · split
    · exact settled_bounds rfl
    · exact .of_tables rfl

theorem openTimerExpiry_bounds (l : Fin 4) (s : State) : Bounds s (openTimerExpiry l s) := by
  unfold openTimerExpiry
  split
  · exact .refl s
  · split
    · exact .of_tables rfl
    · exact settled_bounds rfl

/-- R20: an accepted reset withdraws the detection and sends a DETECT frame. -/
theorem resetLine_bounds (s : State) (l : Fin 4) : Bounds s (resetLine s l) := by
  unfold resetLine resetAccepted
  dsimp only
  split
  · split
    · exact .of_tables rfl
    · exact ((withdraw_bounds _ _ _).after (by rfl)).trans (enqueue_bounds _ _)
  · exact .refl s

theorem resetDetection_bounds (x : Option (Fin 4)) (s : State) : Bounds s (resetDetection x s).2 := by
  rcases resetDetection_cases x s with h | ⟨ls, h⟩ <;> rw [h]
  · exact .refl s
  · exact (Bounds.foldl resetLine_bounds ls s).settled

/-! ## The owners of frames -/

theorem adoptPosture_bounds (a : Nat) (p : Posture) (e : Byte) (s : State) : Bounds s (adoptPosture a p e s) := by
  unfold adoptPosture
  split
  · exact (askStatus_bounds _).after rfl
  · exact .refl s

theorem recoverDetections_bounds (a : Nat) (c : Announcement) (s : State) : Bounds s (recoverDetections a c s) := by
  have line (u : State) (l : Fin 4) : Bounds u (recoverLine a c u l) := by
    unfold recoverLine
    split
    · exact detect_bounds _ _ _ _ u
    · exact .refl u
  unfold recoverDetections
  split
  · exact .foldl line _ s
  · exact .refl s

theorem recoverDuress_bounds (a : Nat) (c : Announcement) (s : State) : Bounds s (recoverDuress a c s) := by
  unfold recoverDuress
  split
  · exact addRemote_bounds a _ s
  · exact removeRemote_bounds a _ s

theorem recoverFirstAlarm_bounds (a : Nat) (c : Announcement) (s : State) : Bounds s (recoverFirstAlarm a c s) := by
  unfold recoverFirstAlarm
  split
  · exact removeRemote_bounds a _ s
  · split
    · exact addRemote_bounds a _ s
    · exact .refl s

theorem recoverAbort_bounds (a : Nat) (c : Announcement) (s : State) : Bounds s (recoverAbort a c s) := by
  unfold recoverAbort
  split
  · exact abortLeave_bounds a s
  · exact .refl s

theorem mirrorStatus_bounds (a : Nat) (c : Announcement) (s : State) : Bounds s (mirrorStatus a c s) := by
  unfold mirrorStatus
  split
  · exact setMirror_bounds _ s
  · exact .refl s

theorem statusOwner_bounds (a : Nat) (f : Frame) (s : State) : Bounds s (statusOwner a f s) := by
  cases f
  case status c =>
    have lists := (((recoverDetections_bounds a c s).settled.trans (recoverDuress_bounds a c _)).settled.trans
      (recoverFirstAlarm_bounds a c _)).settled
    exact (((lists.trans (recoverAbort_bounds a c _)).settled.trans (adoptPosture_bounds a _ _ _)).settled).trans
      (mirrorStatus_bounds a c _)
  all_goals exact .refl s

theorem queryOwner_bounds (a : Nat) (f : Frame) (s : State) : Bounds s (queryOwner a f s) := by
  unfold queryOwner
  split
  · exact askStatus_bounds s
  · exact .refl s

theorem callOwner_bounds (a : Nat) (f : Frame) (s : State) : Bounds s (callOwner a f s) := by
  unfold callOwner
  split
  case h_1 =>
    split
    · exact (settle_bounds s).trans (actOnCall_bounds a _ _)
    · exact .refl s
  all_goals exact .refl s

theorem duressOwner_bounds (a : Nat) (f : Frame) (s : State) : Bounds s (duressOwner a f s) := by
  unfold duressOwner
  split
  case h_1 =>
    split
    · split
      · exact addRemote_bounds a _ s
      · exact removeRemote_bounds a _ s
    · exact .refl s
  all_goals exact .refl s

theorem detectOwner_bounds (a : Nat) (f : Frame) (s : State) : Bounds s (detectOwner a f s) := by
  unfold detectOwner
  split
  case h_1 =>
    split
    · split
      · split
        · exact detect_bounds _ a _ _ s
        · exact withdraw_bounds a _ s
      · exact .refl s
    · exact .refl s
  all_goals exact .refl s

theorem noticeOwner_bounds (a : Nat) (f : Frame) (s : State) : Bounds s (noticeOwner a f s) := by
  unfold noticeOwner
  split
  case h_1 =>
    split
    · split
      · exact setMirror_bounds _ s
      · exact .refl s
    · exact .refl s
  all_goals exact .refl s

theorem confirmOwner_bounds (a : Nat) (f : Frame) (s : State) : Bounds s (confirmOwner a f s) := by
  unfold confirmOwner
  split
  case h_1 =>
    split
    · split
      · exact takeConfirm_bounds _ _ _ _ s
      · exact .refl s
    · exact .refl s
  all_goals exact .refl s

theorem postureOwner_bounds (a : Nat) (f : Frame) (s : State) : Bounds s (postureOwner a f s) := by
  unfold postureOwner
  split
  case h_1 =>
    split
    · split
      · exact adoptPosture_bounds a _ _ s
      · exact .refl s
    · exact .refl s
  all_goals exact .refl s

theorem silenceExpiry_bounds (a : Nat) (s : State) : Bounds s (silenceExpiry a s) := by
  unfold silenceExpiry
  split
  · exact .refl s
  · exact settled_bounds (setPeer_tables _ a _)

/-! ## The Sequencer -/

theorem windowExpiry_bounds (a : Nat) (l : Fin 4) (s : State) : Bounds s (windowExpiry a l s) := by
  unfold windowExpiry
  split
  · exact .refl s
  · exact .settled ((dropDetection_bounds a l _).after rfl)

theorem abortChange_bounds (b : Bool) (s : State) : Bounds s (abortChange b s) := by
  unfold abortChange
  split
  · exact (abortInput_bounds b s).settled
  · exact .refl s

theorem manrelChange_bounds (b : Bool) (s : State) : Bounds s (manrelChange b s) := by
  have pressed : Bounds s (manualPress s) := by
    unfold manualPress
    split
    · exact (trigger_bounds _ s).trans (manualRelease_bounds _)
    · exact (trigger_bounds _ s).trans (enqueue_bounds _ _)
    · exact trigger_bounds _ s
  unfold manrelChange
  split
  · exact pressed.settled
  · exact .refl s

theorem abortStuckExpiry_bounds (s : State) : Bounds s (abortStuckExpiry s) := by
  unfold abortStuckExpiry
  split
  · exact .refl s
  · exact .settled ((trigger_bounds _ _).after rfl)

theorem countdownExpiry_bounds (s : State) : Bounds s (countdownExpiry s) := by
  unfold countdownExpiry
  split
  · exact .settled ((enterReleasing_bounds _).after rfl)
  · exact .refl s

theorem valveDelayExpiry_bounds (s : State) : Bounds s (valveDelayExpiry s) := by
  unfold valveDelayExpiry
  split
  · exact .settled ((energiseValve_bounds _).after rfl)
  · exact .refl s

theorem valvePulseExpiry_bounds (s : State) : Bounds s (valvePulseExpiry s) := by
  unfold valvePulseExpiry
  split
  · exact .settled ((endValvePulse_bounds _).after rfl)
  · exact .refl s

theorem flowChange_bounds (b : Bool) (s : State) : Bounds s (flowChange b s) := by
  unfold flowChange
  split
  · exact (confirmFlow_bounds s).settled
  · exact .refl s

theorem flowWaitExpiry_bounds (s : State) : Bounds s (flowWaitExpiry s) := by
  unfold flowWaitExpiry
  split
  · exact .refl s
  · exact .settled ((trigger_bounds _ _).after rfl)

theorem soakExpiry_bounds (s : State) : Bounds s (soakExpiry s) := by
  unfold soakExpiry
  split
  · exact .settled ((enterStage_bounds _ _).after rfl)
  · exact .refl s

theorem noticeExpiry_bounds (s : State) : Bounds s (noticeExpiry s) := by
  unfold noticeExpiry
  split
  · exact .refl s
  · exact .settled ((sendNotice_bounds _).after rfl)

theorem cadenceExpiry_bounds (s : State) : Bounds s (cadenceExpiry s) := by
  unfold cadenceExpiry
  split <;> exact .of_tables rfl

theorem suppressionReset_bounds (x : Unit) (s : State) : Bounds s (suppressionReset x s).2 := by
  have rejoined (u : State) : Bounds u (rejoinAbort u) := by
    unfold rejoinAbort
    split
    · exact (abortJoin_bounds _ u).settled
    · exact .refl u
  unfold suppressionReset
  iterate 3
    split
    · exact .refl s
  exact (resetSequence_bounds s).settled.trans (rejoined _)

theorem suppressionIsolate_bounds (on : Bool) (s : State) : Bounds s (suppressionIsolate on s).2 := by
  rcases suppressionIsolate_cases on s with h | ⟨st, h⟩ <;> rw [h]
  · exact .refl s
  · exact (enterStage_bounds st s).settled

/-! ## Postures, outputs and alarms -/

theorem setPosture_bounds (p : Posture) (s : State) : Bounds s (setPosture p s).2 := by
  unfold setPosture
  iterate 2
    split
    · exact .refl s
  exact (((enqueue_bounds _ _).after (by rfl)).trans (askStatus_bounds _)).settled

theorem forceOutput_bounds (x : Fin 12 × Bool) (s : State) : Bounds s (forceOutput x s).2 := by
  unfold forceOutput
  split
  · exact .refl s
  · exact settled_bounds rfl

theorem releaseOutput_bounds (l : Fin 12) (s : State) : Bounds s (releaseOutput l s).2 := settled_bounds rfl

theorem senseChange_bounds (l : Fin 12) (high : Bool) (s : State) : Bounds s (senseChange l high s) := by
  unfold senseChange
  split
  · exact .refl s
  · dsimp only
    split
    · exact settled_bounds rfl
    · exact .of_tables rfl

theorem mismatchExpiry_bounds (l : Fin 12) (s : State) : Bounds s (mismatchExpiry l s) := by
  unfold mismatchExpiry
  split
  · exact .refl s
  · exact settled_bounds rfl

theorem duressChange_bounds (d : DuressInput) (b : Bool) (s : State) : Bounds s (duressChange d b s) := by
  unfold duressChange
  split
  · exact (trigger_bounds _ s).settled
  · exact .refl s

theorem tamperChange_bounds (b : Bool) (s : State) : Bounds s (tamperChange b s) := by
  unfold tamperChange
  split
  · exact (trigger_bounds _ s).settled
  · exact .refl s

theorem restoreAlarm_bounds (x : Source) (s : State) : Bounds s (restoreAlarm x s).2 := by
  have restored : Bounds s (restoreSource x s) := by
    unfold restoreSource
    dsimp only
    split
    · exact (enqueue_bounds _ _).after rfl
    · exact .of_tables rfl
  unfold restoreAlarm
  iterate 4
    split
    · exact .refl s
  exact restored.settled

theorem maskAlarm_bounds (x : Source × Bool) (s : State) : Bounds s (maskAlarm x s).2 := by
  unfold maskAlarm
  split
  · exact .refl s
  · exact settled_bounds rfl

theorem confirmRemote_bounds (f : Frame) (s : State) : Bounds s (confirmRemote f s).2 := (enqueue_bounds f s).settled

/-! ## The panel port -/

theorem readReply_bounds (clocked before : Nat) (s : State) : Bounds s (readReply clocked before s) := by
  unfold readReply
  split
  · exact .refl s
  · split
    · split <;> exact .of_tables rfl
    · exact .of_tables rfl

theorem unknownCode_bounds (code : Nat) (rest : PanelRest) (s : State) : Bounds s (unknownCode code rest s) := by
  have port (u : State) (p : Port) (h : Bounds s u) : Bounds s (u.setPort p) := h.trans (.of_tables rfl)
  unfold unknownCode
  split
  · exact commandFrame_induction port port (fun _ h => h) (fun _ h => h) (.refl s)
  · exact .refl s

theorem latchTimes_bounds (x : Unit) (s : State) : Bounds s (latchTimes x s).2 := by
  unfold latchTimes
  split
  · exact .refl s
  · exact .of_tables rfl

theorem readTimes_bounds (x : Unit) (s : State) : Bounds s (readTimes x s).2 := by
  unfold readTimes
  split
  · exact .of_tables rfl
  · exact .refl s

end Sys2Proof.Machine
end

section
/-! SUPPORT. Every command keeps the tables within their bounds: the walk over every command (O58). -/

namespace Sys2Proof.Machine

theorem exec_bounds (c : Instr) (s : State) : ∃ t, exec c s = .next t ∧ Bounds s t := by
  cases c with
  | powerOnReset => exact ⟨_, rfl, resetKeeping_bounds true s⟩
  | pinReset => exact ⟨_, rfl, resetKeeping_bounds _ s⟩
  | imageLoadComplete dt m => exact ⟨_, rfl, (imageLoaded_bounds m _).after rfl⟩
  | silenceTimerExpiry a => exact ⟨_, rfl, silenceExpiry_bounds a s⟩
  | manrelMade e b => exact ⟨_, rfl, inputEvent_bounds manrelChange_bounds b e s⟩
  | releaseCallFrame dt bits => exact ⟨_, rfl, receiveFrame_bounds callOwner_bounds s dt⟩
  | resetDetection dt rest => exact ⟨_, rfl, panelCommand_bounds resetDetection_bounds s⟩
  | suppressionIsolate dt rest => exact ⟨_, rfl, panelCommand_bounds suppressionIsolate_bounds s⟩
  | initExpiry => exact ⟨_, rfl, initExpiry_bounds s⟩
  | referenceCycle dt => exact ⟨_, rfl, (referenceCycle_bounds _).after rfl⟩
  | referenceGap dt => exact ⟨_, rfl, (referenceGap_bounds _).after rfl⟩
  | clockLimitExpiry => exact ⟨_, rfl, clockLimitExpiry_bounds s⟩
  | clockFallback dt => exact ⟨_, rfl, (clockFallback_bounds _).after rfl⟩
  | joinTimerExpiry => exact ⟨_, rfl, joinTimerExpiry_bounds s⟩
  | detectorRisingEdge dt l => exact ⟨_, rfl, (risingEdge_bounds l _).after rfl⟩
  | detectorFallingEdge dt l => exact ⟨_, rfl, (fallingEdge_bounds l _).after rfl⟩
  | longPulse l => exact ⟨_, rfl, longPulse_bounds l s⟩
  | stuckTimerExpiry l => exact ⟨_, rfl, stuckTimerExpiry_bounds l s⟩
  | openTimerExpiry l => exact ⟨_, rfl, openTimerExpiry_bounds l s⟩
  | readDetector dt rest => exact ⟨_, rfl, panelCommand_bounds (report_bounds fun _ _ => rfl) s⟩
  | statusFrame dt bits => exact ⟨_, rfl, receiveFrame_bounds statusOwner_bounds s dt⟩
  | queryFrame dt bits => exact ⟨_, rfl, receiveFrame_bounds queryOwner_bounds s dt⟩
  | readPeer dt rest => exact ⟨_, rfl, panelCommand_bounds (report_bounds fun _ _ => rfl) s⟩
  | detectFrame dt bits => exact ⟨_, rfl, receiveFrame_bounds detectOwner_bounds s dt⟩
  | windowTimerExpiry a l => exact ⟨_, rfl, windowExpiry_bounds a l s⟩
  | abortInputChange e b => exact ⟨_, rfl, inputEvent_bounds abortChange_bounds b e s⟩
  | abortStuckExpiry => exact ⟨_, rfl, abortStuckExpiry_bounds s⟩
  | countdownExpiry => exact ⟨_, rfl, countdownExpiry_bounds s⟩
  | valveDelayExpiry => exact ⟨_, rfl, valveDelayExpiry_bounds s⟩
  | valvePulseExpiry => exact ⟨_, rfl, valvePulseExpiry_bounds s⟩
  | flowMade e b => exact ⟨_, rfl, inputEvent_bounds flowChange_bounds b e s⟩
  | flowWaitExpiry => exact ⟨_, rfl, flowWaitExpiry_bounds s⟩
  | soakTimerExpiry => exact ⟨_, rfl, soakExpiry_bounds s⟩
  | vsupChange dt b => exact ⟨_, rfl, settled_bounds (u := (s.elapse dt).setPins _) rfl⟩
  | noticeTimerExpiry => exact ⟨_, rfl, noticeExpiry_bounds s⟩
  | suppressionReset dt rest => exact ⟨_, rfl, panelCommand_bounds suppressionReset_bounds s⟩
  | releaseNoticeFrame dt bits => exact ⟨_, rfl, receiveFrame_bounds noticeOwner_bounds s dt⟩
  | cadencePhaseExpiry => exact ⟨_, rfl, cadenceExpiry_bounds s⟩
  | doorContactOpens e d => exact ⟨_, rfl, inputEvent_bounds (contactChange_bounds d) true e s⟩
  | doorContactCloses e d => exact ⟨_, rfl, inputEvent_bounds (contactChange_bounds d) false e s⟩
  | requestToExitPress e d b => exact ⟨_, rfl, inputEvent_bounds (exitChange_bounds d) b e s⟩
  | releaseWindowExpiry d => exact ⟨_, rfl, releaseExpiry_bounds d s⟩
  | heldTimerExpiry d => exact ⟨_, rfl, heldExpiry_bounds d s⟩
  | pendingWaitExpiry d => exact ⟨_, rfl, waitExpiry_bounds d s⟩
  | presentCredential dt rest => exact ⟨_, rfl, panelCommand_bounds presentCredential_bounds s⟩
  | pairWindowExpiry d => exact ⟨_, rfl, pairExpiry_bounds d s⟩
  | confirmRemote dt rest => exact ⟨_, rfl, panelCommand_bounds confirmRemote_bounds s⟩
  | confirmFrame dt bits => exact ⟨_, rfl, receiveFrame_bounds confirmOwner_bounds s dt⟩
  | zoneSweep dt rest => exact ⟨_, rfl, panelCommand_bounds zoneSweep_bounds s⟩
  | readRoster dt rest => exact ⟨_, rfl, panelCommand_bounds (report_bounds fun _ _ => rfl) s⟩
  | setPosture dt rest => exact ⟨_, rfl, panelCommand_bounds setPosture_bounds s⟩
  | postureFrame dt bits => exact ⟨_, rfl, receiveFrame_bounds postureOwner_bounds s dt⟩
  | forceOutput dt rest => exact ⟨_, rfl, panelCommand_bounds forceOutput_bounds s⟩
  | releaseOutput dt rest => exact ⟨_, rfl, panelCommand_bounds releaseOutput_bounds s⟩
  | readOutputs dt rest => exact ⟨_, rfl, panelCommand_bounds (report_bounds fun _ _ => rfl) s⟩
  | senseInputChange dt l b => exact ⟨_, rfl, (senseChange_bounds l b _).after rfl⟩
  | mismatchTimerExpiry l => exact ⟨_, rfl, mismatchExpiry_bounds l s⟩
  | duressInputChange e d b => exact ⟨_, rfl, inputEvent_bounds (duressChange_bounds d) b e s⟩
  | tamperInputChange e b => exact ⟨_, rfl, inputEvent_bounds tamperChange_bounds b e s⟩
  | nextAlarm dt rest => exact ⟨_, rfl, panelCommand_bounds nextAlarm_bounds s⟩
  | restoreAlarm dt rest => exact ⟨_, rfl, panelCommand_bounds restoreAlarm_bounds s⟩
  | maskAlarm dt rest => exact ⟨_, rfl, panelCommand_bounds maskAlarm_bounds s⟩
  | readSources dt rest => exact ⟨_, rfl, panelCommand_bounds (report_bounds fun _ _ => rfl) s⟩
  | duressFrame dt bits => exact ⟨_, rfl, receiveFrame_bounds duressOwner_bounds s dt⟩
  | readRemoteList dt rest => exact ⟨_, rfl, panelCommand_bounds readRemoteList_bounds s⟩
  | beginTransmission dt levels => exact ⟨_, rfl, ((beginFrame_bounds _).after (hear_tables _ levels)).after rfl⟩
  | arbitrationLoss dt => exact ⟨_, rfl, (loseArbitration_bounds _).after rfl⟩
  | ownBitError back => exact ⟨_, rfl, (bitError_bounds back.bits _).after rfl⟩
  | quietSpellExpiry => exact ⟨_, rfl, quietExpiry_bounds s⟩
  | transmissionComplete dt => exact ⟨_, rfl, (completeFrame_bounds _).after rfl⟩
  | busStuck dt => exact ⟨_, rfl, (setStuck_bounds true _).after rfl⟩
  | busStuckEnd dt => exact ⟨_, rfl, (setStuck_bounds false _).after rfl⟩
  | receiveDiscard dt bits => exact ⟨_, rfl, Bounds.of_tables (hear_tables _ bits)⟩
  | firstStatusDelayExpiry => exact ⟨_, rfl, firstStatusExpiry_bounds s⟩
  | statusTimerExpiry => exact ⟨_, rfl, statusExpiry_bounds s⟩
  | replyRead dt n b => exact ⟨_, rfl, (readReply_bounds n b _).after rfl⟩
  | unknownCommand dt k rest => exact ⟨_, rfl, (unknownCode_bounds k rest _).after rfl⟩
  | getStatus dt rest => exact ⟨_, rfl, panelCommand_bounds (act := getStatus) (fun _ _ => .of_tables rfl) s⟩
  | latchTimes dt rest => exact ⟨_, rfl, panelCommand_bounds latchTimes_bounds s⟩
  | readTimes dt rest => exact ⟨_, rfl, panelCommand_bounds readTimes_bounds s⟩

theorem exec_next_bounds {c : Instr} {s t : State} (h : exec c s = .next t) : Bounds s t := by
  obtain ⟨u, hu, k⟩ := exec_bounds c s
  obtain rfl := Host.Outcome.next.inj (hu.symm.trans h)
  exact k

/-- A step keeps the bounds, whether it takes a command that waits, the station's next timer, or none. -/
theorem step_bounds {s t : State} (h : step s = .next t) : Bounds s t := by
  unfold step at h
  split at h
  · exact (exec_next_bounds h).after rfl
  · split at h
    · exact exec_next_bounds h
    · obtain rfl := Host.Outcome.next.inj h
      exact .refl s

/-- Settles O58: every step is `Bounds`, each table from its own premise. -/
theorem tablesStayInBounds : Obligations.TablesStayInBounds := by
  intro s t h
  obtain ⟨roster, list, abort, remote, tag, bus⟩ := step_bounds h
  exact ⟨roster, list, abort, remote, tag, bus⟩

end Sys2Proof.Machine
end

section
/-! SUPPORT. ZONE_SWEEP (R128). -/

namespace Sys2Proof.Machine

theorem doorsSecure_iff (s : State) : doorsSecure s = true ↔
    s.doors.a.state = .secure ∧ (s.doors.b.absent = true ∨ s.doors.b.state = .secure) := by
  simp [doorsSecure]

/-- R128: a sweep while a door is not SECURE is refused and changes nothing. -/
theorem zoneSweep_refused {s : State} (h : ¬doorsSecure s = true) : zoneSweep () s = (.plain .doorNotSecure, s) :=
  if_neg h

/-- R128: a sweep while the doors are SECURE answers with the roster that it empties. -/
theorem zoneSweep_swept {s : State} (h : doorsSecure s = true) : zoneSweep () s =
    ({ result := .done, flags := s.roster.doubtful.toNat, data := num1 s.roster.entries.length }, settle (sweep s)) :=
  if_pos h

/-- Settles O41: the doors' test decides, and a sweep is settled. -/
theorem zoneSweeps : Obligations.ZoneSweeps := by
  intro s dt before h secure
  have test : doorsSecure (s.taken dt 10 ⟨[byteOf 0], before⟩) = true ↔ secure := doorsSecure_iff _
  refine ⟨fun ajar => ?_, fun shut => ?_⟩
  · exact congrArg Host.Outcome.next
      (panelCommand_same (bytes := []) (x := ()) h rfl (by decide) rfl (zoneSweep_refused (mt test.mp ajar)))
  · exact ⟨_, rfl,
      panelCommand_after (bytes := []) (x := ()) h rfl (by decide) rfl (zoneSweep_swept (test.mpr shut)) rfl⟩

end Sys2Proof.Machine
end
section
/-! SUPPORT. What the effective posture hands on, reckoned from the station as an event found it (R112, R131, R141), and
the adoption of an announced posture (R138). -/

namespace Sys2Proof.Machine

/-! ## What a change of the effective posture reads -/

/-- `u` is `s` in all that a change of the effective posture reads and tells: the posture itself, the reservations and
their marks, the roster, the doors, the area stage, and the two sources that it may raise. -/
structure Preposed (s u : State) : Prop where
  effective : u.posture.effective = s.posture.effective
  entry : u.entry = s.entry
  roster : u.roster = s.roster
  doors : u.doors = s.doors
  lockout : u.lockoutStage = s.lockoutStage
  pairBroken : u.source .pairBroken = s.source .pairBroken
  occupiedAtClose : u.source .occupiedAtClose = s.source .occupiedAtClose

theorem Preposed.trans {s u v : State} (h : Preposed s u) (k : Preposed u v) : Preposed s v :=
  ⟨k.effective.trans h.effective, k.entry.trans h.entry, k.roster.trans h.roster, k.doors.trans h.doors,
    k.lockout.trans h.lockout, k.pairBroken.trans h.pairBroken, k.occupiedAtClose.trans h.occupiedAtClose⟩

theorem PostureHanded.of_preposed {s u t : State} (k : PostureHanded u t) (h : Preposed s u) : PostureHanded s t := by
  obtain ⟨effective, entry, roster, doors, lockout, pairBroken, occupiedAtClose⟩ := h
  have reservation (d : DoorId) : u.reservation d = s.reservation d := (entry_fields entry d).1
  have broken (d : DoorId) : u.broken d = s.broken d := (entry_fields entry d).2
  obtain ⟨cleared, marks, alarms, broke, unbroken, closed, empty, other, stays⟩ := k
  simp only [effective, reservation, broken, roster, doors, lockout, pairBroken, occupiedAtClose] at *
  exact ⟨cleared, marks, alarms, broke, unbroken, closed, empty, other, stays⟩

/-- A frame handed to the queue raises no source but TRANSMIT_OVERRUN. -/
theorem BusOnly.preposed {s u : State} (h : BusOnly s u)
    (told : ∀ x, x ≠ .transmitOverrun → u.source x = s.source x) : Preposed s u where
  effective := by rw [h.posture_eq]
  entry := h.entry_eq
  roster := h.roster
  doors := h.doors_eq
  lockout := lockoutStage_of_basis (by rw [State.basis, h.image, h.peers, h.seq_eq, State.basis])
  pairBroken := told _ (by decide)
  occupiedAtClose := told _ (by decide)

theorem enqueue_preposed (f : Frame) (s : State) : Preposed s (enqueue f s) :=
  (enqueue_only f s).preposed fun x => enqueue_source f s x

theorem askStatus_source (s : State) (x : Source) (h : x ≠ .transmitOverrun) :
    (askStatus s).source x = s.source x := by
  unfold askStatus requestStatus
  split
  · exact enqueue_source _ _ x h
  · rfl

theorem askStatus_preposed (s : State) : Preposed s (askStatus s) := (askStatus_only s).preposed (askStatus_source s)

/-- The view alone changes. -/
theorem setView_preposed (s : State) (v : PostureView) : Preposed s (s.setPosture { s.posture with view := v }) :=
  ⟨rfl, rfl, rfl, rfl, rfl, rfl, rfl⟩

theorem adoptPosture_preposed (a : Nat) (p : Posture) (e : Byte) (s : State) : Preposed s (adoptPosture a p e s) := by
  unfold adoptPosture
  split
  · exact (setView_preposed s _).trans (askStatus_preposed _)
  · exact ⟨rfl, rfl, rfl, rfl, rfl, rfl, rfl⟩

theorem postureOwner_preposed (a : Nat) (f : Frame) (s : State) : Preposed s (postureOwner a f s) := by
  have same : Preposed s s := ⟨rfl, rfl, rfl, rfl, rfl, rfl, rfl⟩
  unfold postureOwner
  split
  case h_1 =>
    split
    · split
      · exact adoptPosture_preposed a _ _ s
      · exact same
    · exact same
  all_goals exact same

/-- R24, R28: the hearing of a frame. -/
theorem reached_preposed (s : State) (c : FrameCall) (a : Nat) (f : Frame) : Preposed s (s.reached c a f) := by
  obtain ⟨doors, entry, posture, roster, -⟩ := reached_blocks s c a f
  have heard (x : Source) : (s.heard c a f).source x = s.source x := by simp [State.heard, State.source]
  exact ⟨by rw [posture], entry, roster, doors, reached_lockoutStage s c a f,
    (evalOccupancy_source _ _ (by decide) (by decide)).trans (heard _),
    (evalOccupancy_source _ _ (by decide) (by decide)).trans (heard _)⟩

/-! ## Reservations through an event that settles more than once -/

/-- A reservation stands or is gone, and with another effective posture every one is gone (R112). -/
structure Disbands (s t : State) : Prop where
  stands : ∀ d, t.reservation d = s.reservation d ∨ t.reservation d = none
  cleared : t.posture.effective ≠ s.posture.effective → ∀ d, t.reservation d = none

theorem Disbands.of_eq {s t : State} (he : t.entry = s.entry) (hp : t.posture.effective = s.posture.effective) :
    Disbands s t :=
  ⟨fun d => .inl (entry_fields he d).1, fun h => absurd hp h⟩

theorem Disbands.trans {s t u : State} (h : Disbands s t) (k : Disbands t u) : Disbands s u := by
  have gone (d : DoorId) (n : t.reservation d = none) : u.reservation d = none := (k.stands d).elim (·.trans n) id
  refine ⟨fun d => ?_, fun changed d => ?_⟩
  · exact (h.stands d).elim (fun e => (k.stands d).imp_left (·.trans e)) fun n => .inr (gone d n)
  · by_cases later : u.posture.effective = t.posture.effective
    · exact gone d (h.cleared (later ▸ changed) d)
    · exact k.cleared later d

theorem SeqOnly.disbands {s t : State} (h : SeqOnly s t) : Disbands s t := .of_eq h.entry_eq (by rw [h.posture_eq])

/-- R112, R141: an event that is settled. -/
theorem settle_disbands (s : State) : Disbands s (settle s) :=
  ⟨fun d => ((settle_after s).reservations d).imp And.left And.left, (settle_posture s).cleared⟩

theorem Disbands.settled {s t : State} (h : Disbands s t) : Disbands s (settle t) := h.trans (settle_disbands t)

theorem setAnn_disbands (s : State) (x : Annunciator) : Disbands s (s.setAnn x) := .of_eq rfl rfl

theorem addRemote_disbands (a : Nat) (k : RemoteKind) (s : State) : Disbands s (addRemote a k s) := by
  unfold addRemote
  split
  · exact .of_eq rfl rfl
  · split
    · exact setAnn_disbands s _
    · exact (setAnn_disbands s _).settled.trans (setAnn_disbands _ _)

/-- R31: the entries of the sender. -/
theorem recoverDuress_disbands (a : Nat) (c : Announcement) (s : State) : Disbands s (recoverDuress a c s) := by
  unfold recoverDuress
  split
  · exact addRemote_disbands a _ s
  · exact setAnn_disbands s _

theorem recoverFirstAlarm_disbands (a : Nat) (c : Announcement) (s : State) :
    Disbands s (recoverFirstAlarm a c s) := by
  unfold recoverFirstAlarm
  split
  · exact setAnn_disbands s _
  · split
    · exact addRemote_disbands a _ s
    · exact .of_eq rfl rfl

theorem statusOwner_disbands (a : Nat) (c : Announcement) (s : State) : Disbands s (statusOwner a (.status c) s) := by
  have lists : Disbands s (listsRecovered a c s) :=
    (((recoverDetections_only a c s).disbands.settled.trans (recoverDuress_disbands a c _)).settled.trans
      (recoverFirstAlarm_disbands a c _)).settled
  have adopted (u : State) : Disbands u (adoptPosture a c.posture c.epoch u) :=
    have same := adoptPosture_preposed a c.posture c.epoch u
    .of_eq same.entry same.effective
  rw [statusOwner_mirror]
  exact (((lists.trans (recoverAbort_only a c _).disbands).settled.trans (adopted _)).settled).trans
    (mirrorStatus_only a c _).disbands

/-! ## Adoption -/

/-- R138: the test of adoption, with the epochs mod 256. -/
theorem adopts_iff (v : PostureView) (p : Posture) (e : Byte) : adopts v p e = true ↔
    v.source = 0 ∨ (e ≠ v.epoch ∧ (e - v.epoch).toNat ≤ 127) ∨ (e = v.epoch ∧ v.posture.num < p.num) := by
  have tie : (e - v.epoch).toNat = 0 ↔ e = v.epoch := by bv_omega
  unfold adopts
  split
  · next h => simp [h]
  · next h =>
    simp only [tie]
    split
    · next k => simp [h, k]
    · next k => simp [h, k]

/-- R138: the view after an announced posture. -/
theorem adoptPosture_view (a : Nat) (p : Posture) (e : Byte) (s : State) : (adoptPosture a p e s).posture.view =
    if adopts s.posture.view p e then { posture := p, epoch := e, source := a } else s.posture.view := by
  unfold adoptPosture
  split
  · rw [(askStatus_only _).view]
    rfl
  · rfl

theorem addRemote_view (a : Nat) (k : RemoteKind) (s : State) : (addRemote a k s).posture.view = s.posture.view := by
  unfold addRemote
  split
  · rfl
  · split
    · rfl
    · exact (settle_handed (s.setAnn _)).view

/-- R30, R31, R138: nothing that a STATUS recovers before the posture reaches the view. -/
theorem listsRecovered_view (a : Nat) (c : Announcement) (s : State) :
    (listsRecovered a c s).posture.view = s.posture.view := by
  have duress (u : State) : (recoverDuress a c u).posture.view = u.posture.view := by
    unfold recoverDuress
    split
    · exact addRemote_view a _ u
    · rfl
  have firstAlarm (u : State) : (recoverFirstAlarm a c u).posture.view = u.posture.view := by
    unfold recoverFirstAlarm
    split
    · rfl
    · split
      · exact addRemote_view a _ u
      · rfl
  rw [listsRecovered, (settle_handed _).view, firstAlarm, (settle_handed _).view, duress, (settle_handed _).view,
    (recoverDetections_only a c s).view]

theorem statusOwner_view (a : Nat) (c : Announcement) (s : State) : (statusOwner a (.status c) s).posture.view =
    if adopts s.posture.view c.posture c.epoch then { posture := c.posture, epoch := c.epoch, source := a }
    else s.posture.view := by
  rw [statusOwner_mirror, (mirrorStatus_only a c _).view, mirrorReached, (settle_handed _).view, adoptPosture_view,
    (settle_handed _).view, (recoverAbort_only a c _).view, listsRecovered_view]

section
variable {s : State} {a : Nat} {p e : Byte}

/-- R138: a POSTURE of an authority station is tested. -/
theorem postureOwner_tests {q : Posture} (ha : a ∈ s.img.authorities) (hq : Posture.ofNat? p.toNat = some q) :
    postureOwner a (.posture p e) s = adoptPosture a q e s := by
  simp only [postureOwner, hq]
  exact if_pos (List.contains_iff_mem.mpr ha)

/-- R138: any other POSTURE is ignored. -/
theorem postureOwner_ignores (h : a ∉ s.img.authorities ∨ 4 < p.toNat) : postureOwner a (.posture p e) s = s := by
  simp only [postureOwner]
  split
  · next ha =>
    have range : Posture.ofNat? p.toNat = none := by
      have hp := h.resolve_left (not_not.mpr (List.contains_iff_mem.mp ha))
      unfold Posture.ofNat?
      split
      case h_6 => rfl
      all_goals omega
    rw [range]
  · rfl

end

/-! ## The commands -/

section
variable {s : State} {dt a : Nat} {bits : List Bool}

theorem exec_postureFrame {f : Frame} (h : Reaches { kind := 5, dt := dt, bits := bits } s a f) :
    exec (.postureFrame dt bits) s =
      .next (settle (postureOwner a f (s.reached { kind := 5, dt := dt, bits := bits } a f))) :=
  congrArg Host.Outcome.next (receiveFrame_reaches h postureOwner)

theorem settle_postureFollows {u : State} (h : u.running = true) : (settle u).PostureFollows :=
  Settled.posture (settle_settled u h)

/-- R112, R131, R141: a POSTURE, and what it hands on. -/
theorem postureFrame_handed (c : FrameCall) (f : Frame) :
    PostureHanded s (settle (postureOwner a f (s.reached c a f))) :=
  (settle_posture _).of_preposed ((reached_preposed s c a f).trans (postureOwner_preposed a f _))

/-- R138, R141: what an announced posture makes of a station, by a POSTURE and by a STATUS. -/
theorem announced_adopted {q : Posture} {e : Byte} {t : State}
    (h : (∃ dt bits p, Reaches { kind := 5, dt := dt, bits := bits } s a (.posture p e) ∧ a ∈ s.img.authorities ∧
        Posture.ofNat? p.toNat = some q ∧ exec (.postureFrame dt bits) s = .next t) ∨
      (∃ dt bits c, Reaches { kind := 6, dt := dt, bits := bits } s a (.status c) ∧ c.posture = q ∧ c.epoch = e ∧
        exec (.statusFrame dt bits) s = .next t)) :
    (t.posture.view = if adopts s.posture.view q e then { posture := q, epoch := e, source := a }
      else s.posture.view) ∧ t.PostureFollows ∧
    (t.posture.effective ≠ s.posture.effective → ∀ d, t.reservation d = none) := by
  rcases h with ⟨dt, bits, p, h, ha, hq, he⟩ | ⟨dt, bits, c, h, rfl, rfl, he⟩
  · obtain ⟨-, -, posture, -⟩ := reached_blocks s { kind := 5, dt := dt, bits := bits } a (.posture p e)
    have running := reached_running s { kind := 5, dt := dt, bits := bits } a (.posture p e) h.1
    obtain rfl := Host.Outcome.next.inj ((exec_postureFrame h).symm.trans he)
    refine ⟨?_, settle_postureFollows ((running_congr (postureOwner_spares a _ _).startup).trans running),
      (postureFrame_handed _ _).cleared⟩
    rw [(settle_handed _).view, postureOwner_tests (by rwa [reached_img]) hq, adoptPosture_view, posture]
  · obtain ⟨-, entry, posture, -⟩ := reached_blocks s { kind := 6, dt := dt, bits := bits } a (.status c)
    have running := reached_running s { kind := 6, dt := dt, bits := bits } a (.status c) h.1
    obtain rfl := Host.Outcome.next.inj ((exec_statusFrame h).symm.trans he)
    refine ⟨?_, settle_postureFollows ((running_congr (statusOwner_spares a _ _).startup).trans running), ?_⟩
    · rw [(settle_handed _).view, ← State.reached, statusOwner_view, posture]
    · exact ((Disbands.of_eq entry (by rw [posture])).trans (statusOwner_disbands a c _)).settled.cleared

end

end Sys2Proof.Machine
end
section
/-! SUPPORT. SET_POSTURE, and the postures all in all (R112, R131, R137 to R141). -/

namespace Sys2Proof.Machine

/-! ## SET_POSTURE -/

theorem postureOperand_num (s : State) (p : Posture) : postureOperand s [byteOf p.num] = some p := by cases p <;> rfl

/-- R137: the station with the commanded posture in its view, under the next epoch and its own address. -/
def State.commanded (s : State) (p : Posture) : State :=
  s.setPosture { s.posture with
    view := { posture := p, epoch := s.posture.view.epoch + 1, source := s.address } }

section
variable {s : State} {p : Posture}

theorem setPosture_notAuthority (h : s.address ∉ s.img.authorities) : setPosture p s = (.plain .notAuthority, s) :=
  if_pos (by simpa using h)

theorem authorities_contains (h : s.address ∈ s.img.authorities) : ¬s.img.authorities.contains s.address = false := by
  simpa using h

theorem setPosture_wrongState (h : s.address ∈ s.img.authorities) (hp : s.startup.phase ≠ .run) :
    setPosture p s = (.plain .wrongState, s) :=
  (if_neg (authorities_contains h)).trans (if_pos hp)

theorem setPosture_accepted (h : s.address ∈ s.img.authorities) (hp : s.startup.phase = .run) :
    setPosture p s = (.done [s.posture.view.epoch + 1], settle (acceptPosture p s)) :=
  (if_neg (authorities_contains h)).trans (if_neg (not_not.mpr hp))

theorem acceptPosture_only (p : Posture) (s : State) : BusOnly (s.commanded p) (acceptPosture p s) :=
  (enqueue_only _ _).trans (askStatus_only _)

theorem acceptPosture_preposed (p : Posture) (s : State) : Preposed s (acceptPosture p s) :=
  ((setView_preposed s _).trans (enqueue_preposed _ _)).trans (askStatus_preposed _)

/-- R137: the POSTURE frame of a commanded posture. -/
abbrev State.postureEntry (s : State) (p : Posture) : QueueEntry :=
  { frame := .posture (byteOf p.num) (s.posture.view.epoch + 1), order := s.bus.nextOrder }

/-- R172, R173: a STATUS asked for takes no other frame's place. -/
theorem askStatus_told (s : State) : Told 6 s.bus.queue (askStatus s).bus.queue := by
  unfold askStatus requestStatus
  split
  · exact (enqueue_told (.status _) (s.setBus { s.bus with announced := s.announcement }) (.inr rfl)).1
  · exact .refl 6 _

/-- R137, R172: the POSTURE frame enters a queue that has room, and the STATUS finds its place too. -/
theorem posture_placed (hq : s.bus.queue.length ≤ 2) {f : Frame} (hf : f.supersedes = false) :
    { frame := f, order := s.bus.nextOrder : QueueEntry } ∈ (enqueue f s).bus.queue ∧
      places (enqueue f s).bus.queue ≤ 6 := by
  have := places_placeEntry_le { frame := f, order := s.bus.nextOrder } s.bus.queue
  have := places_le_length_add s.bus.queue
  rw [enqueue_placed f s hf (by omega)]
  exact ⟨(placeEntry_perm _ _).mem_iff.mpr List.mem_cons_self, by omega⟩

theorem settle_acceptPosture_waits (hq : s.bus.queue.length ≤ 2) :
    s.postureEntry p ∈ (settle (acceptPosture p s)).bus.queue := by
  obtain ⟨entered, room⟩ := posture_placed (s := s.commanded p) hq
    (f := .posture (byteOf p.num) (s.posture.view.epoch + 1)) rfl
  have told := askStatus_told
    (enqueue (.posture (byteOf p.num) (s.posture.view.epoch + 1)) (s.commanded p))
  have five : (s.postureEntry p).frame.kind = 5 := rfl
  exact settle_stays _ (told.sent room).1 _ (told.stay room _ entered (by rw [five]; decide)) (by rw [five]; decide)
    (by rw [five]; decide)

/-- R139: the STATUS. -/
theorem settle_acceptPosture_announces (hr : s.running = true) (ha : s.bus.announcing = true)
    (hq : s.bus.queue.length ≤ 2) : StatusWaits (settle (acceptPosture p s)) := by
  obtain ⟨-, room⟩ := posture_placed (s := s.commanded p) hq
    (f := .posture (byteOf p.num) (s.posture.view.epoch + 1)) rfl
  have only := enqueue_only (.posture (byteOf p.num) (s.posture.view.epoch + 1)) (s.commanded p)
  exact settle_askStatus ((running_congr only.startup).trans hr) (only.announcing.trans ha) room

end

/-- R140, R141: with no lockdown flag and no entry in the remote list there is no overlay, and the view prevails. -/
theorem effective_of_unflagged {t : State} (h : t.PostureFollows) (flags : ∀ x, t.lockdownFlag x = false)
    (remote : t.ann.remote = []) : t.posture.effective = t.posture.view.posture := by
  refine h.2 ?_
  rintro (⟨x, -, -, flag, -⟩ | ⟨e, he, -⟩)
  · exact absurd ((flags x).symm.trans flag) nofun
  · rw [remote] at he
    cases he

section
variable {s : State} {dt before : Nat} {p : Posture}

/-- R137: an accepted command: what was commanded is settled, and the reply carries the next epoch. -/
theorem exec_setPosture (h : s.AtPanel) (ha : s.address ∈ s.img.authorities) (hp : s.startup.phase = .run) :
    ∃ q, exec (.setPosture dt ⟨[1, byteOf p.num], before⟩) s =
      .next ((settle (acceptPosture p ((s.elapse dt).setPort q))).setPort
        (s.answered [1, byteOf p.num] 9 0 0 [s.posture.view.epoch + 1])) := by
  obtain ⟨v, hv⟩ : ∃ v, s.taken dt 9 ⟨byteOf 1 :: [byteOf p.num], before⟩ = v := ⟨_, rfl⟩
  have taken : v = (s.elapse dt).setPort v.port := by rw [← hv]; rfl
  have acts : setPosture p v = (.done [v.posture.view.epoch + 1], settle (acceptPosture p v)) := by
    rw [taken]
    exact setPosture_accepted ha hp
  refine ⟨v.port, congrArg Host.Outcome.next ((panelCommand_idle (code := 9) (len := 1) (act := setPosture) h rfl
    (by decide) (postureOperand_num _ p) ?_).trans ?_)⟩
  · rw [hv, acts]
    exact ((acceptPosture_only p v).toHanded.trans (settle_handed _)).port
  · rw [hv, acts, ← taken]
    rw [taken]
    rfl

/-- R112, R131, R141: what a commanded posture hands on, reckoned from the station before the command. -/
theorem setPosture_handed (q r : Port) :
    PostureHanded s ((settle (acceptPosture p ((s.elapse dt).setPort q))).setPort r) :=
  (((settle_posture _).of_preposed (acceptPosture_preposed p _)).setPort r).of_preposed
    ⟨rfl, rfl, rfl, rfl, rfl, rfl, rfl⟩

end

/-- R13, R141: a commanded posture with no overlay prevails, and the lines' alarm levels follow it. -/
theorem PostureHanded.alarms_of_effective {s t : State} {p : Posture} (h : PostureHanded s t) (hi : t.img = s.img)
    (hp : t.posture.effective = p) (changed : p ≠ s.posture.effective) (l : Fin 4) : (t.line l).effAlarm =
      if 2 ≤ p.num then max ((s.lineCfg l).at_ - s.img.ko) ((s.lineCfg l).wt + 1) else (s.lineCfg l).at_ := by
  subst hp
  rw [h.alarms changed l, State.lineCfg, State.lineCfg, hi]

theorem reached_pins (s : State) (c : FrameCall) (a : Nat) (f : Frame) : (s.reached c a f).pins = s.pins := by
  obtain ⟨-, -, pins, -⟩ := heard_rest s c a f
  exact (reached_handed s c a f).pins.trans pins

theorem postureOwner_remote (a : Nat) (p e : Byte) (s : State) :
    (postureOwner a (.posture p e) s).ann.remote = s.ann.remote := by
  simp only [postureOwner]
  split
  · split
    · exact adoptPosture_remote _ _ _ _
    · rfl
  · rfl

/-- Settles O42: an accepted SET_POSTURE and an announced posture write the view, and the settling of the event hands the
effective posture on (`settle_posture`). -/
theorem posturesPrevail : Obligations.PosturesPrevail := by
  refine ⟨?_, ?_, ?_⟩
  · intro s dt before p h rest
    refine ⟨fun ha => ?_, fun ha hp => ?_, fun ha hp => ?_⟩
    · exact congrArg Host.Outcome.next (panelCommand_same (code := 9) (len := 1) (act := setPosture) h rfl
        (by decide) (postureOperand_num _ p) (setPosture_notAuthority ha))
    · exact congrArg Host.Outcome.next (panelCommand_same (code := 9) (len := 1) (act := setPosture) h rfl
        (by decide) (postureOperand_num _ p) (setPosture_wrongState ha hp))
    · obtain ⟨q, he⟩ := exec_setPosture (dt := dt) (before := before) (p := p) h ha hp
      have told := setPosture_handed (s := s) (dt := dt) (p := p) q
        (s.answered [1, byteOf p.num] 9 0 0 [s.posture.view.epoch + 1])
      have handed := (acceptPosture_only p ((s.elapse dt).setPort q)).toHanded.trans (settle_handed _)
      have follows := settle_postureFollows
        ((acceptPosture_only p ((s.elapse dt).setPort q)).toHanded.running.trans h.1)
      refine ⟨_, he, handed.setPort _, fun hq => ⟨settle_acceptPosture_waits hq,
        fun hb => settle_acceptPosture_announces h.1 hb hq⟩, told, follows, fun flags remote => ?_⟩
      have effective := (effective_of_unflagged follows (fun x => (handed.lockdownFlag x).trans (flags x))
        (handed.remote.trans remote)).trans (congrArg PostureView.posture handed.view)
      exact ⟨effective, told.alarms_of_effective handed.img effective⟩
  · intro s a q e t h v adopted
    obtain ⟨view, follows, gone⟩ := announced_adopted h
    exact ⟨fun k => view.trans (if_pos ((adopts_iff _ _ _).mpr k)),
      fun k => view.trans (if_neg fun j => k ((adopts_iff _ _ _).mp j)), follows, gone⟩
  · intro s dt a bits p e h
    obtain ⟨-, -, posture, roster, port, -, -⟩ :=
      reached_blocks s { kind := 5, dt := dt, bits := bits } a (.posture p e)
    have pins := reached_pins s { kind := 5, dt := dt, bits := bits } a (.posture p e)
    obtain ⟨-, -, -, remote⟩ := reached_rest s { kind := 5, dt := dt, bits := bits } a (.posture p e) (.refl _)
    have spares := (postureOwner_spares a (.posture p e)
      (s.reached { kind := 5, dt := dt, bits := bits } a (.posture p e))).trans (settle_handed _).spares
    refine ⟨_, exec_postureFrame h, spares.roster.trans roster, spares.port.trans port, spares.pins.trans pins,
      (settle_handed _).remote.trans ((postureOwner_remote _ _ _ _).trans remote), postureFrame_handed _ _,
      fun ignored => ?_⟩
    · rw [postureOwner_ignores (by rwa [reached_img]), (settle_handed _).view, posture]

end Sys2Proof.Machine
end
section
/-! SUPPORT. The comparison of the general output lines (R147): the operations that leave alone what it reads, and what a
command is in its terms. -/

namespace Sys2Proof.Machine

/-! ## What is compared -/

/-- What R147 compares, and when: the time, the sense inputs and the lines. -/
def State.wires (s : State) : Nat × Vector Bool 12 × Vector OutLine 12 := (s.now, s.pins.sense, s.posture.outputs)

/-- R147: a line whose driven level has changed has just been compared. -/
def Redriven (s t : State) : Prop := ∀ l, (t.output l).driven ≠ (s.output l).driven → Compared t l

/-- An operation in the course of an event: a line just compared stays so, and one whose level changes is compared. -/
structure Supervises (s t : State) : Prop where
  stays : ∀ l, Compared s l → Compared t l
  moves : Redriven s t

theorem Redriven.of_driven {s t : State} (h : ∀ l, (t.output l).driven = (s.output l).driven) : Redriven s t :=
  fun l k => absurd (h l) k

theorem Redriven.of_outputs {s t : State} (h : t.posture.outputs = s.posture.outputs) : Redriven s t :=
  .of_driven fun l => by rw [State.output, State.output, h]

theorem Redriven.then {s t u : State} (h : Redriven s t) (k : Supervises t u) : Redriven s u := fun l moved => by
  by_cases same : (u.output l).driven = (t.output l).driven
  · exact k.stays l (h l (same ▸ moved))
  · exact k.moves l same

namespace Supervises

theorem refl (s : State) : Supervises s s := ⟨fun _ => id, .of_outputs rfl⟩

theorem trans {s t u : State} (h : Supervises s t) (k : Supervises t u) : Supervises s u :=
  ⟨fun l c => k.stays l (h.stays l c), h.moves.then k⟩

theorem foldl {α : Type} {f : State → α → State} (h : ∀ s x, Supervises s (f s x)) (xs : List α) (s : State) :
    Supervises s (xs.foldl f s) := by
  induction xs generalizing s with
  | nil => exact .refl s
  | cons x xs ih => exact (h s x).trans (ih _)

/-- An operation that reaches nothing of what is compared. -/
theorem of_wires {s t : State} (h : t.wires = s.wires) : Supervises s t := by
  obtain ⟨now, h⟩ := Prod.mk.inj h
  obtain ⟨sense, outputs⟩ := Prod.mk.inj h
  refine ⟨fun l c => ?_, .of_outputs outputs⟩
  unfold Compared State.output at *
  rwa [now, sense, outputs]

/-- Time has passed, or an input other than a sense input has changed, before the operation. -/
theorem after {s u t : State} (h : Supervises u t) (hu : u.posture.outputs = s.posture.outputs) : Redriven s t :=
  (Redriven.of_outputs hu).then h

/-- R146: a line is forced, or let go; it is driven with what follows. -/
theorem setForced (s : State) (l : Fin 12) (x : Option Bool) :
    Supervises s (s.setOutput l { s.output l with forced := x }) := by
  refine ⟨fun k c => ?_, .of_driven fun k => ?_⟩
  · unfold Compared at *
    rw [State.setOutput_output]
    split
    · next h => subst h; exact c
    · exact c
  · rw [State.setOutput_output]
    split
    · next h => rw [h]
    · rfl

end Supervises

theorem Handed.compared {s t : State} (h : Handed s t) {l : Fin 12} (ho : t.output l = s.output l)
    (c : Compared s l) : Compared t l := c.of_eq ho h.pins h.now

/-- R147: what follows from an event compares every line that it drives. -/
theorem settle_supervises (s : State) : Supervises s (settle s) := by
  have after := settle_after s
  refine ⟨fun l c => ?_, fun l moved => ?_⟩
  · rcases after.compared l with same | ⟨compared, -⟩
    · exact after.handed.compared same c
    · exact compared
  · rcases after.compared l with same | ⟨compared, -⟩
    · exact absurd (congrArg OutLine.driven same) moved
    · exact compared

/-- An event that is settled. -/
theorem Supervises.settled {s u : State} (h : Supervises s u) : Supervises s (settle u) := h.trans (settle_supervises u)

theorem settled_supervises {s u : State} (h : u.wires = s.wires) : Supervises s (settle u) :=
  (Supervises.of_wires h).settled

theorem SeqOnly.wires {s t : State} (h : SeqOnly s t) : t.wires = s.wires := by
  rw [State.wires, h.now, h.pins, h.posture_eq, State.wires]

theorem SeqOnly.supervises {s t : State} (h : SeqOnly s t) : Supervises s t := .of_wires h.wires

/-! ## What reaches nothing of it -/

section
variable (s : State)

@[simp] theorem setEntry_wires (x : EntryUnit) : (s.setEntry x).wires = s.wires := rfl
@[simp] theorem setRoster_wires (x : Roster) : (s.setRoster x).wires = s.wires := rfl
@[simp] theorem setBus_wires (x : Bus) : (s.setBus x).wires = s.wires := rfl
@[simp] theorem setDoors_wires (x : DoorCtl) : (s.setDoors x).wires = s.wires := rfl
@[simp] theorem setSource_wires (x : Source) (y : SourceState) : (s.setSource x y).wires = s.wires := rfl
@[simp] theorem setView_wires (v : PostureView) : (s.setPosture { s.posture with view := v }).wires = s.wires := rfl

@[simp] theorem setDoor_wires (d : DoorId) (x : Door) : (s.setDoor d x).wires = s.wires := by cases d <;> rfl

@[simp] theorem setReservation_wires (d : DoorId) (x : Option Reservation) :
    (s.setReservation d x).wires = s.wires := by
  cases d <;> rfl

@[simp] theorem setBroken_wires (d : DoorId) (x : Bool) : (s.setBroken d x).wires = s.wires := by cases d <;> rfl

@[simp] theorem setPeer_wires (a : Nat) (x : Peer) : (s.setPeer a x).wires = s.wires := by
  unfold State.setPeer
  split <;> rfl

@[simp] theorem hear_wires (levels : List Bool) : (s.hear levels).wires = s.wires := by
  unfold State.hear
  split <;> rfl

@[simp] theorem takePins_wires (i : Input) (b : Bool) : (s.setPins (s.pins.take i b)).wires = s.wires := by
  cases i <;> rfl

@[simp] theorem setFilter_wires (i : Input) (x : Option Nat) :
    (s.setPins (s.pins.setFilter i x)).wires = s.wires := rfl

@[simp] theorem enqueue_wires (f : Frame) : (enqueue f s).wires = s.wires := (enqueue_only f s).wires

@[simp] theorem raise_wires (x : Source) : (raise x s).wires = s.wires := by
  unfold raise
  split <;> rfl

@[simp] theorem trigger_wires (x : Source) : (trigger x s).wires = s.wires := by
  unfold trigger
  split <;> simp

@[simp] theorem askStatus_wires : (askStatus s).wires = s.wires := (askStatus_only s).wires

@[simp] theorem sendStatus_wires : (sendStatus s).wires = s.wires := by simp [sendStatus]

@[simp] theorem returnFrame_wires (e : QueueEntry) : (returnFrame e s).wires = s.wires := by
  unfold returnFrame
  split
  · rfl
  · exact (overrunIf_only _ _).wires

@[simp] theorem abandonFrame_wires : (abandonFrame s).wires = s.wires := by
  unfold abandonFrame
  split <;> rfl

@[simp] theorem breakAt_wires (d : DoorId) : (breakAt d s).wires = s.wires := by
  unfold breakAt
  split <;> simp

@[simp] theorem breakReservations_wires : (breakReservations s).wires = s.wires := by
  unfold breakReservations
  split <;> simp

@[simp] theorem setDoubt_wires (c : DoubtCause) : (setDoubt c s).wires = s.wires := by
  unfold setDoubt
  split <;> rfl

@[simp] theorem adoptPosture_wires (a : Nat) (p : Posture) (e : Byte) : (adoptPosture a p e s).wires = s.wires := by
  unfold adoptPosture
  split <;> simp

@[simp] theorem acknowledge_wires (x : Source) : (acknowledge x s).wires = s.wires := by
  unfold acknowledge rotate
  split <;> split <;> rfl

@[simp] theorem restoreSource_wires (x : Source) : (restoreSource x s).wires = s.wires := by
  unfold restoreSource
  dsimp only
  split <;> simp

/-! ### Passages -/

@[simp] theorem rosterEntry_wires (holders : List Holder) : (rosterEntry holders s).wires = s.wires := by
  have admitted (time : Nat) (u : State) (h : Holder) : (admitHolder time u h).wires = u.wires := by
    unfold admitHolder
    split
    · rfl
    · split <;> simp
  unfold rosterEntry
  generalize s.presentTime = time
  induction holders generalizing s with
  | nil => rfl
  | cons h hs ih => exact (ih _).trans (admitted time s h)

@[simp] theorem identifiedExit_wires (id : Nat) : (identifiedExit id s).wires = s.wires := by
  unfold identifiedExit
  split
  · simp
  · dsimp only
    split <;> simp

@[simp] theorem anonymousExit_wires : (anonymousExit s).wires = s.wires := by
  unfold anonymousExit
  split <;> simp

@[simp] theorem consummate_wires (d : DoorId) : (consummate d s).wires = s.wires := by
  unfold consummate
  split
  · split
    · simp
    · split <;> simp
    · simp
  · rfl
  · rfl

@[simp] theorem releaseDoor_wires (d : DoorId) (c : Credit) : (releaseDoor d c s).wires = s.wires := by
  simp [releaseDoor]

@[simp] theorem secureDoor_wires (d : DoorId) : (secureDoor d s).wires = s.wires := by
  have granted (e : DoorId) (u : State) : (grantRequest e u).wires = u.wires := by
    unfold grantRequest
    split <;> simp
  have tested (u : State) : (interlockTest u).wires = u.wires := by
    unfold interlockTest
    split
    · split <;> exact granted _ u
    · split
      · exact granted _ u
      · rfl
  exact (tested _).trans (setDoor_wires s d _)

@[simp] theorem enterHeldOpen_wires (d : DoorId) : (enterHeldOpen d s).wires = s.wires := by simp [enterHeldOpen]

@[simp] theorem openContact_wires (d : DoorId) : (openContact d s).wires = s.wires := by
  unfold openContact
  split <;> simp [passOpen, forceDoor]

@[simp] theorem closeContact_wires (d : DoorId) : (closeContact d s).wires = s.wires := by
  unfold closeContact
  split <;> simp

@[simp] theorem pressExit_wires (d : DoorId) : (pressExit d s).wires = s.wires := by
  unfold pressExit
  split <;> simp

/-! ### Credits -/

@[simp] theorem notePassback_wires (hit : Bool) : (notePassback hit s).wires = s.wires := by
  unfold notePassback
  split <;> simp

@[simp] theorem handCredit_wires (d : DoorId) (c : Credit) : (handCredit d c s).2.wires = s.wires := by
  unfold handCredit
  split
  · rfl
  · split
    · rfl
    · split <;> simp [pendCredit]

@[simp] theorem takeConfirm_wires (d : DoorId) (tag : Byte) (holder cls : Nat) :
    (takeConfirm d tag holder cls s).wires = s.wires := by
  have completed : (completeConfirm d s).wires = s.wires := by
    unfold completeConfirm
    split <;> simp
  unfold takeConfirm
  split <;> simp [recordOutcome, completed]

theorem grantEntry_wires (p : Presentation) (holders : List Holder) (result : Result) (tag : Nat) (hit : Bool) :
    (grantEntry p holders result tag hit s).after.wires = s.wires := by
  have handed := handCredit_wires s p.door (newCredit .entry holders)
  unfold grantEntry
  generalize handCredit p.door (newCredit .entry holders) s = answer at handed ⊢
  split
  · rfl
  · rfl
  · exact (notePassback_wires _ hit).trans handed
  · exact (notePassback_wires _ hit).trans handed

theorem presentInside_wires (p : Presentation) : (presentInside p s).after.wires = s.wires := by
  have handed := handCredit_wires s p.door (newCredit .egress [plainHolder p.id p.cls])
  unfold presentInside
  generalize handCredit p.door (newCredit .egress [plainHolder p.id p.cls]) s = answer at handed ⊢
  split
  · rfl
  · rfl
  · exact handed
  · exact handed

theorem modeStep_wires (p : Presentation) (hit : Bool) : (modeStep p hit s).after.wires = s.wires := by
  have escorted : (presentEscorted p hit s).after.wires = s.wires := by
    unfold presentEscorted
    split
    · exact grantEntry_wires s _ _ _ _ _
    · split
      · exact grantEntry_wires s _ _ _ _ _
      · rfl
  have paired : (presentPaired p hit s).after.wires = s.wires := by
    unfold presentPaired
    split
    · simp [reserve]
    · split
      · rfl
      · exact (grantEntry_wires _ _ _ _ _ _).trans (setReservation_wires s _ _)
  unfold modeStep
  split
  · exact grantEntry_wires s _ _ _ _ _
  · exact grantEntry_wires s _ _ _ _ _
  · exact escorted
  · exact paired
  · exact paired
  · rfl

@[simp] theorem decidePresentation_wires (p : Presentation) : (decidePresentation p s).after.wires = s.wires := by
  unfold decidePresentation
  split
  · exact presentInside_wires s p
  · unfold presentOutside
    iterate 7
      split
      · rfl
    exact modeStep_wires s p _

end

end Sys2Proof.Machine
end
section
/-! SUPPORT. Every command compares the general output lines that it drives (R147): the commands by their block. -/

namespace Sys2Proof.Machine

/-! ## Commands by their kind -/

theorem elapse_redriven {s t : State} {dt : Nat} (h : Redriven (s.elapse dt) t) : Redriven s t := h

/-- An event that is settled compares what it drives. -/
theorem Redriven.settled {s u : State} (h : Redriven s u) : Redriven s (settle u) := h.then (settle_supervises u)

theorem settled_redriven {s u : State} (h : u.posture.outputs = s.posture.outputs) : Redriven s (settle u) :=
  (Redriven.of_outputs h).settled

theorem panelCommand_redriven {α : Type} {code len : Nat} {parse : State → List Byte → Option α}
    {act : α → State → Answer × State} {dt : Nat} {rest : PanelRest} (hact : ∀ x u, Supervises u (act x u).2)
    (s : State) : Redriven s (panelCommand code len parse act dt rest s) :=
  panelCommand_induction (P := Redriven s) (Q := Redriven s) (fun _ _ h => h) (fun _ _ h => h) (fun _ h => h)
    (fun x u h => h.then (hact x u)) (.of_outputs rfl)

/-- The owner of a panel command that only reports. -/
theorem report_supervises {α : Type} {act : α → State → Answer × State} (h : ∀ x u, (act x u).2 = u) (x : α)
    (u : State) : Supervises u (act x u).2 := by
  rw [h]
  exact .refl u

theorem receiveFrame_redriven {kind : Nat} {owner : Nat → Frame → State → State} {bits : List Bool}
    (howner : ∀ a f u, Supervises u (owner a f u)) (s : State) (dt : Nat) :
    Redriven s (receiveFrame kind owner bits (s.elapse dt)) := by
  have heard : Supervises (s.elapse dt) ((s.elapse dt).hear bits) := .of_wires (hear_wires _ bits)
  have delivered (a : Nat) (f : Frame) (u : State) : Supervises u (deliver a f owner u) := by
    unfold deliver
    split
    · exact settled_supervises rfl
    · refine Supervises.settled (Supervises.trans ?_ (howner a f _))
      exact Supervises.trans (.of_wires (setPeer_wires u a _)) (evalOccupancy_only _).supervises
  unfold receiveFrame
  split
  · split
    · split
      · exact (heard.trans (delivered _ _ _)).moves
      · exact heard.moves
    · exact heard.moves
  · exact heard.moves

theorem takeInput_supervises {i : Input} {act : Bool → State → State} (hact : ∀ b u, Supervises u (act b u))
    (u : State) : Supervises u (takeInput i act u) :=
  Supervises.trans (.of_wires (takePins_wires u i _)) (hact _ _)

theorem inputEvent_redriven {i : Input} {act : Bool → State → State} (hact : ∀ b u, Supervises u (act b u))
    (level : Bool) (e : InputEvent) (s : State) : Redriven s (inputEvent i level act e s) := by
  have filtered (u : State) (x : Option Nat) : Supervises u (u.setPins (u.pins.setFilter i x)) :=
    .of_wires (setFilter_wires u i x)
  unfold inputEvent
  split
  · next dt =>
    refine elapse_redriven (dt := dt) (Supervises.moves ?_)
    unfold pinMoves
    split
    · exact .refl _
    · split
      · split
        · exact filtered _ _
        · unfold pinReturns
          split
          · exact (takeInput_supervises hact _).trans (filtered _ _)
          · exact filtered _ _
      · exact .of_wires (takePins_wires _ i level)
  · split
    · split
      · exact .of_outputs rfl
      · exact (takeInput_supervises hact _).after rfl
    · exact .of_outputs rfl

/-! ## Start-up -/

theorem initExpiry_redriven (s : State) : Redriven s (initExpiry s) := by
  unfold initExpiry
  split <;> exact .of_outputs rfl

theorem referenceCycle_redriven (s : State) : Redriven s (referenceCycle s) := by
  unfold referenceCycle
  split
  · split
    · exact settled_redriven rfl
    · exact .of_outputs rfl
  · exact .of_outputs rfl

theorem referenceGap_redriven (s : State) : Redriven s (referenceGap s) := by
  unfold referenceGap
  split <;> exact .of_outputs rfl

theorem clockLimitExpiry_redriven (s : State) : Redriven s (clockLimitExpiry s) := by
  unfold clockLimitExpiry
  split
  · exact settled_redriven rfl
  · exact .of_outputs rfl

theorem clockFallback_redriven (s : State) : Redriven s (clockFallback s) := by
  unfold clockFallback
  split
  · exact settled_redriven rfl
  · exact .of_outputs rfl

theorem joinTimerExpiry_redriven (s : State) : Redriven s (joinTimerExpiry s) := by
  have joined (u : State) : Supervises u (enterRun u) := by
    have begun (x : Startup) (b : Bus) : Supervises u ((u.setStartup x).setBus b) := .of_wires rfl
    unfold enterRun
    dsimp only
    split
    · exact (begun _ _).trans (sendNotice_only _).supervises
    · exact begun _ _
  unfold joinTimerExpiry
  split
  · next t _ _ =>
    have asked : Supervises (s.reach t) (enqueue .query (s.reach t)) := .of_wires (enqueue_wires _ _)
    exact (asked.trans (joined _)).settled.after rfl
  · exact .of_outputs rfl

theorem abortInput_supervises (made : Bool) (s : State) : Supervises s (abortInput made s) := by
  unfold abortInput
  split
  · split
    · exact (abortJoin_only _ s).supervises
    · exact (abortLeave_only _ s).supervises
  · exact .of_wires (enqueue_wires _ _)
  · exact .refl s

/-! ## Detector lines -/

theorem setLine_wires (l : Fin 4) (x : Line) (s : State) : (s.setLine l x).wires = s.wires := rfl

theorem putLine_supervises (l : Fin 4) (x : Line) (s : State) : Supervises s (putLine l x s) :=
  Supervises.trans (.of_wires (setLine_wires l x s)) (putLine_only l x s).supervises

theorem risingEdge_redriven (l : Fin 4) (s : State) : Redriven s (risingEdge l s) := by
  unfold risingEdge
  split
  · exact .of_outputs rfl
  · split <;> exact .of_outputs rfl

theorem fallingEdge_redriven (l : Fin 4) (s : State) : Redriven s (fallingEdge l s) := by
  have pins : (setDet l false s).posture.outputs = s.posture.outputs := rfl
  unfold fallingEdge
  split
  · split
    · exact (putLine_supervises l _ _).settled.after pins
    · exact .of_outputs rfl
  · exact .of_outputs rfl

theorem longPulse_redriven (l : Fin 4) (s : State) : Redriven s (longPulse l s) := by
  unfold longPulse
  split
  · exact .of_outputs rfl
  · exact (putLine_supervises l _ _).settled.after rfl

theorem stuckTimerExpiry_redriven (l : Fin 4) (s : State) : Redriven s (stuckTimerExpiry l s) := by
  unfold stuckTimerExpiry
  split
  · exact .of_outputs rfl
  · split
    · exact settled_redriven rfl
    · exact .of_outputs rfl

theorem openTimerExpiry_redriven (l : Fin 4) (s : State) : Redriven s (openTimerExpiry l s) := by
  unfold openTimerExpiry
  split
  · exact .of_outputs rfl
  · split
    · exact .of_outputs rfl
    · exact settled_redriven rfl

theorem resetDetection_supervises (x : Option (Fin 4)) (s : State) : Supervises s (resetDetection x s).2 := by
  have line (u : State) (l : Fin 4) : Supervises u (resetLine u l) := by
    unfold resetLine
    split
    · exact Supervises.trans (.of_wires (setLine_wires l _ u)) (resetAccepted_only l u).supervises
    · exact .refl u
  rcases resetDetection_cases x s with h | ⟨ls, h⟩ <;> rw [h]
  · exact .refl s
  · exact (Supervises.foldl line ls s).settled

/-! ## The owners of frames -/

theorem addRemote_supervises (a : Nat) (k : RemoteKind) (s : State) : Supervises s (addRemote a k s) := by
  have evicted : Supervises s (evictOldest s) := settled_supervises rfl
  unfold addRemote
  split
  · exact .refl s
  · split
    · exact .of_wires rfl
    · exact evicted.trans (.of_wires rfl)

theorem removeRemote_supervises (a : Nat) (k : RemoteKind) (s : State) : Supervises s (removeRemote a k s) :=
  .of_wires rfl

theorem adoptPosture_supervises (a : Nat) (p : Posture) (e : Byte) (s : State) :
    Supervises s (adoptPosture a p e s) :=
  .of_wires (adoptPosture_wires s a p e)

theorem statusOwner_supervises (a : Nat) (f : Frame) (s : State) : Supervises s (statusOwner a f s) := by
  have duress (c : Announcement) (u : State) : Supervises u (recoverDuress a c u) := by
    unfold recoverDuress
    split
    · exact addRemote_supervises a _ u
    · exact removeRemote_supervises a _ u
  have firstAlarm (c : Announcement) (u : State) : Supervises u (recoverFirstAlarm a c u) := by
    unfold recoverFirstAlarm
    split
    · exact removeRemote_supervises a _ u
    · split
      · exact addRemote_supervises a _ u
      · exact .refl u
  cases f
  case status c =>
    have lists := (((recoverDetections_only a c s).supervises.settled.trans (duress c _)).settled.trans
      (firstAlarm c _)).settled
    have view := (lists.trans (recoverAbort_only a c _).supervises).settled
    exact (view.trans (adoptPosture_supervises a c.posture c.epoch _)).settled.trans
      (mirrorStatus_only a c _).supervises
  all_goals exact .refl s

theorem queryOwner_supervises (a : Nat) (f : Frame) (s : State) : Supervises s (queryOwner a f s) := by
  unfold queryOwner
  split
  · exact .of_wires (askStatus_wires s)
  · exact .refl s

theorem callOwner_supervises (a : Nat) (f : Frame) (s : State) : Supervises s (callOwner a f s) := by
  unfold callOwner
  split
  case h_1 =>
    split
    · exact (settle_supervises s).trans (actOnCall_only a _ _).supervises
    · exact .refl s
  all_goals exact .refl s

theorem duressOwner_supervises (a : Nat) (f : Frame) (s : State) : Supervises s (duressOwner a f s) := by
  unfold duressOwner
  split
  case h_1 =>
    split
    · split
      · exact addRemote_supervises a _ s
      · exact removeRemote_supervises a _ s
    · exact .refl s
  all_goals exact .refl s

theorem confirmOwner_supervises (a : Nat) (f : Frame) (s : State) : Supervises s (confirmOwner a f s) := by
  unfold confirmOwner
  split
  case h_1 =>
    split
    · split
      · exact .of_wires (takeConfirm_wires s _ _ _ _)
      · exact .refl s
    · exact .refl s
  all_goals exact .refl s

theorem postureOwner_supervises (a : Nat) (f : Frame) (s : State) : Supervises s (postureOwner a f s) := by
  unfold postureOwner
  split
  case h_1 =>
    split
    · split
      · exact adoptPosture_supervises a _ _ s
      · exact .refl s
    · exact .refl s
  all_goals exact .refl s

theorem silenceExpiry_redriven (a : Nat) (s : State) : Redriven s (silenceExpiry a s) := by
  unfold silenceExpiry
  split
  · exact .of_outputs rfl
  · exact (settled_supervises (setPeer_wires _ a _)).after rfl

/-! ## The Sequencer -/

theorem windowExpiry_redriven (a : Nat) (l : Fin 4) (s : State) : Redriven s (windowExpiry a l s) := by
  unfold windowExpiry
  split
  · exact .of_outputs rfl
  · exact (dropDetection_only a l _).supervises.settled.after rfl

theorem abortChange_supervises (b : Bool) (s : State) : Supervises s (abortChange b s) := by
  unfold abortChange
  split
  · exact (abortInput_supervises b s).settled
  · exact .refl s

theorem manrelChange_supervises (b : Bool) (s : State) : Supervises s (manrelChange b s) := by
  unfold manrelChange
  split
  · exact settled_supervises ((manualPress_only _).wires.trans (trigger_wires s _))
  · exact .refl s

theorem abortStuckExpiry_redriven (s : State) : Redriven s (abortStuckExpiry s) := by
  unfold abortStuckExpiry
  split
  · exact .of_outputs rfl
  · exact (settled_supervises (trigger_wires _ _)).after rfl

theorem countdownExpiry_redriven (s : State) : Redriven s (countdownExpiry s) := by
  unfold countdownExpiry
  split
  · exact (enterReleasing_only _).supervises.settled.after rfl
  · exact .of_outputs rfl

theorem valveDelayExpiry_redriven (s : State) : Redriven s (valveDelayExpiry s) := by
  unfold valveDelayExpiry
  split
  · exact (energiseValve_only _).supervises.settled.after rfl
  · exact .of_outputs rfl

theorem valvePulseExpiry_redriven (s : State) : Redriven s (valvePulseExpiry s) := by
  unfold valvePulseExpiry
  split
  · exact (endValvePulse_only _).supervises.settled.after rfl
  · exact .of_outputs rfl

theorem flowChange_supervises (b : Bool) (s : State) : Supervises s (flowChange b s) := by
  unfold flowChange
  split
  · exact (confirmFlow_only s).supervises.settled
  · exact .refl s

theorem flowWaitExpiry_redriven (s : State) : Redriven s (flowWaitExpiry s) := by
  unfold flowWaitExpiry
  split
  · exact .of_outputs rfl
  · exact (settled_supervises (trigger_wires _ _)).after rfl

theorem soakExpiry_redriven (s : State) : Redriven s (soakExpiry s) := by
  unfold soakExpiry
  split
  · exact (enterStage_only _ _).supervises.settled.after rfl
  · exact .of_outputs rfl

theorem noticeExpiry_redriven (s : State) : Redriven s (noticeExpiry s) := by
  unfold noticeExpiry
  split
  · exact .of_outputs rfl
  · exact (sendNotice_only _).supervises.settled.after rfl

theorem cadenceExpiry_redriven (s : State) : Redriven s (cadenceExpiry s) := by
  unfold cadenceExpiry
  split <;> exact .of_outputs rfl

theorem suppressionReset_supervises (x : Unit) (s : State) : Supervises s (suppressionReset x s).2 := by
  have rejoined (u : State) : Supervises u (rejoinAbort u) := by
    unfold rejoinAbort
    split
    · exact (abortJoin_only _ u).supervises.settled
    · exact .refl u
  unfold suppressionReset
  iterate 3
    split
    · exact .refl s
  exact (resetSequence_only s).supervises.settled.trans (rejoined _)

theorem suppressionIsolate_supervises (on : Bool) (s : State) : Supervises s (suppressionIsolate on s).2 := by
  rcases suppressionIsolate_cases on s with h | ⟨st, h⟩ <;> rw [h]
  · exact .refl s
  · exact (enterStage_only st s).supervises.settled

end Sys2Proof.Machine
end

section
/-! SUPPORT. Every command compares the general output lines that it drives (R147): the blocks beside the Sequencer, and the
walk over every command. -/

namespace Sys2Proof.Machine

/-! ## Doors, entry, roster and posture -/

theorem contactChange_supervises (d : DoorId) (b : Bool) (s : State) : Supervises s (contactChange d b s) := by
  unfold contactChange
  split
  · split
    · exact settled_supervises (openContact_wires s d)
    · exact settled_supervises ((closeContact_wires _ d).trans (setDoor_wires s d _))
  · exact .refl s

theorem exitChange_supervises (d : DoorId) (b : Bool) (s : State) : Supervises s (exitChange d b s) := by
  unfold exitChange
  dsimp only
  split
  · split
    · exact settled_supervises ((pressExit_wires _ d).trans (setDoor_wires s d _))
    · exact .of_wires (setDoor_wires s d _)
  · exact .refl s

theorem releaseExpiry_redriven (d : DoorId) (s : State) : Redriven s (releaseExpiry d s) := by
  unfold releaseExpiry
  split
  · exact (settled_supervises (secureDoor_wires _ d)).after rfl
  · exact .of_outputs rfl

theorem heldExpiry_redriven (d : DoorId) (s : State) : Redriven s (heldExpiry d s) := by
  unfold heldExpiry
  split
  · exact (settled_supervises (enterHeldOpen_wires _ d)).after rfl
  · exact .of_outputs rfl

theorem waitExpiry_redriven (d : DoorId) (s : State) : Redriven s (waitExpiry d s) := by
  unfold waitExpiry
  split
  · exact .of_outputs rfl
  · exact (Supervises.of_wires (setDoor_wires _ d _)).after rfl

theorem pairExpiry_redriven (d : DoorId) (s : State) : Redriven s (pairExpiry d s) := by
  unfold pairExpiry
  split
  · exact .of_outputs rfl
  · exact (Supervises.of_wires (breakAt_wires _ d)).after rfl

theorem presentCredential_supervises (p : Presentation) (s : State) : Supervises s (presentCredential p s).2 :=
  settled_supervises ((setEntry_wires _ _).trans
    ((setBroken_wires _ p.door false).trans (decidePresentation_wires s p)))

theorem zoneSweep_supervises (x : Unit) (s : State) : Supervises s (zoneSweep x s).2 := by
  unfold zoneSweep
  split
  · exact settled_supervises rfl
  · exact .refl s

theorem setPosture_supervises (p : Posture) (s : State) : Supervises s (setPosture p s).2 := by
  unfold setPosture
  iterate 2
    split
    · exact .refl s
  exact settled_supervises (by simp [acceptPosture])

/-! ## The output lines -/

theorem forceOutput_supervises (x : Fin 12 × Bool) (s : State) : Supervises s (forceOutput x s).2 := by
  unfold forceOutput
  split
  · exact .refl s
  · exact (Supervises.setForced s x.1 _).settled

theorem releaseOutput_supervises (l : Fin 12) (s : State) : Supervises s (releaseOutput l s).2 :=
  (Supervises.setForced s l none).settled

/-- R147: a comparison, and a mark, leave every line driven as it was. -/
theorem setOutput_redriven {s u : State} (l : Fin 12) {x : OutLine} (h : u.posture.outputs = s.posture.outputs)
    (hx : x.driven = (s.output l).driven) : Redriven s (u.setOutput l x) :=
  .of_driven fun k => by
    rw [State.setOutput_output]
    split
    · next e => exact e ▸ hx
    · rw [State.output, State.output, h]

theorem compareOutput_driven (now : Nat) (x : OutLine) (sense : Bool) : (compareOutput now x sense).driven = x.driven := by
  unfold compareOutput
  split <;> rfl

theorem senseChange_redriven (l : Fin 12) (high : Bool) (s : State) : Redriven s (senseChange l high s) := by
  unfold senseChange
  split
  · exact .of_outputs rfl
  · dsimp only
    split
    · refine Redriven.settled (setOutput_redriven l rfl ?_)
      exact compareOutput_driven s.now (s.output l) high
    · exact .of_outputs rfl

theorem mismatchExpiry_redriven (l : Fin 12) (s : State) : Redriven s (mismatchExpiry l s) := by
  unfold mismatchExpiry
  split
  · exact .of_outputs rfl
  · refine Redriven.settled (setOutput_redriven l ?_ ?_)
    · rfl
    · rfl

/-! ## Alarms -/

theorem duressChange_supervises (d : DuressInput) (b : Bool) (s : State) : Supervises s (duressChange d b s) := by
  unfold duressChange
  split
  · exact settled_supervises (trigger_wires s _)
  · exact .refl s

theorem tamperChange_supervises (b : Bool) (s : State) : Supervises s (tamperChange b s) := by
  unfold tamperChange
  split
  · exact settled_supervises (trigger_wires s _)
  · exact .refl s

theorem nextAlarm_supervises (x : Unit) (s : State) : Supervises s (nextAlarm x s).2 := by
  unfold nextAlarm
  split
  · exact settled_supervises (acknowledge_wires s _)
  · exact .of_wires rfl

theorem restoreAlarm_supervises (x : Source) (s : State) : Supervises s (restoreAlarm x s).2 := by
  unfold restoreAlarm
  iterate 4
    split
    · exact .refl s
  exact settled_supervises (restoreSource_wires s x)

theorem maskAlarm_supervises (x : Source × Bool) (s : State) : Supervises s (maskAlarm x s).2 := by
  unfold maskAlarm
  split
  · exact .refl s
  · exact settled_supervises rfl

theorem confirmRemote_supervises (f : Frame) (s : State) : Supervises s (confirmRemote f s).2 :=
  settled_supervises (enqueue_wires s f)

/-! ## The zone bus and the panel port -/

theorem beginFrame_supervises (s : State) : Supervises s (beginFrame s) := by
  unfold beginFrame
  split
  · exact .refl s
  · split
    · exact .of_wires rfl
    · exact .refl s

theorem loseArbitration_supervises (s : State) : Supervises s (loseArbitration s) := by
  unfold loseArbitration
  split
  · exact .refl s
  · exact settled_supervises (returnFrame_wires _ _)

theorem bitError_supervises (bits : List Bool) (s : State) : Supervises s (bitError bits s) := by
  unfold bitError
  split
  · exact .refl s
  · exact settled_supervises (by simp)

theorem quietExpiry_redriven (s : State) : Redriven s (quietExpiry s) := by
  unfold quietExpiry
  split
  · exact .of_outputs rfl
  · exact settled_redriven rfl

theorem completeFrame_supervises (s : State) : Supervises s (completeFrame s) := by
  unfold completeFrame
  split
  · exact .refl s
  · exact .of_wires (hear_wires _ _)

theorem setStuck_supervises (b : Bool) (s : State) : Supervises s (setStuck b s) := by
  unfold setStuck
  split
  · exact settled_supervises rfl
  · exact .refl s

theorem firstStatusExpiry_redriven (s : State) : Redriven s (firstStatusExpiry s) := by
  unfold firstStatusExpiry
  split
  · exact .of_outputs rfl
  · exact (settled_supervises (sendStatus_wires _)).after rfl

theorem statusExpiry_redriven (s : State) : Redriven s (statusExpiry s) := by
  have line (u : State) (l : Fin 4) : Supervises u (ownCheckLine u l) := by
    unfold ownCheckLine
    split
    · exact (detect_only _ _ _ _ u).supervises
    · exact .refl u
  unfold statusExpiry
  split
  · exact .of_outputs rfl
  · next t _ =>
    have checked : Supervises (s.reach t) (ownCheck (s.reach t)) := Supervises.foldl line allLines _
    exact (checked.trans (.of_wires (sendStatus_wires _))).settled.after rfl

theorem readReply_redriven (clocked before : Nat) (s : State) : Redriven s (readReply clocked before s) := by
  unfold readReply
  split
  · exact .of_outputs rfl
  · split
    · split <;> exact .of_outputs rfl
    · exact .of_outputs rfl

theorem unknownCode_redriven (code : Nat) (rest : PanelRest) (s : State) : Redriven s (unknownCode code rest s) := by
  unfold unknownCode
  split
  · exact commandFrame_induction (P := Redriven s) (Q := Redriven s) (fun _ _ h => h) (fun _ _ h => h)
      (fun _ h => h) (fun _ h => h) (.of_outputs rfl)
  · exact .of_outputs rfl

theorem latchTimes_supervises (x : Unit) (s : State) : Supervises s (latchTimes x s).2 := by
  unfold latchTimes
  split
  · exact .refl s
  · exact .of_wires rfl

theorem readTimes_supervises (x : Unit) (s : State) : Supervises s (readTimes x s).2 := by
  unfold readTimes
  split
  · exact .of_wires rfl
  · exact .refl s

/-! ## Every command -/

/-- R147: every command that finds the station running and leaves it so compares the lines that it drives. A reset stops the
station, and an image is loaded only before it runs. -/
theorem exec_redriven (c : Instr) (s : State) (hs : s.running = true) :
    ∃ t, exec c s = .next t ∧ (t.running = true → Redriven s t) := by
  cases c with
  | powerOnReset => exact ⟨_, rfl, nofun⟩
  | pinReset => exact ⟨_, rfl, nofun⟩
  | imageLoadComplete dt m =>
    exact ⟨_, congrArg Host.Outcome.next (imageLoaded_of_running (s := s.elapse dt) hs m), fun _ => .of_outputs rfl⟩
  | silenceTimerExpiry a => exact ⟨_, rfl, fun _ => silenceExpiry_redriven a s⟩
  | manrelMade e b => exact ⟨_, rfl, fun _ => inputEvent_redriven manrelChange_supervises b e s⟩
  | releaseCallFrame dt bits => exact ⟨_, rfl, fun _ => receiveFrame_redriven callOwner_supervises s dt⟩
  | resetDetection dt rest => exact ⟨_, rfl, fun _ => panelCommand_redriven resetDetection_supervises s⟩
  | suppressionIsolate dt rest => exact ⟨_, rfl, fun _ => panelCommand_redriven suppressionIsolate_supervises s⟩
  | initExpiry => exact ⟨_, rfl, fun _ => initExpiry_redriven s⟩
  | referenceCycle dt => exact ⟨_, rfl, fun _ => elapse_redriven (referenceCycle_redriven _)⟩
  | referenceGap dt => exact ⟨_, rfl, fun _ => elapse_redriven (referenceGap_redriven _)⟩
  | clockLimitExpiry => exact ⟨_, rfl, fun _ => clockLimitExpiry_redriven s⟩
  | clockFallback dt => exact ⟨_, rfl, fun _ => elapse_redriven (clockFallback_redriven _)⟩
  | joinTimerExpiry => exact ⟨_, rfl, fun _ => joinTimerExpiry_redriven s⟩
  | detectorRisingEdge dt l => exact ⟨_, rfl, fun _ => elapse_redriven (risingEdge_redriven l _)⟩
  | detectorFallingEdge dt l => exact ⟨_, rfl, fun _ => elapse_redriven (fallingEdge_redriven l _)⟩
  | longPulse l => exact ⟨_, rfl, fun _ => longPulse_redriven l s⟩
  | stuckTimerExpiry l => exact ⟨_, rfl, fun _ => stuckTimerExpiry_redriven l s⟩
  | openTimerExpiry l => exact ⟨_, rfl, fun _ => openTimerExpiry_redriven l s⟩
  | readDetector dt rest => exact ⟨_, rfl, fun _ => panelCommand_redriven (report_supervises fun _ _ => rfl) s⟩
  | statusFrame dt bits => exact ⟨_, rfl, fun _ => receiveFrame_redriven statusOwner_supervises s dt⟩
  | queryFrame dt bits => exact ⟨_, rfl, fun _ => receiveFrame_redriven queryOwner_supervises s dt⟩
  | readPeer dt rest => exact ⟨_, rfl, fun _ => panelCommand_redriven (report_supervises fun _ _ => rfl) s⟩
  | detectFrame dt bits =>
    exact ⟨_, rfl, fun _ => receiveFrame_redriven (fun a f u => (detectOwner_only a f u).supervises) s dt⟩
  | windowTimerExpiry a l => exact ⟨_, rfl, fun _ => windowExpiry_redriven a l s⟩
  | abortInputChange e b => exact ⟨_, rfl, fun _ => inputEvent_redriven abortChange_supervises b e s⟩
  | abortStuckExpiry => exact ⟨_, rfl, fun _ => abortStuckExpiry_redriven s⟩
  | countdownExpiry => exact ⟨_, rfl, fun _ => countdownExpiry_redriven s⟩
  | valveDelayExpiry => exact ⟨_, rfl, fun _ => valveDelayExpiry_redriven s⟩
  | valvePulseExpiry => exact ⟨_, rfl, fun _ => valvePulseExpiry_redriven s⟩
  | flowMade e b => exact ⟨_, rfl, fun _ => inputEvent_redriven flowChange_supervises b e s⟩
  | flowWaitExpiry => exact ⟨_, rfl, fun _ => flowWaitExpiry_redriven s⟩
  | soakTimerExpiry => exact ⟨_, rfl, fun _ => soakExpiry_redriven s⟩
  | vsupChange dt b => exact ⟨_, rfl, fun _ => settled_redriven (u := (s.elapse dt).setPins _) rfl⟩
  | noticeTimerExpiry => exact ⟨_, rfl, fun _ => noticeExpiry_redriven s⟩
  | suppressionReset dt rest => exact ⟨_, rfl, fun _ => panelCommand_redriven suppressionReset_supervises s⟩
  | releaseNoticeFrame dt bits =>
    exact ⟨_, rfl, fun _ => receiveFrame_redriven (fun a f u => (noticeOwner_only a f u).supervises) s dt⟩
  | cadencePhaseExpiry => exact ⟨_, rfl, fun _ => cadenceExpiry_redriven s⟩
  | doorContactOpens e d => exact ⟨_, rfl, fun _ => inputEvent_redriven (contactChange_supervises d) true e s⟩
  | doorContactCloses e d => exact ⟨_, rfl, fun _ => inputEvent_redriven (contactChange_supervises d) false e s⟩
  | requestToExitPress e d b => exact ⟨_, rfl, fun _ => inputEvent_redriven (exitChange_supervises d) b e s⟩
  | releaseWindowExpiry d => exact ⟨_, rfl, fun _ => releaseExpiry_redriven d s⟩
  | heldTimerExpiry d => exact ⟨_, rfl, fun _ => heldExpiry_redriven d s⟩
  | pendingWaitExpiry d => exact ⟨_, rfl, fun _ => waitExpiry_redriven d s⟩
  | presentCredential dt rest => exact ⟨_, rfl, fun _ => panelCommand_redriven presentCredential_supervises s⟩
  | pairWindowExpiry d => exact ⟨_, rfl, fun _ => pairExpiry_redriven d s⟩
  | confirmRemote dt rest => exact ⟨_, rfl, fun _ => panelCommand_redriven confirmRemote_supervises s⟩
  | confirmFrame dt bits => exact ⟨_, rfl, fun _ => receiveFrame_redriven confirmOwner_supervises s dt⟩
  | zoneSweep dt rest => exact ⟨_, rfl, fun _ => panelCommand_redriven zoneSweep_supervises s⟩
  | readRoster dt rest => exact ⟨_, rfl, fun _ => panelCommand_redriven (report_supervises fun _ _ => rfl) s⟩
  | setPosture dt rest => exact ⟨_, rfl, fun _ => panelCommand_redriven setPosture_supervises s⟩
  | postureFrame dt bits => exact ⟨_, rfl, fun _ => receiveFrame_redriven postureOwner_supervises s dt⟩
  | forceOutput dt rest => exact ⟨_, rfl, fun _ => panelCommand_redriven forceOutput_supervises s⟩
  | releaseOutput dt rest => exact ⟨_, rfl, fun _ => panelCommand_redriven releaseOutput_supervises s⟩
  | readOutputs dt rest => exact ⟨_, rfl, fun _ => panelCommand_redriven (report_supervises fun _ _ => rfl) s⟩
  | senseInputChange dt l b => exact ⟨_, rfl, fun _ => elapse_redriven (senseChange_redriven l b _)⟩
  | mismatchTimerExpiry l => exact ⟨_, rfl, fun _ => mismatchExpiry_redriven l s⟩
  | duressInputChange e d b => exact ⟨_, rfl, fun _ => inputEvent_redriven (duressChange_supervises d) b e s⟩
  | tamperInputChange e b => exact ⟨_, rfl, fun _ => inputEvent_redriven tamperChange_supervises b e s⟩
  | nextAlarm dt rest => exact ⟨_, rfl, fun _ => panelCommand_redriven nextAlarm_supervises s⟩
  | restoreAlarm dt rest => exact ⟨_, rfl, fun _ => panelCommand_redriven restoreAlarm_supervises s⟩
  | maskAlarm dt rest => exact ⟨_, rfl, fun _ => panelCommand_redriven maskAlarm_supervises s⟩
  | readSources dt rest => exact ⟨_, rfl, fun _ => panelCommand_redriven (report_supervises fun _ _ => rfl) s⟩
  | duressFrame dt bits => exact ⟨_, rfl, fun _ => receiveFrame_redriven duressOwner_supervises s dt⟩
  | readRemoteList dt rest =>
    exact ⟨_, rfl, fun _ => panelCommand_redriven (act := readRemoteList) (fun _ _ => .of_wires rfl) s⟩
  | beginTransmission dt levels =>
    exact ⟨_, rfl, fun _ =>
      (Supervises.trans (.of_wires (hear_wires (s.elapse dt) levels)) (beginFrame_supervises _)).after rfl⟩
  | arbitrationLoss dt => exact ⟨_, rfl, fun _ => (loseArbitration_supervises (s.elapse dt)).moves⟩
  | ownBitError back => exact ⟨_, rfl, fun _ => elapse_redriven (bitError_supervises back.bits _).moves⟩
  | quietSpellExpiry => exact ⟨_, rfl, fun _ => quietExpiry_redriven s⟩
  | transmissionComplete dt => exact ⟨_, rfl, fun _ => elapse_redriven (completeFrame_supervises _).moves⟩
  | busStuck dt => exact ⟨_, rfl, fun _ => elapse_redriven (setStuck_supervises true _).moves⟩
  | busStuckEnd dt => exact ⟨_, rfl, fun _ => elapse_redriven (setStuck_supervises false _).moves⟩
  | receiveDiscard dt bits =>
    exact ⟨_, rfl, fun _ => elapse_redriven (Supervises.of_wires (hear_wires _ bits)).moves⟩
  | firstStatusDelayExpiry => exact ⟨_, rfl, fun _ => firstStatusExpiry_redriven s⟩
  | statusTimerExpiry => exact ⟨_, rfl, fun _ => statusExpiry_redriven s⟩
  | replyRead dt n b => exact ⟨_, rfl, fun _ => elapse_redriven (readReply_redriven n b _)⟩
  | unknownCommand dt k rest => exact ⟨_, rfl, fun _ => elapse_redriven (unknownCode_redriven k rest _)⟩
  | getStatus dt rest =>
    exact ⟨_, rfl, fun _ => panelCommand_redriven (act := getStatus) (fun _ _ => .of_wires rfl) s⟩
  | latchTimes dt rest => exact ⟨_, rfl, fun _ => panelCommand_redriven latchTimes_supervises s⟩
  | readTimes dt rest => exact ⟨_, rfl, fun _ => panelCommand_redriven readTimes_supervises s⟩

end Sys2Proof.Machine
end
section
/-! SUPPORT. The general output lines: force, release, sense input, mismatch timer (R144 to R147). -/

namespace Sys2Proof.Machine

/-! ## What follows from an event, about one line -/

section
variable {u t : State} {l : Fin 12} {high : Bool}

/-- R145: a forced line is driven at its forced level. -/
theorem After.driven_of_forced (k : After u t) (hr : u.running = true) (hf : (u.output l).forced = some high) :
    (t.output l).driven = high := by
  rw [k.lines hr l, State.driveLevel, k.handed.forced l, hf]
  rfl

/-- A forced line that stands at its forced level stays as it is. -/
theorem After.output_of_forced (k : After u t) (hf : (u.output l).forced = some high)
    (hd : (u.output l).driven = high) : t.output l = u.output l := by
  refine k.forced l ?_ (.inl (by rw [hf]; rfl))
  rw [State.driveLevel, hf]
  exact hd

/-- R145, R146: a line that is not forced follows its source's present value. -/
theorem After.unforced (k : After u t) (hr : u.running = true) (hf : (u.output l).forced = none) : Unforced t l :=
  unforced_of_driven t l ((k.handed.forced l).trans hf) (k.lines hr l)

/-- R147: a line whose driven level an event changes is compared. -/
theorem After.compared_of_driven (k : After u t) (hd : (t.output l).driven ≠ (u.output l).driven) : Compared t l :=
  (k.compared l).elim (fun same => absurd (congrArg OutLine.driven same) hd) And.left

end

/-- R147: OUTPUT_FAULT follows the marks of the lines. -/
theorem settle_outputFault {u : State} (hr : u.running = true) (l : Fin 12) (hm : ((settle u).output l).mark = true) :
    ((settle u).source .outputFault).condition = true := by
  obtain ⟨-, -, -, -, -, -, -, -, -, -, -, -, outputFault, -⟩ := Settled.conditions (settle_settled u hr)
  exact outputFault.mpr ⟨l, hm⟩

/-! ## The commands and events of a line -/

theorem outputOperand_line (s : State) (l : Fin 12) : outputOperand s [byteOf l.val] = some l := by
  fin_cases l <;> rfl

theorem forceOperands_line (s : State) (l : Fin 12) (high : Bool) :
    forceOperands s [byteOf l.val, byteOf high.toNat] = some (l, high) := by
  have line : index? 12 (byteOf l.val).toNat = some l := outputOperand_line s l
  have level : onOff? (byteOf high.toNat).toNat = some high := by cases high <;> rfl
  simp only [forceOperands, line, level]

section
variable {s : State} {dt : Nat} {l : Fin 12} {high : Bool}

theorem forceOutput_protected (h : s.img.outputs[l].source = .stage) : forceOutput (l, high) s = (.plain .isProtected, s) :=
  if_pos h

theorem forceOutput_accepted (h : s.img.outputs[l].source ≠ .stage) :
    forceOutput (l, high) s = (.done [], settle (s.setOutput l { s.output l with forced := some high })) :=
  if_neg h

/-- The station with a sense input at a new level. -/
def State.sensed (s : State) (l : Fin 12) (high : Bool) : State :=
  s.setPins { s.pins with sense := s.pins.sense.set l high }

theorem senseChange_moves (h : s.pins.sense[l] = !high) : senseChange l high s =
    if s.running then settle ((s.sensed l high).setOutput l (compareOutput s.now (s.output l) high))
    else s.sensed l high :=
  if_neg (by rw [h]; cases high <;> nofun)

/-- R147: an input that agrees with the driven level stops the timer and clears the mark. -/
theorem senseChange_agrees (h : s.pins.sense[l] = !high) (hr : s.running = true) (hd : (s.output l).driven = high) :
    After ((s.sensed l high).setOutput l { s.output l with mismatch := none, mark := false }) (senseChange l high s) := by
  rw [senseChange_moves h, if_pos hr, compareOutput, if_pos hd]
  exact settle_after _

/-- R147: an input that disagrees starts the timer. -/
theorem senseChange_disagrees (h : s.pins.sense[l] = !high) (hr : s.running = true) (hd : (s.output l).driven ≠ high) :
    After ((s.sensed l high).setOutput l { s.output l with mismatch := some (s.now + 500000) })
      (senseChange l high s) := by
  rw [senseChange_moves h, if_pos hr, compareOutput, if_neg hd]
  exact settle_after _

theorem mismatchExpiry_due {d : Nat} (h : (s.output l).mismatch = some d) : mismatchExpiry l s =
    settle ((s.reach d).setOutput l { s.output l with mismatch := none, mark := true }) := by
  rw [mismatchExpiry, h]

end

/-- Settles O43: what follows from an event drives every line and compares it (`settle_after`), and every command's walk
shows that it does (`exec_redriven`). -/
theorem outputLines : Obligations.OutputLines := by
  refine ⟨?_, ?_, ?_, ?_, ?_⟩
  · intro s dt before l high h rest
    refine ⟨fun stage => ?_, fun free => ?_⟩
    · exact congrArg Host.Outcome.next (panelCommand_same (code := 18) (len := 2) (act := forceOutput) h rfl
        (by decide) (forceOperands_line _ l high) (forceOutput_protected stage))
    · have k := panelCommand_after (code := 18) (len := 2) (act := forceOutput) (dt := dt) (before := before) h rfl
        (by decide) (forceOperands_line _ l high) (forceOutput_accepted free) rfl
      have own := State.setOutput_output (s.elapse dt) l l { s.output l with forced := some high }
      rw [if_pos rfl] at own
      have forced : (((s.elapse dt).setOutput l { s.output l with forced := some high }).output l).forced = some high :=
        by rw [own]
      have driven : (((s.elapse dt).setOutput l { s.output l with forced := some high }).output l).driven =
        (s.output l).driven := by rw [own]
      have level := k.driven_of_forced h.1 forced
      exact ⟨_, rfl, level, fun same => (k.output_of_forced forced (driven.trans same)).trans own,
        fun moved => k.compared_of_driven (fun e => moved (driven.symm.trans (e.symm.trans level))), k⟩
  · intro c s t l h hs ht moved
    obtain ⟨u, hu, redriven⟩ := exec_redriven c s hs
    obtain rfl := Host.Outcome.next.inj (hu.symm.trans h)
    exact redriven ht l moved
  · intro s dt before l h rest
    have k := panelCommand_after (code := 19) (len := 1) (act := releaseOutput) (dt := dt) (before := before) h rfl
      (by decide) (outputOperand_line _ l) rfl rfl
    have own := State.setOutput_output (s.elapse dt) l l { s.output l with forced := none }
    rw [if_pos rfl] at own
    exact ⟨_, rfl, k, k.unforced h.1 (congrArg OutLine.forced own)⟩
  · intro s dt l high h u
    refine ⟨_, rfl, fun hr => ?_, fun hr hd => senseChange_agrees h hr hd, fun hr hd => senseChange_disagrees h hr hd⟩
    exact (senseChange_moves (s := s.elapse dt) h).trans (if_neg (by rw [show (s.elapse dt).running = false from hr]; nofun))
  · intro s l d h
    refine ⟨_, rfl, mismatchExpiry_due h ▸ settle_after _, fun hr marked => ?_⟩
    rw [mismatchExpiry_due h] at marked ⊢
    exact settle_outputFault hr l marked

end Sys2Proof.Machine
end
section
/-! SUPPORT. The duress buttons and the tamper loop (R153, R156, R164). -/

namespace Sys2Proof.Machine

/-! ## A source of the Annunciator and the effective posture -/

/-- Of the sources, only PAIR_BROKEN and OCCUPIED_AT_CLOSE are raised by a change of the effective posture. -/
theorem setSource_preposed {x : Source} (hb : x ≠ .pairBroken) (hc : x ≠ .occupiedAtClose) (s : State)
    (y : SourceState) : Preposed s (s.setSource x y) where
  effective := rfl
  entry := rfl
  roster := rfl
  doors := rfl
  lockout := rfl
  pairBroken := by rw [State.setSource_source, if_neg hb.symm]
  occupiedAtClose := by rw [State.setSource_source, if_neg hc.symm]

theorem raise_preposed {x : Source} (hb : x ≠ .pairBroken) (hc : x ≠ .occupiedAtClose) (s : State) :
    Preposed s (raise x s) := by
  unfold raise
  split
  · exact ⟨rfl, rfl, rfl, rfl, rfl, rfl, rfl⟩
  · exact setSource_preposed hb hc s _

theorem trigger_preposed {x : Source} (hb : x ≠ .pairBroken) (hc : x ≠ .occupiedAtClose) (s : State) :
    Preposed s (trigger x s) := by
  unfold trigger
  split
  · exact (raise_preposed hb hc s).trans (enqueue_preposed _ _)
  · exact raise_preposed hb hc s

/-- R140, R141: a flagged source of the station's own that is pending holds the overlay. -/
theorem State.PostureFollows.lockdown {t : State} (h : t.PostureFollows) {x : Source} (own : x ≠ .peerDuress)
    (flag : t.lockdownFlag x = true) (pending : (t.source x).pending = true) : t.posture.effective = .lockdown :=
  h.1 (.inl ⟨x, mem_sources x, own, flag, .inl pending⟩)

/-! ## A duress button is made -/

theorem duressSource_kind (i : DuressInput) : (duressSource i).kind ≠ .level := by cases i <;> decide

theorem duressSource_own (i : DuressInput) : duressSource i ≠ .peerDuress := by cases i <;> decide

theorem duressSource_preposed (i : DuressInput) (s : State) : Preposed s (trigger (duressSource i) s) :=
  trigger_preposed (by cases i <;> decide) (by cases i <;> decide) s

section
variable (s : State) (i : DuressInput)

/-- R164: a duress source that becomes pending makes its frame. -/
theorem trigger_duress (idle : (s.source (duressSource i)).pending = false) : trigger (duressSource i) s =
    enqueue (duressFrameOf s (duressSource i) true) (raise (duressSource i) s) :=
  if_pos ⟨by cases i <;> decide, idle⟩

/-- R164, R172: the frame waits in a queue that had room. -/
theorem settle_duress_waits (idle : (s.source (duressSource i)).pending = false) (room : s.bus.queue.length ≤ 3) :
    { frame := duressFrameOf s (duressSource i) true, order := s.bus.nextOrder : QueueEntry } ∈
      (settle (trigger (duressSource i) s)).bus.queue := by
  have waits := settle_enqueue_waits (s := raise (duressSource i) s) (duressFrameOf s (duressSource i) true)
    (by decide : 2 ≠ 0) (by decide : 2 ≠ 6)
  rw [raise_bus] at waits
  rw [trigger_duress s i idle]
  exact waits room

/-- R153, R164: what a trigger of a duress source hands on, once it is settled. -/
theorem settle_duress_handed : Handed s (settle (trigger (duressSource i) s)) :=
  (trigger_only _ s (duressSource_kind i)).toHanded.trans (settle_handed _)

theorem settle_duress_pending :
    ((settle (trigger (duressSource i) s)).source (duressSource i)).pending = true :=
  (settle_handed _).raisedStay _ (duressSource_kind i) (trigger_pending _ s (duressSource_kind i))

theorem settle_duress_posture : PostureHanded s (settle (trigger (duressSource i) s)) :=
  (settle_posture _).of_preposed (duressSource_preposed i s)

/-- R75, R93: lockout in step, no door moves. -/
theorem settle_duress_doors (hl : s.lockoutStage = s.doors.a.lockout) :
    (settle (trigger (duressSource i) s)).doors = s.doors :=
  have same : (trigger (duressSource i) s).doors = s.doors := trigger_doors s _
  (settle_doors_of_basis (trigger_basis s _) (by rw [same]) hl).trans same

theorem settle_duress_apart (n : s.NoStart) : (settle (trigger (duressSource i) s)).seq.apart = s.seq.apart := by
  have only := trigger_only (duressSource i) s (duressSource_kind i)
  rw [(settle_after _).seq (n.of_handed only.toHanded (by rw [only.seq_eq]) (by rw [only.seq_eq])), only.seq_eq]

end

/-! ## The commands -/

section
variable {s : State} {f : Nat}

theorem exec_duressInputChange {i : DuressInput} {made : Bool} (hf : s.pins.filter (duressPin i) = some f)
    (hl : s.pins.level (duressPin i) = !made) : exec (.duressInputChange .held i made) s =
      .next (duressChange i made (s.changed f (duressPin i) made)) :=
  congrArg Host.Outcome.next (inputEvent_held (duressPin i) made (duressChange i) s f hf hl)

theorem exec_tamperInputChange {isOpen : Bool} (hf : s.pins.filter .tamper = some f)
    (hl : s.pins.tamperOpen = !isOpen) :
    exec (.tamperInputChange .held isOpen) s = .next (tamperChange isOpen (s.changed f .tamper isOpen)) :=
  congrArg Host.Outcome.next (inputEvent_held .tamper isOpen tamperChange s f hf hl)

theorem duressChange_made {i : DuressInput} (hr : s.running = true) :
    duressChange i true s = settle (trigger (duressSource i) s) :=
  if_pos ⟨rfl, hr⟩

theorem duressChange_broken (i : DuressInput) (s : State) : duressChange i false s = s :=
  if_neg fun made => nomatch made.1

theorem tamperChange_opens (hr : s.running = true) : tamperChange true s = settle (trigger .tamper s) :=
  if_pos ⟨rfl, hr⟩

theorem tamperChange_closes (s : State) : tamperChange false s = s := if_neg fun opens => nomatch opens.1

/-- R153: TAMPER takes a trigger. -/
theorem trigger_tamper (s : State) : trigger .tamper s =
    if (s.source .tamper).pending = true then s
    else s.setSource .tamper { s.source .tamper with pending := true, raised := s.presentTime } :=
  if_neg fun duress => duress.1.elim nofun nofun

end

/-- Settles O44: a duress button made is a trigger of its source, settled; TAMPER is raised and settled; a button broken
and a loop closed are levels that no source reads. -/
theorem duressAndTamper : Obligations.DuressAndTamper := by
  refine ⟨?_, ?_, ?_, ?_⟩
  · intro s f i hf hl hr
    have pending := settle_duress_pending (s.changed f (duressPin i) true) i
    have handed := settle_duress_handed (s.changed f (duressPin i) true) i
    have follows := settle_postureFollows
      ((trigger_only _ (s.changed f (duressPin i) true) (duressSource_kind i)).toHanded.running.trans hr)
    have untouched : Preposed s (s.changed f (duressPin i) true) := ⟨rfl, rfl, rfl, rfl, rfl, rfl, rfl⟩
    exact ⟨_, (exec_duressInputChange (made := true) hf hl).trans (congrArg _ (duressChange_made hr)), pending,
      settle_duress_waits (s.changed f (duressPin i) true) i,
      fun flag => follows.lockdown (duressSource_own i) ((handed.lockdownFlag _).trans flag) pending,
      (settle_duress_posture _ i).of_preposed untouched, follows,
      settle_duress_doors (s.changed f (duressPin i) true) i,
      settle_duress_apart (s.changed f (duressPin i) true) i, handed⟩
  · intro s f hf hl hr u
    refine ⟨settle (trigger .tamper u),
      (exec_tamperInputChange (isOpen := true) hf hl).trans (congrArg _ (tamperChange_opens hr)),
      (settle_handed _).raisedStay _ (by decide) (trigger_pending _ _ (by decide)), fun pending => ?_, fun idle => ?_⟩
    · have same : trigger .tamper u = u := (trigger_tamper u).trans (if_pos pending)
      rw [same]
      exact settle_after u
    · have raised := (trigger_tamper u).trans (if_neg fun pending => Bool.false_ne_true (idle.symm.trans pending))
      rw [raised]
      exact settle_after _
  · intro s f i hf hl
    exact (exec_duressInputChange (made := false) hf hl).trans (congrArg _ (duressChange_broken i _))
  · intro s f hf hl
    exact (exec_tamperInputChange (isOpen := false) hf hl).trans (congrArg _ (tamperChange_closes _))

end Sys2Proof.Machine
end
section
/-! SUPPORT. NEXT_ALARM (R157, R158): the candidate it takes, and the acknowledgement. -/

namespace Sys2Proof.Machine

/-! ## The candidate -/

theorem allClasses_split : ∀ c : Fin 6, allClasses = allClasses.take c.val ++ c :: allClasses.drop (c.val + 1) := by
  decide

theorem lt_of_mem_take_allClasses : ∀ c d : Fin 6, d ∈ allClasses.take c.val → d < c := by decide

section
variable {s : State} {x : Source}

/-- R157: the first candidate of a class, where no more urgent class has one. -/
theorem nextCandidate_eq_some (first : s.ann.rotation[x.cls].find? s.isCandidate = some x)
    (quiet : ∀ c : Fin 6, c < x.cls → ∀ y ∈ s.ann.rotation[c], s.isCandidate y = false) :
    nextCandidate s = some x := by
  refine List.findSome?_eq_some_iff.mpr ⟨_, _, _, allClasses_split x.cls, first, fun c hc => ?_⟩
  exact List.find?_eq_none.mpr fun y hy =>
    Bool.eq_false_iff.mp (quiet c (lt_of_mem_take_allClasses x.cls c hc) y hy)

theorem nextCandidate_eq_none (none : ∀ y, s.isCandidate y = false) : nextCandidate s = .none :=
  List.findSome?_eq_none_iff.mpr fun _ _ => List.find?_eq_none.mpr fun y _ => Bool.eq_false_iff.mp (none y)

/-! ## The acknowledgement -/

/-- R158: the rotation order once a source has been acknowledged. -/
def State.rotated (s : State) (x : Source) : Vector (List Source) 6 :=
  if x.cls = 0 ∨ x.cls = 2 then
    s.ann.rotation.set x.cls (s.ann.rotation[x.cls].filter (fun y => y != x) ++ [x]) else s.ann.rotation

/-- R158: a source once it has been acknowledged: auto-restored in class 5 and, by the image, in class 4. -/
def State.acked (s : State) (x : Source) : SourceState :=
  if x.cls = 5 ∨ (x.cls = 4 ∧ s.img.autoRestore4 = true) then
    { s.source x with
      pending := false
      settled := (s.source x).settled || (x.kind == .level && (s.source x).condition) }
  else { s.source x with pending := false, inService := true }

theorem rotate_eq (x : Source) (s : State) : rotate x s = s.setAnn { s.ann with rotation := s.rotated x } := by
  unfold rotate State.rotated
  split <;> rfl

theorem acknowledge_acked (s : State) (x : Source) : (s.source x).acknowledge x (autoRestored s x) = s.acked x := by
  have auto : autoRestored s x = true ↔ x.cls = 5 ∨ (x.cls = 4 ∧ s.img.autoRestore4 = true) := by
    simp [autoRestored]
  unfold SourceState.acknowledge State.acked
  simp only [auto]

/-- R158: any source but PEER_DURESS. -/
theorem acknowledge_own (own : x ≠ .peerDuress) : acknowledge x s = s.setAnn { s.ann with
    sources := s.ann.sources.set x.num (s.acked x), rotation := s.rotated x } := by
  rw [acknowledge, if_neg own, rotate_eq, acknowledge_acked]
  rfl

/-- R158: PEER_DURESS. -/
theorem acknowledge_peerDuress (s : State) : acknowledge .peerDuress s = s.setAnn { s.ann with
    remote := ackDuress s.ann.remote, rotation := s.rotated .peerDuress } := by
  rw [acknowledge, if_pos rfl, rotate_eq]
  rfl

/-- A DURESS entry that is not acknowledged. -/
theorem RemoteEntry.asks_iff (e : RemoteEntry) :
    (e.isDuress && !e.acked) = true ↔ e.kind = .duress ∧ e.acked = false := by
  simp [RemoteEntry.isDuress]

theorem RemoteEntry.not_asks {e : RemoteEntry} (h : e.kind ≠ .duress ∨ e.acked = true) :
    (e.isDuress && !e.acked) = false :=
  Bool.eq_false_iff.mpr fun asks => by
    obtain ⟨kind, fresh⟩ := e.asks_iff.mp asks
    exact h.elim (· kind) fun acked => Bool.false_ne_true (fresh.symm.trans acked)

section
variable {before after : List RemoteEntry} {e : RemoteEntry}

/-- R158: the oldest unacknowledged DURESS entry is acknowledged, and no other. -/
theorem ackDuress_append (hk : e.kind = .duress) (ha : e.acked = false)
    (older : ∀ z ∈ before, z.kind ≠ .duress ∨ z.acked = true) :
    ackDuress (before ++ e :: after) = before ++ { e with acked := true } :: after := by
  induction before with
  | nil => exact if_pos (e.asks_iff.mpr ⟨hk, ha⟩)
  | cons z zs ih =>
    obtain ⟨oldest, rest⟩ := List.forall_mem_cons.mp older
    have stays : ackDuress (z :: (zs ++ e :: after)) = z :: ackDuress (zs ++ e :: after) :=
      if_neg (Bool.eq_false_iff.mp (RemoteEntry.not_asks oldest))
    rw [List.cons_append, stays, ih rest, List.cons_append]

/-- R157: its station is the reply's. -/
theorem oldestDuress_append (hr : s.ann.remote = before ++ e :: after) (hk : e.kind = .duress) (ha : e.acked = false)
    (older : ∀ z ∈ before, z.kind ≠ .duress ∨ z.acked = true) : s.oldestDuress = some e := by
  refine List.find?_eq_some_iff_append.mpr ⟨e.asks_iff.mpr ⟨hk, ha⟩, before, after, hr, fun z hz => ?_⟩
  rw [RemoteEntry.not_asks (older z hz)]
  rfl

end

/-- R157: the station of a NEXT_ALARM reply. -/
theorem alarmStation_own (own : x ≠ .peerDuress) : alarmStation s x = 0 := if_neg own

theorem alarmStation_peerDuress {e : RemoteEntry} (h : s.oldestDuress = some e) :
    alarmStation s .peerDuress = e.station := by
  rw [alarmStation, if_pos rfl, h]
  rfl

/-! ## The command -/

/-- R157: what NEXT_ALARM reports of a candidate. -/
def State.alarmData (s : State) (x : Source) : List Byte :=
  [byteOf x.num.val, byteOf x.cls.val] ++ num4 (s.raisedTime x) ++ [byteOf (alarmStation s x)]

theorem nextAlarm_some (h : nextCandidate s = some x) :
    nextAlarm () s = (.done (s.alarmData x), settle (acknowledge x s)) := by
  unfold nextAlarm
  rw [h]
  rfl

theorem nextAlarm_none (h : nextCandidate s = none) :
    nextAlarm () s = (.done (255 :: freeBytes s.free 6), { s with free := s.free + 6 }) := by
  unfold nextAlarm
  rw [h]
  rfl

/-- R157, R158: a candidate is reported, acknowledged, and the event is settled; `acked` is what the acknowledgement
makes of the Annunciator. -/
theorem exec_nextAlarm {dt before : Nat} {acked : Annunciator} (h : s.AtPanel) (hx : nextCandidate s = some x)
    (ha : acknowledge x (s.taken dt 2 ⟨[0], before⟩) = (s.taken dt 2 ⟨[0], before⟩).setAnn acked) :
    ∃ t, exec (.nextAlarm dt ⟨[0], before⟩) s = .next t ∧
      After (((s.elapse dt).setAnn acked).setPort (s.answered [0] 2 0 0 (s.alarmData x))) t := by
  have acts : nextAlarm () (s.taken dt 2 ⟨[0], before⟩) = (.done (s.alarmData x), settle _) := nextAlarm_some hx
  rw [ha] at acts
  exact ⟨_, rfl, panelCommand_after (code := 2) (len := 0) (parse := noOperands) (act := nextAlarm) (bytes := [])
    (x := ()) h rfl (by decide) rfl acts rfl⟩

/-- R157: with no candidate nothing but the port and the count of free values changes. -/
theorem exec_nextAlarm_none {dt before : Nat} (h : s.AtPanel) (hn : nextCandidate s = none) :
    exec (.nextAlarm dt ⟨[0], before⟩) s = .next { (s.elapse dt).setPort
      (s.answered [0] 2 0 0 (255 :: freeBytes s.free 6)) with free := s.free + 6 } := by
  have acts : nextAlarm () (s.taken dt 2 ⟨[byteOf 0], before⟩) = (.done (255 :: freeBytes s.free 6), _) :=
    nextAlarm_none hn
  refine congrArg Host.Outcome.next ((panelCommand_idle (code := 2) (len := 0) (parse := noOperands) (act := nextAlarm)
    (bytes := []) (x := ()) h rfl (by decide) rfl (congrArg (·.2.port) acts)).trans ?_)
  rw [acts]
  rfl

end

/-- Settles O45: the command acknowledges `nextCandidate` (R158), and the event is settled; with no candidate it answers
with free bytes. -/
theorem nextAlarmAcknowledges : Obligations.NextAlarmAcknowledges := by
  refine ⟨?_, ?_⟩
  · intro s dt before x h first quiet
    have chosen := nextCandidate_eq_some first quiet
    by_cases peer : x = .peerDuress
    · subst peer
      obtain ⟨t, ht, k⟩ := exec_nextAlarm h chosen (acknowledge_peerDuress (s.taken dt 2 ⟨[0], before⟩))
      refine ⟨t, ht, fun own => absurd rfl own, fun older e newer _ list hk ha acked => ?_⟩
      have told : ackDuress s.ann.remote = older ++ { e with acked := true } :: newer := by
        rw [list, ackDuress_append hk ha acked]
      have oldest := alarmStation_peerDuress (oldestDuress_append list hk ha acked)
      rw [State.alarmData, oldest] at k
      rw [← told]
      exact k
    · obtain ⟨t, ht, k⟩ := exec_nextAlarm h chosen (acknowledge_own (s := s.taken dt 2 ⟨[0], before⟩) peer)
      rw [State.alarmData, alarmStation_own peer] at k
      exact ⟨t, ht, fun _ => k, fun _ _ _ own => absurd own peer⟩
  · intro s dt before h none
    exact ⟨_, by simp [freeBytes], exec_nextAlarm_none h (nextCandidate_eq_none none)⟩

end Sys2Proof.Machine
end
section
/-! SUPPORT. RESTORE_ALARM and MASK_ALARM (R159, R160, R164). -/

namespace Sys2Proof.Machine

theorem sourceOperand_num (s : State) (x : Source) : sourceOperand s [byteOf x.num.val] = some x := by cases x <;> rfl

theorem maskOperands_num (s : State) (x : Source) (on : Bool) :
    maskOperands s [byteOf x.num.val, byteOf on.toNat] = some (x, on) := by
  have source : Source.ofNat? (byteOf x.num.val).toNat = some x := sourceOperand_num s x
  have level : onOff? (byteOf on.toNat).toNat = some on := by cases on <;> rfl
  simp only [maskOperands, source, level]

/-! ## RESTORE_ALARM -/

section
variable {s : State} {x : Source}

/-- R159, case 4: the button of a duress source is made. -/
theorem buttonHeld_iff : buttonHeld s x = true ↔
    (x = .duress1 ∧ s.pins.dur1 = true) ∨ (x = .duress2 ∧ s.pins.dur2 = true) := by
  simp [buttonHeld]

/-- R159: a source that is not in-service. -/
theorem restoreAlarm_wrongState (h : s.isInService x = false) : restoreAlarm x s = (.plain .wrongState, s) := by
  unfold restoreAlarm
  rw [if_neg fun k => Bool.false_ne_true (h.symm.trans k.2), if_pos h]

/-- R159: a source in service whose cause stands. -/
theorem restoreAlarm_stillActive (h : s.isInService x = true)
    (cause : x = .peerDuress ∨ (x.kind = .level ∧ (s.source x).condition = true) ∨ buttonHeld s x = true) :
    restoreAlarm x s = (.plain .stillActive, s) := by
  unfold restoreAlarm
  split
  · rfl
  · next own =>
    rw [if_neg (by rw [h]; decide)]
    rcases cause with peer | condition | button
    · exact absurd ⟨peer, h⟩ own
    · rw [if_pos condition]
    · rw [if_pos button, ite_self]

/-- R159: a source in service whose cause is gone. -/
theorem restoreAlarm_done (h : s.isInService x = true) (own : x ≠ .peerDuress)
    (condition : ¬(x.kind = .level ∧ (s.source x).condition = true)) (button : ¬buttonHeld s x = true) :
    restoreAlarm x s = (.done [], settle (restoreSource x s)) := by
  unfold restoreAlarm
  rw [if_neg fun k => own k.1, if_neg (by rw [h]; decide), if_neg condition, if_neg button]

/-- R159: the station with a source out of service. -/
def State.restored (s : State) (x : Source) : State := s.setSource x { s.source x with inService := false }

theorem restoreSource_other (h1 : x ≠ .duress1) (h2 : x ≠ .duress2) : restoreSource x s = s.restored x :=
  if_neg (not_or.mpr ⟨h1, h2⟩)

/-- R164: a duress source restored makes its frame. -/
theorem restoreSource_duress (h : x = .duress1 ∨ x = .duress2) :
    restoreSource x s = enqueue (duressFrameOf (s.restored x) x (s.restored x).duressActive) (s.restored x) :=
  if_pos h

theorem restoreSource_port : (restoreSource x s).port = s.port := by
  unfold restoreSource
  dsimp only
  split
  · exact (enqueue_only _ _).port
  · rfl

section
variable (s) (h : x = .duress1 ∨ x = .duress2)
include h

/-- R164: what follows a duress source restored leaves it out of service. -/
theorem settle_restored_handed : Handed (s.restored x) (settle (restoreSource x s)) := by
  rw [restoreSource_duress h]
  exact settle_enqueue_handed _ _

/-- R164, R172: its frame waits in a queue that had room. -/
theorem settle_restored_waits (room : s.bus.queue.length ≤ 3) :
    { frame := duressFrameOf (s.restored x) x (s.restored x).duressActive, order := s.bus.nextOrder : QueueEntry } ∈
      (settle (restoreSource x s)).bus.queue := by
  rw [restoreSource_duress h]
  exact settle_enqueue_waits (s := s.restored x) _ (by decide : 2 ≠ 0) (by decide : 2 ≠ 6) room

/-- R112, R131, R141: what the end of the overlay hands on. -/
theorem settle_restored_posture : PostureHanded s (settle (restoreSource x s)) := by
  have written : Preposed s (s.restored x) :=
    setSource_preposed (by rcases h with rfl | rfl <;> decide) (by rcases h with rfl | rfl <;> decide) s _
  rw [restoreSource_duress h]
  exact (settle_posture _).of_preposed (written.trans (enqueue_preposed _ _))

theorem settle_restored_follows (running : s.running = true) : (settle (restoreSource x s)).PostureFollows := by
  rw [restoreSource_duress h]
  exact settle_postureFollows ((enqueue_only _ _).toHanded.running.trans running)

end

/-! ## The commands -/

variable {dt before : Nat}

/-- R159: a refusal. -/
theorem exec_restoreAlarm_refused {r : Result} (h : s.AtPanel)
    (refused : restoreAlarm x (s.taken dt 3 ⟨[1, byteOf x.num.val], before⟩) =
      (.plain r, s.taken dt 3 ⟨[1, byteOf x.num.val], before⟩)) :
    exec (.restoreAlarm dt ⟨[1, byteOf x.num.val], before⟩) s =
      .next ((s.elapse dt).setPort (s.answered [1, byteOf x.num.val] 3 r.code 0 [])) :=
  congrArg Host.Outcome.next (panelCommand_same (code := 3) (len := 1) (act := restoreAlarm) h rfl (by decide)
    (sourceOperand_num _ x) refused)

/-- R159, R164: an accepted restore, settled. -/
theorem exec_restoreAlarm_done (h : s.AtPanel)
    (done : restoreAlarm x (s.taken dt 3 ⟨[1, byteOf x.num.val], before⟩) =
      (.done [], settle (restoreSource x (s.taken dt 3 ⟨[1, byteOf x.num.val], before⟩)))) :
    exec (.restoreAlarm dt ⟨[1, byteOf x.num.val], before⟩) s =
      .next ((settle (restoreSource x (s.taken dt 3 ⟨[1, byteOf x.num.val], before⟩))).setPort
        (s.answered [1, byteOf x.num.val] 3 0 0 [])) := by
  refine congrArg Host.Outcome.next ((panelCommand_idle (code := 3) (len := 1) (act := restoreAlarm) h rfl (by decide)
    (sourceOperand_num _ x) ?_).trans ?_)
  · rw [show byteOf 1 = 1 from rfl, done]
    exact (settle_handed _).port.trans restoreSource_port
  · rw [show byteOf 1 = 1 from rfl, done]
    rfl

theorem maskAlarm_protected {on : Bool} (h : on = true) (hc : x.cls = 0) :
    maskAlarm (x, on) s = (.plain .isProtected, s) :=
  if_pos ⟨h, hc⟩

theorem maskAlarm_accepted {on : Bool} (h : on = false ∨ x.cls ≠ 0) : maskAlarm (x, on) s =
    (.done [], settle (s.setSource x { s.source x with masked := on })) :=
  if_neg fun k => h.elim (fun off => Bool.false_ne_true (off.symm.trans k.1)) fun other => other k.2

end

/-- Settles O46, by the first case of R159 that applies: a refusal changes nothing, and an accepted restore or mask is
one write of the source, settled. -/
theorem restoringAndMasking : Obligations.RestoringAndMasking := by
  refine ⟨?_, ?_⟩
  · intro s dt before x h rest refused held condition v
    refine ⟨fun out => ?_, fun serving cause => ?_, fun serving own gone released => ?_⟩
    · exact exec_restoreAlarm_refused h (restoreAlarm_wrongState out)
    · exact exec_restoreAlarm_refused h
        (restoreAlarm_stillActive serving (cause.imp_right (Or.imp_right buttonHeld_iff.mpr)))
    · refine ⟨_, exec_restoreAlarm_done h (restoreAlarm_done serving own gone (mt buttonHeld_iff.mp released)),
        fun h1 h2 => ?_, fun duress => ?_⟩
      · rw [restoreSource_other h1 h2]
        exact (settle_after ((s.taken dt 3 ⟨rest, before⟩).restored x)).setPort _
      · have untouched : Preposed s ((s.taken dt 3 ⟨rest, before⟩).setPort (s.answered rest 3 0 0 [])) :=
          ⟨rfl, rfl, rfl, rfl, rfl, rfl, rfl⟩
        exact ⟨(settle_restored_handed (s.taken dt 3 ⟨rest, before⟩) duress).setPort _,
          ((settle_restored_posture _ duress).setPort _).of_preposed untouched,
          settle_restored_follows (s.taken dt 3 ⟨rest, before⟩) duress h.1,
          settle_restored_waits (s.taken dt 3 ⟨rest, before⟩) duress⟩
  · intro s dt before x on h rest
    refine ⟨fun set urgent => ?_, fun allowed => ⟨_, rfl, ?_⟩⟩
    · exact congrArg Host.Outcome.next (panelCommand_same (code := 4) (len := 2) (act := maskAlarm) h rfl (by decide)
        (maskOperands_num _ x on) (maskAlarm_protected set urgent))
    · exact panelCommand_after (code := 4) (len := 2) (act := maskAlarm) h rfl (by decide) (maskOperands_num _ x on)
        (maskAlarm_accepted allowed) rfl

end Sys2Proof.Machine
end
section
/-! SUPPORT. The remote alarm list (R166, R167) and what it makes of the overlay (R140, R141). -/

namespace Sys2Proof.Machine

/-! ## An addition and a removal -/

section
variable (a : Nat) (k : RemoteKind) (s : State)

theorem any_matches : s.ann.remote.any (fun e => e.matches a k) = true ↔
    ∃ e ∈ s.ann.remote, e.station = a ∧ e.kind = k := by
  simp only [List.any_eq_true, RemoteEntry.matches_iff]

/-- R166: an entry that is there already stays as it is. -/
theorem addRemote_there (there : ∃ e ∈ s.ann.remote, e.station = a ∧ e.kind = k) : addRemote a k s = s :=
  if_pos ((any_matches a k s).mpr there)

/-- R166: a list with room takes the entry alone. -/
theorem addRemote_room (new : ¬∃ e ∈ s.ann.remote, e.station = a ∧ e.kind = k) (room : s.ann.remote.length < 8) :
    addRemote a k s = joinRemote a k s :=
  (if_neg (mt (any_matches a k s).mp new)).trans (congrArg (joinRemote a k) (if_pos room))

/-- R167: a full list loses its oldest entry, and what follows from that comes first. -/
theorem addRemote_full (new : ¬∃ e ∈ s.ann.remote, e.station = a ∧ e.kind = k)
    (full : 8 ≤ s.ann.remote.length) :
    addRemote a k s = joinRemote a k (evictOldest s) :=
  (if_neg (mt (any_matches a k s).mp new)).trans (congrArg (joinRemote a k) (if_neg (Nat.not_lt.mpr full)))

/-- R166: the entry is there after an addition, whatever the list held. -/
theorem addRemote_entry : ∃ e ∈ (addRemote a k s).ann.remote, e.station = a ∧ e.kind = k := by
  by_cases there : ∃ e ∈ s.ann.remote, e.station = a ∧ e.kind = k
  · rwa [addRemote_there a k s there]
  · rw [addRemote_remote, if_neg (mt (any_matches a k s).mp there)]
    exact ⟨_, List.mem_append_right _ List.mem_cons_self, rfl, rfl⟩

/-- R166, R167: the list and its overflow mark after an addition. -/
theorem addRemote_list : let t := addRemote a k s
    let new : RemoteEntry := { station := a, kind := k, arrival := s.presentTime, acked := false }
    let there := ∃ e ∈ s.ann.remote, e.station = a ∧ e.kind = k
    (there → t.ann.remote = s.ann.remote ∧ t.ann.overflow = s.ann.overflow) ∧
    (¬there → s.ann.remote.length < 8 →
      t.ann.remote = s.ann.remote ++ [new] ∧ t.ann.overflow = s.ann.overflow) ∧
    (¬there → 8 ≤ s.ann.remote.length →
      t.ann.remote = s.ann.remote.drop 1 ++ [new] ∧ t.ann.overflow = true) := by
  intro t new there
  refine ⟨fun h => ?_, fun h room => ?_, fun h full => ?_⟩
  · rw [show t = s from addRemote_there a k s h]
    exact ⟨rfl, rfl⟩
  · rw [show t = joinRemote a k s from addRemote_room a k s h room]
    exact ⟨rfl, rfl⟩
  · have evicted := (evictOldest_after s).handed
    have joined : t = joinRemote a k (evictOldest s) := addRemote_full a k s h full
    refine ⟨?_, (congrArg (·.ann.overflow) joined).trans evicted.overflow⟩
    have list := addRemote_remote a k s
    rwa [if_neg (mt (any_matches a k s).mp h),
      if_neg (c := s.ann.remote.length < Config.remoteSize) (Nat.not_lt.mpr full)] at list

end

/-- R166: an entry that a removal leaves. -/
theorem mem_removeRemote {a : Nat} {k : RemoteKind} {s : State} {e : RemoteEntry}
    (h : e ∈ (removeRemote a k s).ann.remote) :
    e ∈ s.ann.remote ∧ ¬(e.station = a ∧ e.kind = k) := by
  have listed := removeRemote_listed a k s
  have other : ¬(e.station = a ∧ e.kind = k) := fun same => listed.entry.mp ⟨e, h, same⟩
  exact ⟨(listed.others e other).mp h, other⟩

/-! ## The owner of a DURESS -/

section
variable {a : Nat} {source : Byte} {area : BitVec 4} {active : Bool} {s : State}

theorem duressOwner_other (h4 : source ≠ 4) (h5 : source ≠ 5) :
    duressOwner a (.duress source active area) s = s :=
  if_neg (not_or.mpr ⟨h4, h5⟩)

theorem duressOwner_on (h : source = 4 ∨ source = 5) :
    duressOwner a (.duress source true area) s = addRemote a .duress s :=
  if_pos h

theorem duressOwner_off (h : source = 4 ∨ source = 5) :
    duressOwner a (.duress source false area) s = removeRemote a .duress s :=
  if_pos h

/-- R166: what a DURESS is to the list: nothing, an addition or a removal. -/
theorem duressOwner_cases (a : Nat) (source : Byte) (area : BitVec 4) (active : Bool) (s : State) :
    duressOwner a (.duress source active area) s = s ∨
    (active = true ∧ duressOwner a (.duress source active area) s = addRemote a .duress s) ∨
    (active = false ∧ duressOwner a (.duress source active area) s = removeRemote a .duress s) := by
  by_cases h : source = 4 ∨ source = 5
  · cases active
    · exact .inr (.inr ⟨rfl, duressOwner_off h⟩)
    · exact .inr (.inl ⟨rfl, duressOwner_on h⟩)
  · exact .inl (duressOwner_other (not_or.mp h).1 (not_or.mp h).2)

theorem duressOwner_view (a : Nat) (source : Byte) (area : BitVec 4) (active : Bool) (s : State) :
    (duressOwner a (.duress source active area) s).posture.view = s.posture.view := by
  rcases duressOwner_cases a source area active s with h | ⟨-, h⟩ | ⟨-, h⟩ <;> rw [h]
  · exact addRemote_view a _ s
  · rfl

/-- R167: only an eviction hands anything on before the event is settled. -/
theorem duressOwner_preposed (h : s.ann.remote.length < 8 ∨ active = false) :
    Preposed s (duressOwner a (.duress source active area) s) := by
  have same : Preposed s s := ⟨rfl, rfl, rfl, rfl, rfl, rfl, rfl⟩
  have listed (x : Annunciator) (hs : x.sources = s.ann.sources) : Preposed s (s.setAnn x) :=
    ⟨rfl, rfl, rfl, rfl, rfl, by simp only [State.source, State.setAnn_ann, hs],
      by simp only [State.source, State.setAnn_ann, hs]⟩
  rcases duressOwner_cases a source area active s with e | ⟨on, e⟩ | ⟨-, e⟩ <;> rw [e]
  · exact same
  · have room := h.resolve_right fun off => Bool.false_ne_true (off.symm.trans on)
    by_cases there : ∃ e ∈ s.ann.remote, e.station = a ∧ e.kind = .duress
    · rwa [addRemote_there a .duress s there]
    · rw [addRemote_room a .duress s there room]
      exact listed _ rfl
  · exact listed _ rfl

/-- R166: no hand-off touches the list. -/
theorem settle_remoteList (s : State) :
    (settle s).ann.remote = s.ann.remote ∧ (settle s).ann.overflow = s.ann.overflow :=
  ⟨(settle_handed s).remote, (settle_handed s).overflow⟩

theorem settle_duress_other (h4 : source ≠ 4) (h5 : source ≠ 5) :
    let t := settle (duressOwner a (.duress source active area) s)
    t.ann.remote = s.ann.remote ∧ t.ann.overflow = s.ann.overflow := by
  rw [duressOwner_other h4 h5]
  exact settle_remoteList s

theorem settle_duress_off (h : source = 4 ∨ source = 5) :
    let t := settle (duressOwner a (.duress source false area) s)
    t.ann.remote = (removeRemote a .duress s).ann.remote ∧ t.ann.overflow = s.ann.overflow := by
  rw [duressOwner_off h]
  exact settle_remoteList _

theorem settle_duress_on (h : source = 4 ∨ source = 5) :
    let t := settle (duressOwner a (.duress source true area) s)
    t.ann.remote = (addRemote a .duress s).ann.remote ∧ t.ann.overflow = (addRemote a .duress s).ann.overflow := by
  rw [duressOwner_on h]
  exact settle_remoteList _

/-- R75, R93: lockout in step stays in step, and no door moves, through an eviction too. -/
theorem duressOwner_doors (hr : s.running = true) (hl : s.lockoutStage = s.doors.a.lockout) :
    (duressOwner a (.duress source active area) s).doors = s.doors ∧
      (duressOwner a (.duress source active area) s).lockoutStage = s.lockoutStage := by
  rcases duressOwner_cases a source area active s with e | ⟨-, e⟩ | ⟨-, e⟩ <;> rw [e]
  · exact ⟨rfl, rfl⟩
  · unfold addRemote
    split
    · exact ⟨rfl, rfl⟩
    · split
      · exact ⟨rfl, rfl⟩
      · exact ⟨(evictOldest_after s).doors hl, settle_lockoutStage (u := s.setAnn _) hr⟩
  · exact ⟨rfl, rfl⟩

end

/-! ## The overlay -/

/-- R140, R141: a DURESS entry in scope holds the overlay. -/
theorem State.PostureFollows.lockdown_of_scoped {t : State} (h : t.PostureFollows) (entry : t.ScopedDuress) :
    t.posture.effective = .lockdown :=
  h.1 (.inr entry)

/-- R140, R141: with no lockdown flag and no DURESS entry in scope the view prevails. -/
theorem State.PostureFollows.view {t : State} (h : t.PostureFollows) (flags : ∀ x, t.lockdownFlag x = false)
    (outside : ¬t.ScopedDuress) : t.posture.effective = t.posture.view.posture :=
  h.2 fun on => on.elim (fun ⟨x, _, _, flag, _⟩ => Bool.false_ne_true ((flags x).symm.trans flag)) outside

theorem lockdownFlag_congr {s t : State} (h : t.image = s.image) (x : Source) :
    t.lockdownFlag x = s.lockdownFlag x := by
  unfold State.lockdownFlag
  rw [h]

/-! ## The commands -/

section
variable {s : State} {dt a : Nat} {bits : List Bool}

theorem exec_duressFrame {f : Frame} (h : Reaches { kind := 2, dt := dt, bits := bits } s a f) :
    exec (.duressFrame dt bits) s =
      .next (settle (duressOwner a f (s.reached { kind := 2, dt := dt, bits := bits } a f))) :=
  congrArg Host.Outcome.next (receiveFrame_reaches h duressOwner)

/-- R24, R28: the hearing of a frame leaves the remote list, and its time is the frame's. -/
theorem reached_remote (s : State) (c : FrameCall) (a : Nat) (f : Frame) :
    (s.reached c a f).ann.remote = s.ann.remote ∧ (s.reached c a f).ann.overflow = s.ann.overflow ∧
      (s.reached c a f).presentTime = s.seconds (s.now + c.dt) := by
  have handed := reached_handed s c a f
  have heard : (s.heard c a f).ann = s.ann ∧ (s.heard c a f).presentTime = s.seconds (s.now + c.dt) := by
    simp [State.heard, State.presentTime, State.seconds]
  exact ⟨handed.remote.trans (by rw [heard.1]), handed.overflow.trans (by rw [heard.1]),
    handed.presentTime.trans heard.2⟩

/-- R167: READ_REMOTE_LIST gives the list as it stood, and marks it. -/
theorem exec_readRemoteList {before : Nat} (h : s.AtPanel) : exec (.readRemoteList dt ⟨[0], before⟩) s =
    .next ((markRead (s.elapse dt)).setPort (s.answered [0] 6 0 0 (remoteData (s.elapse dt)))) :=
  congrArg Host.Outcome.next (panelCommand_idle (code := 6) (len := 0) (parse := noOperands) (act := readRemoteList)
    (bytes := []) (x := ()) h rfl (by decide) rfl rfl)

end

/-- Settles O47: the frame's owner adds to the list or takes from it (`addRemote_list`), no hand-off touches the list,
and the settled posture follows the overlay; READ_REMOTE_LIST is read off the list and marks it. -/
theorem remoteAlarmList : Obligations.RemoteAlarmList := by
  refine ⟨?_, fun s dt before h => exec_readRemoteList h⟩
  intro s dt a bits source active area h
  have run := exec_duressFrame h
  have heard := reached_preposed s ⟨2, dt, bits⟩ a (.duress source active area)
  obtain ⟨doors, -, posture, roster, port, image, -⟩ :=
    reached_blocks s ⟨2, dt, bits⟩ a (.duress source active area)
  obtain ⟨remote, overflow, time⟩ := reached_remote s ⟨2, dt, bits⟩ a (.duress source active area)
  have running := reached_running s ⟨2, dt, bits⟩ a (.duress source active area) h.1
  have calm := reached_calm s ⟨2, dt, bits⟩ a (.duress source active area)
  generalize s.reached ⟨2, dt, bits⟩ a (.duress source active area) = u at *
  have spares := (duressOwner_spares a (.duress source active area) u).trans (settle_handed _).spares
  have img : (settle (duressOwner a (.duress source active area) u)).img = s.img :=
    spares.img.trans (by rw [State.img, image, State.img])
  have view : (settle (duressOwner a (.duress source active area) u)).posture.view = s.posture.view :=
    (settle_handed _).view.trans ((duressOwner_view a source area active u).trans (by rw [posture]))
  have follows := settle_postureFollows
    ((running_congr (duressOwner_spares a (.duress source active area) u).startup).trans running)
  refine ⟨_, run, fun h4 h5 => ?_, fun own => ?_, follows, fun k => ?_, spares.roster.trans roster,
    spares.port.trans port, view, fun hl => ?_⟩
  · obtain ⟨list, mark⟩ := settle_duress_other (a := a) (area := area) (active := active) (s := u) h4 h5
    exact ⟨list.trans remote, mark.trans overflow⟩
  · cases active
    · obtain ⟨list, mark⟩ := settle_duress_off (a := a) (area := area) (s := u) own
      refine ⟨fun _ => ⟨mark.trans overflow, list.trans (congrArg _ remote)⟩, nofun, nofun, nofun, nofun,
        fun _ flags none => ?_⟩
      refine (follows.view (fun x => (lockdownFlag_congr (spares.image.trans image) x).trans (flags x)) ?_).trans
        (congrArg PostureView.posture view)
      rintro ⟨e, he, kind, counts⟩
      obtain ⟨old, other⟩ := mem_removeRemote (list ▸ he)
      exact none e (remote ▸ old) kind (fun station => other ⟨station, kind⟩) (img ▸ counts)
    · obtain ⟨list, mark⟩ := settle_duress_on (a := a) (area := area) (s := u) own
      have added := addRemote_list a .duress u
      dsimp only at added
      rw [remote, overflow, time] at added
      obtain ⟨there, room, full⟩ := added
      refine ⟨nofun, fun _ old => (there old).imp list.trans mark.trans,
        fun _ new free => (room new free).imp list.trans mark.trans,
        fun _ new most => (full new most).imp list.trans mark.trans, fun _ counts => ?_, nofun⟩
      obtain ⟨e, he, station, kind⟩ := addRemote_entry a .duress u
      exact follows.lockdown_of_scoped ⟨e, list ▸ he, kind, by rwa [img, station]⟩
  · exact (settle_posture _).of_preposed (heard.trans (duressOwner_preposed (by rwa [remote])))
  · obtain ⟨still, stage⟩ :=
      duressOwner_doors (a := a) (source := source) (area := area) (active := active) running (calm hl)
    exact ((settle_after _).doors (stage.trans ((calm hl).trans (by rw [still])))).trans (still.trans doors)

end Sys2Proof.Machine
end
